-- ==== Sys2Proof/Word.lean ====
section
/-! DEFINITION. The word types of the model and their plainest arithmetic. -/

namespace Sys2Proof

/-- One byte. -/
abbrev Byte := BitVec 8
/-- A 32-bit register word. -/
abbrev Word := BitVec 32
/-- A 64-bit register word. -/
abbrev Word64 := BitVec 64
/-- The 4,096 bytes of one internal sector. -/
abbrev SectorData := BitVec 32768

/-- A sparse table by number: the entries that differ from the table's default, in no fixed order.
The default is a parameter of each read, so that the table itself stays plain data. -/
abbrev Tbl (α : Type) := List (Nat × α)

/-- What a table holds at a number. -/
def Tbl.get {α : Type} (d : α) : Tbl α → Nat → α
  | [], _ => d
  | (k', v) :: r, k => if k = k' then v else Tbl.get d r k

/-- A table with one entry written. -/
def Tbl.set {α : Type} : Tbl α → Nat → α → Tbl α
  | [], k, v => [(k, v)]
  | (k', v') :: r, k, v => if k = k' then (k, v) :: r else (k', v') :: Tbl.set r k v

/-- A table with one entry changed by a function. -/
def Tbl.upd {α : Type} (d : α) (t : Tbl α) (k : Nat) (f : α → α) : Tbl α :=
  Tbl.set t k (f (Tbl.get d t k))

/-- Whether a table lists an entry for a number. -/
def Tbl.has {α : Type} (t : Tbl α) (k : Nat) : Bool := t.any (fun e => e.1 == k)

/-- A table without its entry for a number. -/
def Tbl.del {α : Type} (t : Tbl α) (k : Nat) : Tbl α := t.filter (fun e => e.1 != k)

/-- The values a table lists, each changed by a function of its number. -/
def Tbl.mapVals {α β : Type} (f : Nat → α → β) (t : Tbl α) : Tbl β := t.map (fun e => (e.1, f e.1 e.2))

end Sys2Proof
end

