-- ==== Sys2Proof/Stored.lean ====
section
/-! DEFINITION. What is stored on the media and in the map: places, loaf and crumb entries, sectors, zones, reclaim units and blocks
(files 04, 05, 07), and what a replacement die finds of them on the berths it adopts (R501). A field's note reads
[width | file and rule | reset value]. -/

namespace Sys2Proof.Machine

/-- A place on the media: loaf slot of a PU (R155). -/
structure Loc where
  port : Nat := 0
  die : Nat := 0
  block : Nat := 0
  pu : Nat := 0
  slot : Nat := 0
deriving DecidableEq, Repr

/-- Types of a loaf entry (R156). -/
inductive LType where
  | unmapped | loaf | inflight | part | heel | staged
deriving DecidableEq, Repr

/-- A loaf entry (R155). -/
structure LoafEntry where
  typ : LType := .unmapped
  loc : Loc := {}
  prot : Nat := 0
  vmask : BitVec 16 := 0
  crb : Bool := false
  poison : Bool := false
  heat : Nat := 0
deriving DecidableEq, Repr

/-- States of a crumb entry (R157). -/
inductive CState where
  | free | media | staged
deriving DecidableEq, Repr

/-- A crumb entry (R157): sslot is the sector slot 0 to 47 within the PU. second: it sits in the second of its two buckets (R159). dest: the
reclaim unit handle and DSPEC group of its write (R149, R152), to which it drains. -/
structure Crumb where
  st : CState := .free
  loc : Loc := {}
  sslot : Nat := 0
  prot : Nat := 0
  poison : Bool := false
  wgen : BitVec 8 := 0
  second : Bool := false
  dest : Nat × Option Nat := (0, none)
deriving DecidableEq, Repr

/-- The metadata of a stored sector (R315), its constant bytes left out. -/
structure SMeta where
  epoch : Nat := 0
  counter : Nat := 0
  tag : BitVec 128 := 0
  kslot : Nat := 0
  sect : Nat := 0
  nsx : Nat := 0
  wgen : BitVec 8 := 0
  tenant : Nat := 0
  hmeta : BitVec 128 := 0
deriving DecidableEq, Repr

/-- A stored sector: its ciphertext and its metadata (R315, R316). -/
structure Sector where
  data : SectorData := 0
  md : SMeta := {}
  poison : Bool := false
deriving DecidableEq, Repr

/-- Zone states (R132). -/
inductive ZState where
  | zse | zsio | zseo | zsc | zsf | zsro | zso
deriving DecidableEq, Repr

/-- A zone (R130 to R143). -/
structure Zone where
  /-- [4 bits | 04 R132 | ZSE] state -/
  st : ZState := .zse
  /-- [64 bits | 04 R130 | 0] write pointer, LBAs above the zone start -/
  wp : Nat := 0
  /-- [3 bits | 04 R150 | none] reclaim group -/
  group : Option Nat := none
  /-- [64 bits | 03 R88 | 0] write pointer that commands already checked will leave -/
  wpNext : Nat := 0
  /-- [64 bits | 04 R133 | 0] time last written -/
  written : Nat := 0
  /-- [64 bits | 04 R136 | 0] time it entered ZSC -/
  closedAt : Nat := 0
  /-- [64 bits | 04 R136 | 0] order in which its heel formed -/
  heelAt : Nat := 0
  /-- [1 bit | 04 R136 | 0] a part loaf holds the sectors of its settled heel -/
  settled : Bool := false
  /-- [16 bits | 04 R136 | 0] sectors of the heel held in the proofing area -/
  heelMask : BitVec 16 := 0
  /-- [40 bits | 05 R155 | 0] proofing address of the heel -/
  heelProt : Nat := 0
  /-- [4 bits | 04 R149 | 0] reclaim unit handle of the write that last added to the heel (log entry 151) -/
  heelRuh : Nat := 0
  /-- [64 bits | 04 R145 | none] tag allocations made when a ZONE_SET_RO that waits at the zone gate was accepted -/
  roWait : Option Nat := none
deriving DecidableEq, Repr

/-- RU states (R170). -/
inductive RuState where
  | free | opened | closed | collecting | pendingErase
deriving DecidableEq, Repr

/-- A member of an RU's berth set: port, die and block. -/
structure Member where
  port : Nat
  die : Nat
  block : Nat
deriving DecidableEq, Repr

/-- The rebuild or drain of one position of an RU (R262, R264): the port it leaves, the replacement block, the row that is next or under way,
the loaf slots of that row loaded, how far the row is (0 not begun, 1 loading and programming, 2 every row passed), and the segment before
which the journal must be durable for the replacement to take the place, plus 1. -/
structure Rebuild where
  port : Nat
  pos : Nat
  dst : Member
  row : Nat := 0
  slots : List Nat := []
  stage : Nat := 0
  mark : Nat := 0
deriving DecidableEq, Repr

/-- A reclaim unit (R170, R246, R250). -/
structure Ru where
  /-- [3 bits | 05 R170 | FREE] state -/
  st : RuState := .free
  /-- [3 bits | 05 R170 | 0] group -/
  group : Nat := 0
  /-- [4 bits | 05 R170 | 0] handle -/
  handle : Nat := 0
  /-- [k + 2 blocks | 07 R246 | empty] members by position -/
  members : List Member := []
  /-- [6 bits | 07 R245 | 32] row width it was opened with -/
  k : Nat := 32
  /-- [11 bits | 07 R246 | 0] open row -/
  row : Nat := 0
  /-- [11 bits | 07 R248 | 0] row whose loaf slots are being assigned -/
  arow : Nat := 0
  /-- [8 bits | 01 R24 | 0] loaf slots of that row assigned -/
  slots : Nat := 0
  /-- [loaf slots | 07 R248 | empty] loaf slots whose LOAD returned OK: (row x 64 + position) x 4 + slot -/
  loaded : List Nat := []
  /-- [positions | 07 R250 | empty] holes: position and first row -/
  holes : List (Nat × Nat) := []
  /-- [positions | 07 R253 | empty] positions recorded as missing, with the row -/
  lost : List (Nat × Nat) := []
  /-- [rows | 07 R249 | empty] rows cut short: the row and its written mask, a bit for each position that holds data or parity -/
  short : List (Nat × Nat) := []
  /-- [loaf slots | 07 R249 | empty] loaf slots that filler takes: (row x 64 + position) x 4 + slot -/
  fills : List Nat := []
  /-- [1 bit | 07 R259 | 0] no row of it is opened again, and it closes with its last open row -/
  retiring : Bool := false
  /-- [64 bits | 05 R171 | 0] time it was closed -/
  closedAt : Nat := 0
  /-- [set | 05 R170 | empty] members still to erase -/
  toErase : List Nat := []
  /-- [4,160 bytes per code-word position | 07 R248 | zero] P accumulators, row x 64 + code-word position -/
  accP : Tbl (BitVec 33280) := []
  /-- [4,160 bytes per code-word position | 07 R248 | zero] Q accumulators, row x 64 + code-word position -/
  accQ : Tbl (BitVec 33280) := []
  /-- [12 trays | 07 R248 | none] 512 B trays that hold the metadata part of its accumulators: size and tray -/
  accTrays : List (Nat × Nat) := []
  /-- [positions | 07 R251 | empty] PUs that have passed program: row x 64 + position -/
  passed : List Nat := []
  /-- [positions | 07 R262 | none] positions under rebuild or drain -/
  rebuild : List Rebuild := []
  /-- [positions | 07 R251 | empty] data positions of the open row whose program failed and is not recovered yet, and whether their
  blocks retire -/
  failing : List (Nat × Bool) := []
  /-- [1 bit | 07 R251 | 0] accumulators frozen by a program-failure recovery -/
  frozen : Bool := false
  /-- [3 bits | 05 R172 | 0] how far its collection is: 0 copying, 1 move records to become durable, 2 PENDING_ERASE to become
  durable, 3 erasing, 4 ERASED to become durable -/
  stage : Nat := 0
  /-- [64 bits | 05 R172 | 0] the segment before which the journal must be durable for the stage to end, plus 1 -/
  mark : Nat := 0
deriving DecidableEq, Repr

/-- States of a block that is not simply free. -/
inductive BState where
  | free | inRu (ru : Nat) | retired
deriving DecidableEq, Repr

/-- A multi-plane block (R170, R177, R178). -/
structure Block where
  /-- [enumeration | 05 R170 | free] state -/
  st : BState := .free
  /-- [16 bits | 05 R175 | 0] erase count -/
  ec : Nat := 0
  /-- [32 bits | 05 R177 | 0] page reads since programmed -/
  reads : Nat := 0
  /-- [64 bits | 05 R177 | 0] time first programmed -/
  prog : Nat := 0
deriving DecidableEq, Repr

/-- A Svafa image header (R442), as content bytes 0 to 255 give it. -/
structure ImgHeader where
  magic : Nat
  fmt : Nat
  hlen : Nat
  nblocks : Nat
  clen : Nat
  step : Nat
  kver : Nat
  flags : Nat
  fwVer : Nat
  minLive : Nat
  svn : Nat
  svnFloor : Nat
  cfgFmt : Nat
  cfgMin : Nat
  manOff : Nat
  nparts : Nat
  sigOff : Nat
deriving DecidableEq, Repr

/-- A manifest entry (R443). -/
structure Part where
  type : Nat
  pflags : Nat
  offset : Nat
  length : Nat
  ver : Nat
  digest : BitVec 384
deriving DecidableEq, Repr

/-- Activation record (R454). -/
structure ActRec where
  /-- [32 bits | 15 R454 | DESIGN CHOICE 0 (log entry 1)] SEQ -/
  seq : Nat := 0
  /-- [8 bits | 15 R454 | CONFIRMED] STATE: 0 CONFIRMED, 1 PENDING, 2 TRIAL -/
  st : Nat := 0
  /-- [8 bits | 15 R454 | slot A, DESIGN CHOICE (log entry 1)] RUN_SLOT -/
  run : Nat := 0
  /-- [8 bits | 15 R454 | none] NEW_SLOT -/
  new : Option Nat := none
  /-- [8 bits | 15 R454 | 0] TRIALS -/
  trials : Nat := 0
  /-- [32 bits | 15 R454 | 0] SVN_FLOOR -/
  svnFloor : Nat := 0
  /-- [8 bits | 15 R454 | 0] MODE -/
  mode : Nat := 0
  /-- [1 bit | 15 R454 | 0] FELL_BACK -/
  fellBack : Bool := false
  /-- [64 bits | 15 R454 | 0] ACT_ID -/
  actId : Nat := 0
  /-- [16 bits | 15 R454 | DESIGN CHOICE 1 (log entry 6)] CFG_OLD -/
  cfgOld : Nat := 1
  /-- [16 bits | 15 R454 | DESIGN CHOICE 1 (log entry 6)] CFG_NEW -/
  cfgNew : Nat := 1
  /-- [32 bits | 15 R454 | DESIGN CHOICE 0 (log entry 1)] FW_OLD -/
  fwOld : Nat := 0
  /-- [32 bits | 15 R454 | DESIGN CHOICE 0 (log entry 1)] FW_NEW -/
  fwNew : Nat := 0
deriving DecidableEq, Repr

/-- What the media of a worker's berths hold of one namespace after the last checkpoint and the durable journal (R169). -/
structure StoredNs where
  map : Tbl LoafEntry := []
  crumbs : Tbl Crumb := []
  pmask : Tbl (BitVec 16) := []
  zones : Tbl Zone := []
deriving DecidableEq, Repr

/-- What a replacement die finds in the system areas of the berths it adopts (R501 step 3, R503): whether the failed worker's dock-down
finished, the map of each namespace, the reclaim units and blocks, the sectors programmed, the proofing area as far as it was rescued,
the next journal segment, and the nonce blocks durably reserved of each slot (R326). -/
structure AdoptImage where
  finished : Bool := true
  nss : List (Nat × StoredNs) := []
  rus : Tbl Ru := []
  blocks : Tbl Block := []
  subst : Tbl Nat := []
  owner : List (Nat × Nat × Nat) := []
  crumbSlots : Tbl (List (Nat × Nat)) := []
  media : Tbl Sector := []
  parity : Tbl (BitVec 33280) := []
  proof : Tbl Sector := []
  seg : Nat := 0
  reserved : Tbl Nat := []
deriving DecidableEq, Repr

end Sys2Proof.Machine
end

