-- ==== Sys2Proof/Syntax.lean ====
section
/-! DEFINITION. The commands of the block: the ONE inductive Instr, one constructor per row of the table, and the
operands they carry. An operand is what the world outside the die decides (a level, a host's word, a berth's answer,
what a measurement gives), or a choice the spec leaves to the hardware (which free tag, which lane pair). -/

namespace Sys2Proof

/-- The rails internal monitors watch (R511). -/
inductive Rail where
  | vcore | vsram | vserdes | vucie | vddq
deriving DecidableEq, Repr

/-- A berth passport (R224): its 512 bytes, of which Passport's functions read the fields. -/
structure Passport where
  raw : List Byte
deriving DecidableEq, Repr

/-- One copy of a berth's membership label (R261): its 64 bytes, of which Label's functions read the fields. -/
structure Label where
  raw : List Byte
deriving DecidableEq, Repr

/-- A berth found in a slot: its passport and the three copies of its label, whether TS1 showed RATE32, and what its training settles on:
the presets of the port's and the berth's transmitter and the credits that it grants. -/
structure BerthFind where
  port : Nat
  passport : Passport
  labels : List Label
  rate32 : Bool
  presets : Nat × Nat := (4, 4)
  credits : Nat × Nat := (64, 72)
deriving DecidableEq, Repr

/-- What the DRAM controller finds on a channel at training (R334, R335, R356). -/
structure ChanFind where
  ch : Nat
  dimms : Nat
  cap0 : Nat
  cap1 : Nat
  rate : Nat
  drfm : Bool
  popOk : Bool
  trainOk : Bool
deriving DecidableEq, Repr

/-- What the host die and the module lanes give at a UCIe training (R38 to R42): for each module the highest rate index
(0 = 4 to 5 = 32 GT/s) at which it trains, or none; the lanes repaired; the modules degraded with a cause; the mask the
host returns; whether the host die offers the latency-optimised flit format (R37). -/
structure UcieEnv where
  rates : List (Option Nat)
  repaired : List (Nat × Nat)
  degraded : List (Nat × Nat)
  hostMask : BitVec 8
  latOpt : Bool := true
deriving DecidableEq, Repr

/-- What a cold start meets (R513): results of boot self-test, of the pilot loader and slot checks, of DRAM training,
of berth discovery and of link training; whether an AVSBus regulator answers; the sensors' readings in 0.1 °C; and of
each boot-store device, whether its newest activation record fails its CRC (R454, R455). -/
structure BootEnv where
  failedUnits : List (Nat × Nat)
  essentialFail : Option Nat
  bootStoreOk : Bool
  slotAOk : Bool
  slotBOk : Bool
  chans : List ChanFind
  berths : List BerthFind
  avs : Bool
  temps : List (Option Int)
  reachesReady : Bool
  ucie : UcieEnv
  actTorn0 : Bool := false
  actTorn1 : Bool := false
deriving DecidableEq, Repr

/-- What a dock-down meets (R28, R36, R253): the last step that the energy carries it through, the end times of the steps in 10 µs, the
bytes of unsettled content that step 4 had energy to write, PUs whose program fails in steps 2 and 3 (RU and position), the ports whose
berth is removed during step 3 and during step 4, and the composite and sensor of a thermal SHUTDOWN that falls while it runs. -/
structure DockEnv where
  steps : Nat
  ends : List Nat
  rescueBytes : Nat
  failed : List (Nat × Nat) := []
  removed3 : List Nat := []
  removed4 : List Nat := []
  shutdown : Option (Nat × Nat) := none
deriving DecidableEq, Repr

/-- A 64-byte submission entry (R75, R76) as the host wrote it. -/
structure SqEntry where
  dw0 : Word
  nsid : Word
  dw2 : Word
  vhd : Word
  mptr : Word64
  dptr : BitVec 128
  cdw10 : Word
  cdw11 : Word
  cdw12 : Word
  cdw13 : Word
  cdw14 : Word
  cdw15 : Word
deriving DecidableEq, Repr

/-- A Kanex request (R369) with the doorbell's SEQ: the header fields and the payload bytes the mailbox copies at
acceptance. rsv11 and rsv20 are the reserved header bytes 11 and 20 to 23. -/
structure KReq where
  fn : Nat
  dbSeq : Nat
  seq : Nat
  len : Nat
  tfunc : Nat
  tdie : Nat
  rsv11 : Nat
  rsv20 : Nat
  roffset : Nat
  dlen : Nat
  dptr : Nat
  payload : List Byte
deriving DecidableEq, Repr

/-- UPD_BEGIN's request whole (R447): its row has the HEADER as an operand of its own, which follows the bytes before it. -/
def KReq.withHeader (q : KReq) (hdr : List Byte) : KReq := { q with payload := q.payload ++ hdr }

/-- The 16 bytes of a TS1 or TS2 as they arrive (R194). -/
structure Ts where
  bytes : List Byte
deriving DecidableEq, Repr

/-- The header of a flit (R199). -/
structure FlitHdr where
  ft : Nat
  long : Bool
  ackv : Bool
  nak : Bool
  seq : Nat
  ack : Nat
  crs : Nat
  crl : Nat
deriving DecidableEq, Repr

/-- An RSP: header and body (R216). -/
structure Rsp where
  hdr : FlitHdr
  otag : Nat
  op : Nat
  die : Nat
  status : Nat
  nsr : Nat
  tbusy : Nat
  detail : Nat
deriving DecidableEq, Repr

/-- An EVT: header and the value of its body (R216, R222). -/
structure Evt where
  hdr : FlitHdr
  value : Word
deriving DecidableEq, Repr

/-- The data descriptor of an RDATA flit (R215), and its payload where the die reads it as it is: a passport, a label or a tunnel. -/
structure DataDesc where
  otag : Nat
  die : Nat
  plane : Nat
  level : Nat
  cw : Nat
  offset : Nat
  last : Bool
  vlen : Nat
  payload : List Byte := []
deriving DecidableEq, Repr

/-- The outcome of the LDPC decoding of one code word at one step of the ladder (R240 to R242): converged with a count of
corrected bits, or failed. -/
inductive DecodeOutcome where
  | converged (bits : Nat)
  | failed
deriving DecidableEq, Repr

/-- What a lane pair's comparator and tag check say of one sector (R312, R330). -/
inductive LaneOutcome where
  | agreeTagOk
  | agreeTagBad
  | disagree
deriving DecidableEq, Repr

/-- The outcome of decoding one DRAM code word (R340). -/
inductive DramOutcome where
  | clean
  | corrected
  | addressFault
  | uncorrectable
  | poisoned
deriving DecidableEq, Repr

/-- What reading a slot back gives (R445, R446, R452): the blocks bad on both devices, the manifest's bytes (R443), the SHA-384 of the
bytes that each of its entries names and of the public key in the signature block, and whether the signature verifies under that key. -/
structure VerifyFacts where
  badBlocks : List Nat
  manifest : List Byte
  digests : List (BitVec 384)
  signer : BitVec 384
  sigOk : Bool
deriving DecidableEq, Repr

/-- The host-supplied data structure of a Namespace Management create (R125, R126, R152). -/
structure NsCreate where
  csi : Nat
  flbas : Nat
  nsze : Nat
  ncap : Nat
  params : List Byte
  phndls : List Nat
deriving DecidableEq, Repr

/-- What a die presents in the identity exchange of a Quay link (R491). -/
structure QuayIdent where
  worker : Bool
  quayId : Nat
  dsn : BitVec 64
  stepping : Nat
  fwVer : Nat
  sysid : BitVec 64
  sysidOk : Bool
  certOk : Bool
deriving DecidableEq, Repr

/-- A forwarded completion (R494): status, DW0 and DW1, and the first failing LBA of a Read or Verify (R120). -/
structure QuayCplMsg where
  sct : Nat
  sc : Nat
  dnr : Bool
  dw0 : Word
  dw1 : Word
  errLba : Nat
deriving DecidableEq, Repr

/-- What a KEY message carries (R323): a slot's key and the state it takes (0 EMPTY, 1 WRITE, 2 READ), a tenant's key lock, or a right
secret given for it. -/
inductive QuayKeyWhat where
  | slot (key : BitVec 256) (st : Nat)
  | lock (secret : Option (List Byte))
  | unlock
deriving DecidableEq, Repr

/-- A KEY message (R323): the mailbox whose command waits until the worker has applied it, the slot or the tenant, and what it carries. -/
structure QuayKeyMsg where
  fn : Option Nat
  index : Nat
  what : QuayKeyWhat
deriving DecidableEq, Repr

/-- A forwarded command's handle on the Quay (R83, R492): the manager's tag and its generation. -/
structure QuayHandle where
  tag : Nat
  gen : BitVec 8
deriving DecidableEq, Repr

/-- Whom a forwarded command works for (R276, R494): the manager's function, and the class of its tide stamp. -/
structure QuaySender where
  fn : Nat
  cls : Nat
deriving DecidableEq, Repr

/-- How the code words decode that a row reads on the way (R96, R172, R241, R254), by their place on the media: those whose decode ladder
fails, those decoded with more than 96 bits corrected, and those that only a soft decode brings back; every other is read at once. What
the cells give is an outcome from outside, so an operand. -/
structure Decodes where
  failed : List Nat := []
  high : List Nat := []
  soft : List Nat := []
deriving DecidableEq, Repr

/-- What a row acts on, and how the code words decode that it reads on the way. -/
structure Reading (α : Type) where
  on : α
  unread : Decodes
deriving DecidableEq, Repr

/-- What a MGMT message carries (R492, R496, R500, R501): weights, a worker's record, its answer to a forwarded command, a profile
with its LEAN cap, a worker's summary (user capacity, power state, formed groups, sectors allocated of each namespace; and of each key
slot its number, epoch, next counter and sectors), the DSN whose berths a replacement adopts, a worker's FAIL step; the namespaces made,
deleted or formatted on the worker (R128, R153); a tenant's record (R293); a Kanex command forwarded, by its opcode with its request, which
an NVMe firmware command has not (R376, R461); the ACT_ID of the activation that follows (R454); the
owner policy, for a joining worker (R385, R498); the manager's image and record, for a joining
worker (R498); and a command given up under its handle, with the status that it is to end with, or with
none in a reset (R104, R107, R109). -/
inductive QuayMgmtMsg where
  | weights (w : List (Nat × Nat))
  | logRecord (code : Nat) (sev : Nat) (inst : Nat) (payload : List Byte)
  | kanexResponse (fn : Nat) (status : Nat) (detail : Nat) (payload : List Byte)
  | profile (p : Nat) (cap : Nat)
  | summary (userCap : Nat) (pstate : Nat) (formed : BitVec 8) (used : List (Nat × Nat)) (keys : List (Nat × Nat × Nat × Nat))
  | tenant (n : Nat) (alive : Bool) (record : List Byte)
  | kanexCommand (op : Nat) (q : Option KReq)
  | actId (id : Nat)
  | policy (word force : Word)
  | firmware (hdr : Option (List Byte)) (parts : List Machine.Part) (record : Machine.ActRec)
  | adopt (prior : BitVec 64)
  | failing
  | event (etype info page bitNo : Nat)
  | nsMake (nsid owner : Nat) (c : NsCreate) (salt : BitVec 256) (homeDsn : BitVec 64)
  | nsRemove (nsid : Nat)
  | nsFormat (nsid lbaf size : Nat) (salt : Option (BitVec 256))
  | closeZones (nsids : List Nat)
  | giveUp (tag : Nat) (gen : BitVec 8) (status : Option (Nat × Nat))
deriving DecidableEq, Repr

/-- The commands of the block, in the order of the table. -/
inductive Instr where
  | powerOnReset (e : BootEnv)
  | supplyLoss
  | coldRstNRise (e : BootEnv)
  | coldRstNFall (d : DockEnv)
  | startWatchdogExpiry (e : BootEnv)
  | deviceRestart (e : BootEnv)
  | pfNFall (d : DockEnv)
  | pfNRise (stillHigh : Bool) (e : BootEnv)
  | railOutOfWindow (r : Rail) (d : DockEnv)
  | refclkLoss (n : Nat) (u : UcieEnv)
  | handshakeStall (subsys inst : Nat) (resetClears : Bool) (d : DockEnv)
  | ladderIdleReset (level inst : Nat)
  | gatedIslandWake (island : Nat)
  | gatedRegisterAccess (fn offset : Nat) (write : Bool) (value : Word) (wakes : Bool)
  | heldWritesRelease
  | ucieTraining (u : UcieEnv)
  | laneError (module lane : Nat) (u : UcieEnv)
  | flitCrcError
  | dlDown (cause : Nat)
  | l1Request (completionDue : Bool)
  | l2Request
  | outOfBarRequest (fn addr : Nat) (write : Bool)
  | registerWrite (fn bar offset size : Nat) (value : Word64)
  | ferrWrite (fn : Nat) (value : Word)
  | hostReadFailure (tag status : Nat)
  | poisonedTlpReceived (tag : Nat)
  | sqFetchFail (fn sq : Nat)
  | flr (fn : Nat)
  | conventionalReset
  | vfEnableWrite (enable : Bool) (numVfs : Nat)
  | d3hotEntry (fn : Nat)
  | ccEnSet (fn : Nat) (cc : Word)
  | ccEnClear (fn : Nat) (cc : Word)
  | ccShnNormal (fn : Nat)
  | ccShnAbrupt (fn : Nat)
  | functionReady (fn : Nat)
  | teardownComplete (fn : Nat)
  | teardownLate (fn : Nat)
  | msixEnableWrite (fn : Nat) (enable : Bool)
  | vectorMaskWrite (fn : Nat) (vector : Option Nat) (mask : Bool)
  | sqTailDoorbell (fn y : Nat) (value : Word) (aligned : Bool)
  | cqHeadDoorbell (fn y : Nat) (value : Word) (aligned : Bool)
  | sqEntryFetch (fn sq tag : Nat) (entry : SqEntry)
  | commandAdmit (tag : Nat)
  | completionPost (tag : Nat)
  | moderationTimerDue (fn v : Nat)
  | internalTimeout (tag : Nat)
  | failFastDeadline (tag : Nat)
  | read (tag : Nat)
  | write (tag : Nat)
  | zoneAppend (tag : Nat)
  | writeZeroes (tag : Nat)
  | datasetManagement (tag : Nat) (ranges : List (Nat × Nat))
  | flush (tag : Nat)
  | verify (tag : Nat)
  | ioManagementReceive (tag : Nat)
  | ioManagementSend (tag : Nat) (pids : List Nat)
  | zoneOpen (tag : Nat)
  | zoneClose (tag : Nat)
  | zoneFinish (tag : Nat)
  | zoneReset (tag : Nat)
  | zoneOffline (tag : Nat)
  | setZoneDescriptorExtension (tag : Nat)
  | reportZones (tag : Nat)
  | zoneGateOpen (tag : Nat)
  | heelSettle (ns zone : Nat)
  | createIoSq (tag : Nat)
  | createIoCq (tag : Nat)
  | deleteIoSq (tag : Nat)
  | deleteIoCq (tag : Nat)
  | getLogPage (tag : Nat)
  | nvmeIdentify (tag : Nat)
  | abort (tag : Nat)
  | setFeatures (tag : Nat) (data : Word64)
  | setFeaturesInterruptCoalescing (tag : Nat)
  | setFeaturesInterruptVectorConfig (tag : Nat)
  | setFeaturesNumberOfQueues (tag : Nat)
  | setFeaturesFdp (tag : Nat)
  | getFeatures (tag : Nat)
  | asynchronousEventRequest (tag : Nat)
  | namespaceManagementCreate (tag : Nat) (data : NsCreate)
  | namespaceManagementDelete (tag : Nat)
  | namespaceAttach (tag : Nat) (ctrls : List Nat)
  | namespaceDetach (tag : Nat) (ctrls : List Nat)
  | formatNvm (tag : Nat)
  | formatNvmCryptoErase (tag : Nat)
  | firmwareImageDownload (tag : Nat) (last : Bool) (hdr : List Byte) (badBlocks : List Nat)
  | firmwareCommitVerify (tag : Nat) (v : VerifyFacts)
  | firmwareCommitNextStart (tag : Nat) (v : VerifyFacts)
  | firmwareCommitSlot (tag : Nat) (v : VerifyFacts)
  | firmwareCommitLive (tag : Nat) (v : VerifyFacts) (dieFails : Bool)
  | deviceSelfTestShort (tag : Nat)
  | deviceSelfTestExtended (tag : Nat)
  | deviceSelfTestAbort (tag : Nat)
  | nvmeMiBasicManagement
  | writeDataPulled (tag : Reading Nat) (data : List SectorData) (hmeta : List (BitVec 128))
  | rangeLockGrant (tag : Reading Nat)
  | conventionalDrain (ns loaf : Nat)
  | dieDispatch (port die : Nat)
  | accountingWindow
  | trainingAttempt (port : Nat) (shortTx termination : Bool)
  | ts1Received (port : Nat) (ts : Ts)
  | ts2Received (port : Nat) (ts : Ts)
  | skpReceived (port : Nat)
  | eiosReceived (port : Nat)
  | wakeOrderedSetReceived (port : Nat)
  | trainingStepTimeout (port step : Nat)
  | flitCrcDiscard (port : Nat) (hdr : FlitHdr)
  | nopReceived (port : Nat) (hdr : FlitHdr)
  | nakRepeat (port : Nat)
  | berthLinkSilence (port : Nat)
  | retrainTimeout (port : Nat)
  | rspReceived (port : Nat) (rsp : Reading Rsp)
  | rdataReceived (port : Nat) (hdr : FlitHdr) (desc : DataDesc)
  | evtTempWarn (port : Nat) (die : Nat) (value : Evt)
  | evtTempCrit (port : Nat) (die : Nat) (value : Evt)
  | evtTempOk (port : Nat) (die : Nat) (value : Evt)
  | evtPowerWarn (port : Nat) (die : Nat) (value : Evt)
  | evtBridgeError (port : Nat) (die : Nat) (value : Evt)
  | creditInit (port short long : Nat)
  | pwrAck (port : Nat)
  | pwrNak (port : Nat)
  | dockEcho (port : Nat)
  | releaseDone (port : Nat)
  | bridgeResetDone (port : Nat)
  | retrainReq (port : Nat)
  | lmgtRepeat (port : Nat)
  | linkIdleLs (port : Nat)
  | linkIdleLd (port : Nat)
  | berthErrorRate (port : Nat)
  | nandOpTimeout (port otag : Nat) (resetFails : Bool)
  | slotIbi (controller : Nat) (present pwrGood oc : Byte)
  | slotPoll (controller : Nat) (present pwrGood oc : Byte)
  | presenceStable (port : Nat) (present : Bool)
  | slotControllerSilent (controller : Nat)
  | powerGood (port : Nat)
  | powerGoodTimeout (port : Nat)
  | overcurrent (port : Nat)
  | shortDetected (port : Nat) (tx : Bool)
  | rejoinWindowEnd (port : Nat)
  | rebuildRu (ru : Nat) (port : Reading Nat)
  | drainComplete (port : Nat)
  | decodeDone (job : Nat) (outcome : DecodeOutcome)
  | cipherSectorDone (job pair : Nat) (outcome : LaneOutcome) (slicePass : Bool)
  | journalSegmentWrite
  | journalSegmentDurable (seg : Nat)
  | checkpointCycleStart
  | checkpointCycleComplete
  | gcPass (group : Reading Nat)
  | foldScan (ns : Nat) (loaf : Reading Nat)
  | mediaPatrol (port die block pu : Nat) (cw : Reading Nat) (outcome : DecodeOutcome × Bool)
  | dramWriteDrain (ch : Nat)
  | mergeBufferTimeout (ch line : Nat)
  | dramPatrol (ch line word : Nat) (outcome : DramOutcome)
  | refreshWindow
  | granuleCopyDone (granule : Nat) (uncorrectable : List Nat)
  | channelFailure (ch : Nat)
  | trayAlloc (unit inst bytes use link : Nat)
  | trayShare (unit inst size tray rcv : Nat)
  | trayFree (unit inst size tray : Nat)
  | abandon (fn seq : Nat)
  | kanexTimeout (fn : Nat)
  | identify (q : KReq)
  | catalogueGet (q : KReq)
  | policyGet (q : KReq)
  | policySet (q : KReq)
  | tenantCreate (q : KReq)
  | tenantDelete (q : KReq)
  | tenantSet (q : KReq)
  | tenantGet (q : KReq)
  | tenantList (q : KReq)
  | nsShare (q : KReq)
  | nsUnshare (q : KReq)
  | funcFence (q : KReq)
  | nsCreate (q : KReq)
  | nsDelete (q : KReq)
  | nsList (q : KReq)
  | zoneSetRo (q : KReq)
  | keyInfo (q : KReq)
  | keyGenerate (q : KReq)
  | keyImport (q : KReq) (unwraps : Bool) (key : BitVec 256)
  | keyRotate (q : KReq)
  | keyMigrate (q : KReq) (tagFails : List (Nat × Nat))
  | keyRetire (q : KReq)
  | keyCryptoErase (q : KReq)
  | keyLockSet (q : KReq)
  | keyUnlock (q : KReq)
  | keyAgreePub (q : KReq)
  | profileGet (q : KReq)
  | profileSet (q : KReq)
  | powerCapSet (q : KReq)
  | histogramRead (q : KReq)
  | thermalStatus (q : KReq)
  | paceStatus (q : KReq)
  | powerStateSet (q : KReq)
  | breakwaterStatus (q : KReq)
  | breakwaterTest (q : KReq)
  | sensorExclude (q : KReq)
  | logRead (q : KReq)
  | logStatus (q : KReq)
  | logMark (q : KReq)
  | scrubStart (q : KReq)
  | scrubStatus (q : KReq)
  | scrubAbandon (q : KReq)
  | scrubSummary (q : KReq)
  | scrubEnd (result : Nat)
  | patrolSet (q : KReq)
  | rowWidthSet (q : KReq)
  | poisonFwdSet (q : KReq)
  | spareThreshSet (q : KReq)
  | healthDetail (q : KReq)
  | mapProbe (q : KReq)
  | selftestRun (q : KReq)
  | selftestStatus (q : KReq)
  | selftestCatalogue (q : KReq)
  | unitRestore (q : KReq) (pass : Bool)
  | selftestSlice (kind inst : Nat) (free : Bool) (pass : Bool)
  | updBegin (q : KReq) (hdr : List Byte)
  | updBlock (q : KReq) (crcOk : Option (List Bool))
  | updVerify (q : KReq) (v : VerifyFacts)
  | updActivate (q : KReq) (dieFails : Bool) (e : BootEnv)
  | activationHoldExpiry
  | updConfirm (q : KReq)
  | confirmationWindowEnd
  | updStatus (q : KReq)
  | updDiscard (q : KReq)
  | hierStatus (q : KReq)
  | workerAdmit (q : KReq)
  | workerRetire (q : KReq)
  | berthAdopt (q : KReq × Machine.AdoptImage)
  | hierProfileSet (q : KReq)
  | berthStatus (q : KReq)
  | berthPrepare (q : KReq)
  | berthRelease (q : KReq)
  | berthCancel (q : KReq)
  | berthAdmit (q : KReq)
  | berthClearFault (q : KReq)
  | berthTunnel (q : KReq) (returned : List Byte)
  | berthPassport (q : KReq)
  | portEnableSet (q : KReq)
  | rejoinWindowSet (q : KReq)
  | dramStatus (q : KReq)
  | dramVacate (q : KReq)
  | dramCancel (q : KReq)
  | dramRejoin (q : KReq) (f : ChanFind)
  | proofSizeSet (q : KReq)
  | traySplitSet (q : KReq)
  | dramInject (q : KReq)
  | eventInject (q : KReq)
  | sensorOverride (q : KReq)
  | eventOccurrence (src : Nat) (payload : Word64)
  | eventClaim (src : Nat)
  | eoi (core src : Nat)
  | evcSrcCfgWrite (src : Nat) (value : Word)
  | evcGctrlWrite (value : Word)
  | evcRqHeadWrite (value : Word)
  | coreWatchdog (core : Nat) (d : DockEnv)
  | qeVmodWrite (fn v : Nat) (value : Word)
  | qeNdefWrite (fn : Nat) (value : Word)
  | idleTimerP1
  | idleTimerP2
  | wakeSource (code : Nat) (failedBanks lostChannels : List Nat) (berths : List BerthFind)
  | paceSample (paces : List Nat)
  | vcoreAdjust (powerDw : Nat)
  | avsAbsent
  | oscTrim
  | clockLost
  | sensorSample (readings : List (Option Int)) (d : DockEnv)
  | throttleStepTimer
  | breakwaterSample (mV : Nat)
  | breakwaterTestPeriodic
  | breakwaterTestEnd (us v1 : Nat) (cMeasured : Nat)
  | logSegmentTimer
  | bootImageWrite
  | opsecPersist
  | quayLinkTraining (qport position : Nat) (id : QuayIdent) (lanes : Nat) (fast : Bool)
  | quayCmd (handle : QuayHandle) (fn : QuaySender) (entry : SqEntry) (s0 deadline : Nat) (dlv : Bool)
  | quayData (tag : QuayHandle) (off : Nat) (data : List SectorData) (hmeta : List (BitVec 128)) (poisoned : Bool)
  | quayCpl (tag : QuayHandle) (m : QuayCplMsg)
  | quayMgmt (position : Nat) (m : QuayMgmtMsg)
  | quayKey (fn : Option Nat) (index : Nat) (what : QuayKeyWhat)
  | quayTime (us : Nat)
  | quayTimeLockLost (position : Nat)
  | quayLinkSilence (position : Nat)
  | quayLinkLost (position : Nat)
  | quayLaneNarrow (position : Nat) (lanes : Nat)
  | joinComplete (position : Nat)
  | workerUpstreamLoss (d : DockEnv)
  | returnToD0 (fn : Nat)
  | crystalStable
  | quayFlitCrcDiscard (position : Nat)
  | kanexStopTimeout (fn : Nat)
  | retentionRefreshDue (port die block : Nat)
  | i3cDynamicAddressAssign (addr : Nat)
  | jtagInstruction (boundaryScan : Bool) (code : Nat)
  | unknownCommand (q : KReq) (opcode : Nat)
deriving DecidableEq, Repr

end Sys2Proof
end

