-- ==== Sys2Proof/Config.lean ====
section
/-! DEFINITION. What one part fixes at manufacture, the values the spec leaves open (opaque constants: nothing can be
proved of their values), and the numbers the spec fixes for every part. -/

namespace Sys2Proof.Config

/-- R551: the fuses the 64-bit die serial is read from. Log entry 5. -/
opaque dsnFuses : Nat
/-- R551: the 64-bit die serial (DSN), fused at manufacture and never zero. -/
def dsn : BitVec 64 := BitVec.ofNat 64 (dsnFuses % (2 ^ 64 - 1) + 1)
/-- The stream of values the spec leaves open, one for each count of State.free. Log entry 2. -/
opaque free : Nat → Nat
/-- R442: FW_VER, SVN and NBLOCKS of the image a part leaves manufacture with (MODEL: a part constant). Log entry 6. -/
opaque fwVer : Nat
/-- The security version of the image a part leaves manufacture with. Log entry 6. -/
opaque fwSvn : Nat
/-- The other header fields of that image: 0 NBLOCKS, 1 FLAGS, 2 MIN_LIVE, 3 NPARTS, 4 MAN_OFF, 5 SIG_OFF, 6 CLEN. Log entry 6. -/
opaque fwImage (field : Nat) : Nat
/-- R444: the version of each part type that the firmware of manufacture has. Log entry 6. -/
opaque partVer (type : Nat) : Nat
/-- R445: the fused SHA-384 digests of the four signing keys. Log entry 6. -/
opaque signKey (key : Nat) : BitVec 384
/-- R331: the die's ECDH P-384 public key (97 bytes) and its certificate, as one number and a length. Log entry 7. -/
opaque agreePub : Nat
/-- R331: the certificate of the key-agreement key. Log entry 7. -/
opaque agreeCert : List (BitVec 8)

/-- The encoding of a payload field that names a cause, outcome, reason or finding for which the spec gives no encoding
(R478, R550): record code and the model's own number of the cause. Log entry 17. -/
opaque openCode (code cause : Nat) : Nat
/-- R348: the row of a bank that a physical line of DRAM lies in, which the spec leaves open. Log entry 32. -/
opaque dramRow (line : Nat) : Nat
/-- R348: the bank that a physical line of DRAM lies in, which the spec leaves open. Log entry 32. -/
opaque dramBank (line : Nat) : Nat
/-- R348: the tracked row of a full tracker that makes place for another, which the spec leaves open. Log entry 32. -/
opaque trackerVictim (bank row : Nat) : Nat
/-- R348: the activations after which JESD79-5 asks a DIMM for an RFM command, which the spec leaves to it. Log entry 32. -/
opaque rfmEvery (channel : Nat) : Nat
/-- R389: which of the 1,024 groups of handshake channels a unit's channels are, which the spec leaves open. Log entry 91. -/
opaque stallGroup (subsystem instance_ : Nat) : Nat
/-- R348: whether the random source selects a row of the proofing area when a line of it is activated at a time. Log entry 32. -/
opaque rowChosen (time line : Nat) : Bool
/-- R154: the page of the map-page pool that holds a page of 512 loaf entries of a namespace, left open. Log entry 32. -/
opaque mapPage (nsid page : Nat) : Nat
/-- R159: the bucket of a crumb: of the two that its key may sit in, by a hash that the spec leaves open. Log entry 32. -/
opaque crumbBucket (which nsx sect : Nat) : Nat
/-- R166: the CRC-32C of a segment, over bytes whose layout the spec leaves open. Log entry 153. -/
opaque segmentCrc (seq : Nat) : BitVec 32
/-- R416: the CRC-32C of a retained bank at an entry, over a content whose layout the spec leaves open. Log entry 40. -/
opaque bankCrc (entry bank : Nat) : BitVec 32
/-- R161, R416: the bank of the map cache that a line lies in, which the spec leaves open. Log entry 40. -/
opaque cacheBank (crumb : Bool) (nsid line : Nat) : Nat
/-- R177: the scale of the retention interval at a temperature, in thousandths, which the spec leaves open. Log entry 159. -/
opaque retentionScale (celsius : Nat) : Nat
/-- R239: the 448 bytes of LDPC parity behind a code word's information, whose code the spec does not give. Log entry 203. -/
opaque ldpcParity (x : BitVec 33280) : BitVec 3584
/-- R191: bytes 1 to 15 of an EIOS, which the spec leaves open. Log entry 165. -/
opaque eiosByte (i : Nat) : Nat
/-- SP 800-108 KDF over CMAC-AES-256 (R318): the derived key of tenant key, slot, NSID, home DSN and salt. Log entry 4. -/
opaque derivedKey (tenantKey : BitVec 256) (slot nsid : Nat) (homeDsn : BitVec 64) (salt : BitVec 256) : BitVec 256
/-- AES-256 in GCM's counter mode (R316): the 4,112 key-stream bytes of a key and an IV. Log entry 4. -/
opaque keystream (key : BitVec 256) (iv : BitVec 96) : BitVec 32896
/-- The GCM tag (R316) of additional data and ciphertext. Log entry 4. -/
opaque gcmTag (key : BitVec 256) (iv : BitVec 96) (aad : BitVec 160) (cipher : BitVec 32896) : BitVec 128
/-- The GHASH state of a sector after a number of its blocks (R314). Log entry 4. -/
opaque ghashState (key : BitVec 256) (iv : BitVec 96) (aad : BitVec 160) (cipher : BitVec 32896) (blocks : Nat) : BitVec 128

/-- Berth ports (R188). -/
def ports : Nat := 1024
/-- Functions: one PF and 2,047 VFs (R48). -/
def functions : Nat := 2048
/-- Tags per die (R83). -/
def tags : Nat := 65536
/-- I/O tags (R84). -/
def ioTags : Nat := 65280
/-- Entries of the range-lock table (R91). -/
def lockEntries : Nat := 8192
/-- I/O queue pairs of the die-wide pool (R51). -/
def ioPairs : Nat := 63488
/-- Vectors of the die-wide pool (R51). -/
def vectors : Nat := 65536
/-- The 8 s ceiling of a command, µs (R87). -/
def ceilingUs : Nat := 8000000
/-- The open-zone limit of a die (R131). -/
def openLimit : Nat := 16384
/-- The active-zone limit of a die (R131). -/
def activeLimit : Nat := 65536
/-- The statuses of SCT 0x0 for a malformed PRP entry or SGL descriptor (R118). -/
def listStatuses : List Nat := [0x0D, 0x0E, 0x0F, 0x11, 0x13]
/-- One GiB in bytes. -/
def gib : Nat := 1073741824
/-- 256 MiB, the unit of the rescue limit (R432). -/
def limitUnit : Nat := 268435456
/-- Records of the logbook ring (R470). -/
def ringSize : Nat := 16384
/-- Slots of the FATAL reserve (R470). -/
def reserveSize : Nat := 64
/-- The block of SEQ values and of nonce counters reserved at once, 2^20 (R472, R325). -/
def block20 : Nat := 1048576
/-- Records of the event controller's record queue (R395). -/
def recordQueue : Nat := 8192
/-- Reconstructions in flight per die (R255). -/
def maxRecon : Nat := 4096
/-- The journal size at which map-changing commands are held (R168), bytes. -/
def journalHold : Nat := 64 * gib
/-- The journal size at which a checkpoint cycle starts (R168), bytes. -/
def journalCycle : Nat := 32 * gib
/-- The GC reserve of a group, FREE RUs (R174). -/
def gcReserve : Nat := 32

end Sys2Proof.Config
end

