-- ==== Sys2Proof/Machine/State.lean ====
section
/-! DEFINITION. The state of the block as plain data: one record per subsystem of R15, every register, FIFO, buffer,
counter, mode and pin the spec gives the die, the queue of waiting commands, and the state after reset.
A field's note reads [width | file and rule | reset value]. Log entry 1 says what the reset state is. -/

namespace Sys2Proof.Machine

/-- The memory form of the byte-addressed areas (R369): addresses strictly rising, no entry of value zero, and an
unlisted address reads as zero (R388: at start both areas read zero). -/
abbrev Memory := List Host.Cell

/-! ## Lifecycle: straps, starts, stops, ladder (files 00, 18, 19) -/

/-- Where the die stands between power-on and service (R510, R513, R520, R521, R483, R428, R523). -/
inductive Phase where
  | off            -- VAON or VAUX below range
  | inReset        -- COLD_RST_N low, nothing running
  | waitPf         -- a cold start waits at step 1 while PF_N is low (R542)
  | starting       -- between step 1 and step 15
  | ready          -- step 15 reached
  | parked         -- dock-down step 7 done
  | romHold
  | maintHold
  | faultHold
  | thermalHold
deriving DecidableEq, Repr

/-- The class of the newest stop mark (R512). -/
inductive StopMark where
  | none
  | clean (journalSeq : Nat)
  | docked (journalSeq : Nat)
deriving DecidableEq, Repr

/-- The kind of a start (R512). -/
inductive StartKind where
  | clean
  | afterDock
  | unclean
deriving DecidableEq, Repr

/-- One rung of the timeout ladder for one instance (R524). -/
structure Rung where
  /-- [3 bits | 18 R524 | 0] step now taken first: 0 none yet, 1 retry, 2 reset, 3 fence, 4 degrade, 5 fail -/
  step : Nat := 0
  /-- [16 bits | 16 R550 | 0] steps taken since the instance last returned to its first step -/
  earlier : Nat := 0
  /-- [list of 64 bits | 18 R524 | empty] times of the latest uses of the step, within 60 s -/
  uses : List Nat := []
  /-- [64 bits | 18 R524 | 0] time of the last timeout -/
  last : Nat := 0
deriving DecidableEq, Repr

/-- Straps, pins, phase, stop marks and the ladder. -/
structure Life where
  /-- [1 bit | 00 R2 | DESIGN CHOICE VQX-D1024-KM (log entry 1)] fused: the part is the standalone package VQX-D1024-PW -/
  partPW : Bool := false
  /-- [1 bit | 18 R510 | DESIGN CHOICE in range (log entry 1)] VAON and VAUX in range -/
  aonPower : Bool := true
  /-- [1 bit | 18 R508 | DESIGN CHOICE high (log entry 1)] level of COLD_RST_N -/
  coldRstN : Bool := true
  /-- [1 bit | 18 R508 | DESIGN CHOICE 1, manager (log entry 1)] level of the ROLE pin -/
  pinRole : Bool := true
  /-- [4 bits | 18 R508 | DESIGN CHOICE 0 (log entry 1)] level of the QUAY_ID pins -/
  pinQuay : Nat := 0
  /-- [1 bit | 18 R508 | DESIGN CHOICE 0 (log entry 1)] level of the BOOT_SEL pin -/
  pinBootSel : Bool := false
  /-- [1 bit | 18 R509 | DESIGN CHOICE manager (log entry 1)] latched role: true = manager -/
  manager : Bool := true
  /-- [4 bits | 18 R509 | DESIGN CHOICE 0 (log entry 1)] latched QUAY_ID -/
  quayId : Nat := 0
  /-- [1 bit | 18 R509 | DESIGN CHOICE 0 (log entry 1)] latched BOOT_SEL -/
  bootSel : Bool := false
  /-- [enumeration | 18 R513 | DESIGN CHOICE ready (log entry 1)] phase of the die -/
  phase : Phase := .ready
  /-- [5 rails | 18 R511 | DESIGN CHOICE none (log entry 1)] monitored rails out of their window -/
  railsOut : List Rail := []
  /-- [4 bits | 19 R536 | DESIGN CHOICE none (log entry 1)] stopped reference clock inputs -/
  refclkLost : List Nat := []
  /-- [64 bytes | 18 R512 | DESIGN CHOICE none (log entry 1)] newest stop mark in the system area -/
  stopMark : StopMark := .none
  /-- [3 bits | 18 R512 | DESIGN CHOICE 0 (log entry 1)] last step the DOCK_DOWN record in the rescue region shows -/
  dockStep : Nat := 0
  /-- [enumeration | 18 R512 | DESIGN CHOICE clean (log entry 1)] kind of the last start -/
  startKind : StartKind := .clean
  /-- [64 bits | 18 R513 | 0] time the last cold start began -/
  startTime : Nat := 0
  /-- [1 bit | 18 R516 | 0] generation of the rescue region the last start restored from -/
  rescueGen : Bool := false
  /-- [64 bits | 01 R21 | 0] bytes of unsettled content that the last dock-down did not rescue -/
  lostBytes : Nat := 0
  /-- [2 x 16 bits per instance | 18 R524 | first step] the ladder of each (level x 65,536 + instance) -/
  ladder : Tbl Rung := []
  /-- [64 bits | 18 R527 | none] time of the last FAIL step -/
  lastFail : Option Nat := none
  /-- [1 bit | 19 R539 | not asserted] management-sideband alert -/
  alert : Bool := false
  /-- [1 bit | 14 R430 | 0] POWER_OFF flag of the alert status byte -/
  powerOffFlag : Bool := false
  /-- [1 bit | 18 R521 | 0] xSPI pins at high impedance -/
  xspiHiZ : Bool := false
  /-- [7 bits | 19 R539 | none: SMBus at 0x6A] I3C dynamic address of the management sideband -/
  i3cAddr : Option Nat := none
  /-- [instruction | 19 R543 | BYPASS, DESIGN CHOICE (log entry 1)] JTAG instruction: true = boundary scan, false = BYPASS -/
  jtagScan : Bool := false
  /-- [64 bits | 07 R260 | 0] time of the last stop, at which rejoin windows stand still -/
  stopAt : Nat := 0
  /-- [1 bit | 18 R513 | 0] a device restart is owed: after a FAIL, or out of thermal hold -/
  restart : Bool := false
  /-- [flags | 01 R18 | none gated] gated islands: port groups 0-31, UCIe 32-39, channel pairs 40-47, Quay 48-51 -/
  gated : List Nat := []
  /-- [set | 12 R36 | empty] islands or units that cannot wake, fenced or failed -/
  fencedIslands : List Nat := []
deriving DecidableEq, Repr

/-! ## Host link and FERR_LINK (file 02) -/

/-- Link states of the host link (R45). -/
inductive LState where
  | down | l0 | l1 | l2
deriving DecidableEq, Repr

/-- The UCIe link. -/
structure Link where
  /-- [enumeration | 02 R45 | DESIGN CHOICE L0 (log entry 1)] link state -/
  st : LState := .l0
  /-- [8 bits | 02 R39, R56 | DESIGN CHOICE all eight (log entry 1); FERR_LINK itself reads through it] active-module mask -/
  mask : BitVec 8 := 0xFF
  /-- [3 bits | 02 R56 | DESIGN CHOICE 5, 32 GT/s (log entry 1)] rate index -/
  rate : Nat := 5
  /-- [8 bits | 02 R56 | 0] lanes repaired since cold reset -/
  lanesRepaired : Nat := 0
  /-- [8 bits | 02 R42 | 0] modules degraded out -/
  degraded : BitVec 8 := 0
  /-- [32 bits | 02 R67 | 0] flit CRC errors in the current second -/
  crcInSecond : Nat := 0
  /-- [64 bits | 02 R67 | 0] the second that the count belongs to -/
  crcSecond : Nat := 0
  /-- [list | 02 R42 | empty] times of training failures, module and time -/
  failTimes : List (Nat × Nat) := []
  /-- [1 bit | 02 R37 | DESIGN CHOICE latency-optimised (log entry 143)] flit format the last training chose: true = latency-optimised -/
  latOpt : Bool := true
  /-- [1 bit | 02 R48 | 0] VF Enable -/
  vfEnable : Bool := false
  /-- [11 bits | 02 R48 | 0] NumVFs -/
  numVfs : Nat := 0
deriving DecidableEq, Repr

/-! ## Functions: NVMe controller, FERR, notification, mailbox (files 02, 03, 12, 13) -/

/-- A submission queue (R68 to R71). head, tail: entries fetched and rung, modulo size. -/
structure Sq where
  /-- [17 bits | 03 R70 | 0 = not created] entries -/
  size : Nat := 0
  /-- [16 bits | 03 R68 | 0] head -/
  head : Nat := 0
  /-- [16 bits | 03 R69 | 0] tail as last rung -/
  tail : Nat := 0
  /-- [16 bits | 03 R70 | 0] completion queue bound to it -/
  cq : Nat := 0
  /-- [list | 00 R9, 03 R116 | empty] the entries rung and not yet fetched, by the doorbell write that rang them, oldest first: how
  many, and the time of the write -/
  rungs : List (Nat × Nat) := []
  /-- [1 bit | 03 R107 | 0] deletion under way -/
  deleting : Bool := false
deriving DecidableEq, Repr

/-- A completion queue (R73). -/
structure Cq where
  /-- [17 bits | 03 R70 | 0 = not created] entries -/
  size : Nat := 0
  /-- [16 bits | 03 R73 | 0] next slot to be written -/
  tail : Nat := 0
  /-- [16 bits | 03 R73 | 0] head as last rung by the host -/
  head : Nat := 0
  /-- [1 bit | 03 R81 | 1] phase tag of the next entry -/
  phase : Bool := true
  /-- [11 bits | 13 R401 | 0] vector -/
  vector : Nat := 0
  /-- [1 bit | 13 R401 | 0] interrupts enabled -/
  ien : Bool := false
deriving DecidableEq, Repr

/-- A vector: MSI-X table entry, PBA bit and moderation (R399 to R404). -/
structure Vec where
  /-- [64 bits | 13 R403 | 0, PCIe reset] message address -/
  addr : Nat := 0
  /-- [32 bits | 13 R403 | 0, PCIe reset] message data -/
  data : Nat := 0
  /-- [1 bit | 13 R403 | PRESUMED 1 (PCIe, log entry 8)] Mask bit -/
  mask : Bool := true
  /-- [1 bit | 13 R403 | 0] PBA bit -/
  pba : Bool := false
  /-- [32 bits | 13 R400 | 0x0000_0000] QE_VMOD -/
  vmod : Word := 0
  /-- [8 bits, saturating | 13 R399 | 0] entries counted since the last message -/
  count : Nat := 0
  /-- [64 bits | 13 R401 | stopped] time at which the timer falls due -/
  due : Option Nat := none
deriving DecidableEq, Repr

/-- A Kanex response (R373, R374). -/
structure KResp where
  opcode : Nat
  seq : Nat
  status : Nat
  synth : Bool
  more : Bool
  detail : Nat
  total : Nat
  elapsed : Nat
  payload : List Byte
deriving DecidableEq, Repr

/-- States of MBX_STATUS (R366) other than UNAVAILABLE, which the function state gives (R368). -/
inductive MbxState where
  | idle | running | done
deriving DecidableEq, Repr

/-- A mailbox (R366 to R374). -/
structure Mbx where
  /-- [32 bits | 12 R366 | 0x0000_0000] MBX_CTRL -/
  ctrl : Word := 0
  /-- [2 bits | 12 R366 | 0b00] MBX_STATUS.STATE -/
  st : MbxState := .idle
  /-- [16 bits | 12 R366 | 0x0000] MBX_STATUS.SEQ -/
  seq : Nat := 0
  /-- [3 bits | 12 R366 | 0] MBX_EVENT -/
  event : BitVec 3 := 0
  /-- [32 bits | 12 R366 | 0] MBX_PROGRESS -/
  progress : Nat := 0
  /-- [32 bits | 12 R366 | 0] MBX_PROGTOTAL -/
  progTotal : Nat := 0
  /-- [64 bits | 12 R366 | 0] time of acceptance, from which MBX_ELAPSED is counted -/
  accepted : Nat := 0
  /-- [16 bits | 12 R369 | 0] opcode of the running or last command -/
  opcode : Nat := 0
  /-- [64 bits | 12 R379 | 0] time of acceptance or of the last progress -/
  classFrom : Nat := 0
  /-- [5 bits | 12 R379 | 0] harbour core that holds the running command, a free value -/
  core : Nat := 0
  /-- [1 bit | 12 R381 | 0] a timed-out command is still stopping -/
  stopping : Bool := false
  /-- [request | 12 R370 | none] the running command, as copied -/
  cmd : Option KReq := none
  /-- [1 bit | 12 R388 | 0] the running command waits: for the end of an activation hold, or for commands in flight (04 R153) -/
  held : Bool := false
  /-- [17 entries | 12 R376 | empty] of a command for every present die: ANA group and its status once it has answered -/
  answers : List (Nat × Option Nat) := []
  /-- [4,064 bytes | 10 R323 | empty] of a hierarchy-wide command that waits for the workers: the payload of its response -/
  kept : List Byte := []
  /-- [64 bits | 12 R367 | none] time MBX_EVENT.PROGRESS was last set -/
  progAt : Option Nat := none
  /-- [8 bits | 12 R367 | 0] PCT as PROGRESS last told it, 0 before it first did -/
  progPct : Nat := 0
  /-- [4 KiB | 12 R373 | zero] response area -/
  resp : Option KResp := none
  /-- [4 KiB | 12 R369 | zero] request area -/
  req : Memory := []
deriving DecidableEq, Repr

/-- Function states (R307). -/
inductive FState where
  | off | enabling | ready | teardown | fenced
deriving DecidableEq, Repr

/-- An asynchronous event held or posted (R549): type, information, log page. -/
structure Aen where
  etype : Nat
  info : Nat
  page : Nat
deriving DecidableEq, Repr

/-- One Error Information log entry (R63, R120, R122). -/
structure ErrEntry where
  sqid : Nat
  cid : Nat
  sct : Nat
  sc : Nat
  lba : Nat
  nsid : Nat
deriving DecidableEq, Repr

/-- What AER records of a function (R47, R67): a memory read of a command's data or list that failed with a PCIe completion status
(uncorrectable, non-fatal), or a poisoned TLP in write data (Poisoned TLP Received, advisory). -/
inductive AerError where
  | readFailed (status : Nat)
  | poisonedTlp
deriving DecidableEq, Repr

/-- The AER capability of a function (R47). -/
structure Aer where
  /-- [set | 02 R67 | none] uncorrectable non-fatal errors recorded -/
  uncorrectable : List AerError := []
  /-- [set | 02 R67 | none] advisory errors recorded -/
  advisory : List AerError := []
  /-- [error | 02 R47 | none] first-error pointer -/
  first : Option AerError := none
  /-- [128 bits | 02 R47 | 0] header log: the header of the TLP of the first error, a free value (log entry 144) -/
  header : Nat := 0
deriving DecidableEq, Repr

/-- A function: PCIe and NVMe controller state. -/
structure Func where
  /-- [32 bits | 02 R59 | 0] CC -/
  cc : Word := 0
  /-- [1 bit | 09 R307 | 0] CSTS.RDY -/
  rdy : Bool := false
  /-- [1 bit | 09 R308 | 0] CSTS.CFS -/
  cfs : Bool := false
  /-- [2 bits | 03 R106 | 0b00] CSTS.SHST -/
  shst : BitVec 2 := 0
  /-- [1 bit | 15 R459 | 0] CSTS.PP -/
  pp : Bool := false
  /-- [3 bits | 09 R307 | OFF] function state -/
  st : FState := .off
  /-- [1 bit | 09 R307 | 0] re-enable remembered in teardown -/
  reenable : Bool := false
  /-- [64 bits | 09 R307 | 0] time at which the teardown or the initialisation began -/
  since : Nat := 0
  /-- [1 bit | 02 R55 | D0] in D3hot -/
  d3 : Bool := false
  /-- [1 bit | 02 R55 | 0] entered D3hot with CSTS.RDY = 1 -/
  d3Rdy : Bool := false
  /-- [32 bits | 02 R49 | 0] AQA -/
  aqa : Word := 0
  /-- [64 bits | 02 R49 | 0] ASQ -/
  asq : Word64 := 0
  /-- [64 bits | 02 R49 | 0] ACQ -/
  acq : Word64 := 0
  /-- [1 bit | 02 R52 | PRESUMED 1 (PCIe, log entry 8)] Enable Relaxed Ordering -/
  relaxed : Bool := true
  /-- [AER | 02 R47 | as Aer] Advanced Error Reporting -/
  aer : Aer := {}
  /-- [32 bits | 02 R56 | 0x0000_0000] FERR -/
  ferr : Word := 0
  /-- [32 bits | 02 R56 | 0x0000_0000] FERR_MASK -/
  ferrMask : Word := 0
  /-- [64 bits | 02 R56 | 0] FERR_ADDR -/
  ferrAddr : Nat := 0
  /-- [1 bit | 13 R404 | 0] MSI-X Enable -/
  msixEn : Bool := false
  /-- [1 bit | 13 R403 | 0] MSI-X Function Mask -/
  funcMask : Bool := false
  /-- [32 bits | 13 R399 | 0x0000_0001] QE_NDEF -/
  ndef : Word := 1
  /-- [32 bits | 13 R399 | 0] QE_NSWEEP -/
  nsweep : Nat := 0
  /-- [per vector | 13 R399 | as Vec] vectors -/
  vecs : Tbl Vec := []
  /-- [per queue | 03 R68 | none created] submission queues -/
  sqs : Tbl Sq := []
  /-- [per queue | 03 R68 | none created] completion queues -/
  cqs : Tbl Cq := []
  /-- [1 bit | 03 R106 | 0] fetching stopped by a shutdown -/
  fetchStopped : Bool := false
  /-- [per FID | 02 R62 | DESIGN CHOICE 0 (log entry 9)] stored feature values -/
  feats : Tbl Nat := []
  /-- [256 entries | 02 R63 | empty] Error Information log, newest first -/
  errLog : List ErrEntry := []
  /-- [16 tags | 02 R64 | empty] outstanding Asynchronous Event Requests, oldest first -/
  aers : List Nat := []
  /-- [list | 05 R549 | empty] events held for want of a request, oldest first -/
  held : List Aen := []
  /-- [list | 05 R549 | empty] events posted and not yet cleared by a log read -/
  unread : List Aen := []
  /-- [list | 02 R63 | empty] Changed Namespace List -/
  changedNs : List Nat := []
  /-- [list | 04 R145 | empty] Changed Zone List: namespace and zone -/
  changedZones : List (Nat × Nat) := []
  /-- [1 bit | 07 R270 | 0] poison forwarding -/
  poisonFwd : Bool := false
  /-- [64 bits | 16 R486 | none run] last NVMe self-test: result, segment and instance -/
  dstLog : Option (Nat × Nat × Nat) := none
  /-- [mailbox | 12 R366 | as Mbx] Kanex mailbox -/
  mbx : Mbx := {}
deriving DecidableEq, Repr

/-! ## Tenants (file 09) -/

/-- The values of a tenant record in force since the last accounting window (R303). -/
structure InForce where
  cls : Nat := 2
  share : Nat := 16
  resmin : Nat := 0
  rd : Nat := 0
  wr : Nat := 0
  kiops : Nat := 0
  burst : Nat := 4
deriving DecidableEq, Repr

/-- A tenant record (R295) with its budget credits (R302). -/
structure Tenant where
  /-- [1 bit | 09 R293 | tenant 0 exists, others not] the tenant exists -/
  alive : Bool := false
  /-- [8 bits | 09 R295 | 2] CLASS -/
  cls : Nat := 2
  /-- [16 bits | 09 R295 | 16] SHARE -/
  share : Nat := 16
  /-- [16 bits | 09 R295 | 0] RESMIN -/
  resmin : Nat := 0
  /-- [64 bits | 09 R295 | 0] CAP_QUOTA, for tenant 0 valid once the owner set it -/
  quota : Nat := 0
  /-- [1 bit | 09 R295 | 0] the owner has set tenant 0's CAP_QUOTA -/
  quotaSet : Bool := false
  /-- [32 bits | 09 R295 | 0] RD_MBPS -/
  rd : Nat := 0
  /-- [32 bits | 09 R295 | 0] WR_MBPS -/
  wr : Nat := 0
  /-- [32 bits | 09 R295 | 0] KIOPS -/
  kiops : Nat := 0
  /-- [8 bits | 09 R295 | 4] BURST -/
  burst : Nat := 4
  /-- [16 bits | 09 R295 | 65,280] TAG_CEIL -/
  tagCeil : Nat := 65280
  /-- [32 bits | 09 R295 | 31] QPAIRS -/
  qpairs : Nat := 31
  /-- [16 bits | 09 R295 | 32] VECTORS -/
  vectors : Nat := 32
  /-- [16 bits | 09 R295 | 0] W_LAST -/
  wLast : Nat := 0
  /-- [32 bits | 09 R295 | 0] HELD -/
  held : Nat := 0
  /-- [signed | 09 R302 | 0 while no budget] read credit, bytes -/
  crRd : Int := 0
  /-- [signed | 09 R302 | 0 while no budget] write credit, bytes -/
  crWr : Int := 0
  /-- [signed | 09 R302 | 0 while no budget] command credit -/
  crCmd : Int := 0
  /-- [values | 09 R303 | as the record] CLASS, SHARE, RESMIN, budgets and BURST in force since the last window -/
  force : InForce := {}
  /-- [1 bit | 09 R300 | 0] active in the current window -/
  active : Bool := false
  /-- [1 bit | 09 R300 | 0] an entry fetched, a command in flight or an SQ tail ahead of its head in this window -/
  touched : Bool := false
  /-- [256 bits | 10 R324 | none] the lock's secret, held in the key store -/
  lock : Option (List Byte) := none
  /-- [4 bits | 10 R324 | 0] wrong secrets in this power cycle -/
  wrongUnlocks : Nat := 0
deriving DecidableEq, Repr

/-! ## Queue engine and scheduler (files 03, 08) -/

/-- States of a tag (R85). -/
inductive TagState where
  | free | bound | admitted | media | pull | staged | ret | committed | posting
deriving DecidableEq, Repr

/-- The tide stamp (R276). -/
structure Stamp where
  tenant : Nat := 0
  cls : Nat := 0
  kind : Nat := 0
  s0 : Nat := 0
  deadline : Nat := 0
  dlv : Bool := false
  cost0 : Nat := 0
deriving DecidableEq, Repr

/-- How far one sector of a read has come (R22): its array read is awaited, its code word has arrived for decoding, its row's
sources are awaited for reconstruction, it is decoded and waits for a lane pair, or it is done and waits for the end of an activation
hold: good, or failed by integrity (true) or beyond recovery (false). -/
inductive SecState where
  | wait | arrived | reconWait | recon | cipher
  | ended (bad : Option Bool)
deriving DecidableEq, Repr

/-- A command under a tag (R83 to R87). -/
structure Tag where
  /-- [4 bits | 03 R85 | FREE] state -/
  st : TagState := .free
  /-- [8 bits | 03 R83 | DESIGN CHOICE 0 (log entry 1)] generation -/
  gen : BitVec 8 := 0
  /-- [11 bits | 03 R83 | 0] function -/
  fn : Nat := 0
  /-- [16 bits | 03 R81 | 0] submission queue -/
  sq : Nat := 0
  /-- [64 bytes | 03 R75 | none] the entry as fetched -/
  entry : Option SqEntry := none
  /-- [64 bits | 03 R87 | 0] time of fetch -/
  fetched : Nat := 0
  /-- [64 bits | 00 R9 | 0] doorbell time -/
  rung : Nat := 0
  /-- [64 bits | 03 R88 | 0] order of tag allocation -/
  order : Nat := 0
  /-- [tide stamp | 08 R276 | zero] stamp -/
  stamp : Stamp := {}
  /-- [11 bits | 03 R81 | 0x0/0x00] status type and code, fixed in POSTING -/
  sct : Nat := 0
  /-- [8 bits | 03 R81 | 0] status code -/
  sc : Nat := 0
  /-- [32 bits | 03 R81 | 0] DW0 -/
  dw0 : Word := 0
  /-- [32 bits | 03 R81 | 0] DW1 where it is not the service report -/
  dw1 : Word := 0
  /-- [6 bits | 03 R82 | 0] service report bits RCN, SUSP, LCC, WT, HLD, SOFT -/
  report : BitVec 6 := 0
  /-- [16 bits | 03 R85 | 0] pieces of work outstanding -/
  work : Nat := 0
  /-- [list | 03 R120 | empty] sectors that failed: internal sector and whether by integrity -/
  bad : List (Nat × Bool) := []
  /-- [64 bits | 04 R138 | 0] first LBA the write was checked at or assigned -/
  wlba : Nat := 0
  /-- [1 bit | 04 R135 | 0] its zone gate is open -/
  gateOpen : Bool := false
  /-- [list of ranges | 03 R90 | empty] lock ranges requested and not granted, in LBAs -/
  ranges : List (Nat × Nat) := []
  /-- [1 bit | 04 R135 | 0] it waits for an earlier zone action or format and is checked against the state that leaves -/
  gated : Bool := false
  /-- [256 sectors | 01 R25 | empty] staged sectors: internal sector and proofing address -/
  staged : List (Nat × Nat) := []
  /-- [1 bit | 17 R494 | 0] forwarded to a worker -/
  forwarded : Bool := false
  /-- [handle | 03 R101 | none] of an Abort whose target runs on a worker: the handle it acts on, until the worker has answered -/
  target : Option (Nat × BitVec 8) := none
  /-- [list | 11 R359 | empty] trays taken: size and tray -/
  trays : List (Nat × Nat) := []
  /-- [tuple | 04 R132 | none] zone it opened and the state the zone left, to which it returns if nothing is applied -/
  opened : Option (Nat × Nat) := none
  /-- [64 bits | 03 R82 | 0] first failing LBA for the Error Information log -/
  errLba : Nat := 0
  /-- [64 bits | 14 R434 | 0] in write-through: 1 more than the segment before which all journal must be durable -/
  waitDurable : Nat := 0
deriving DecidableEq, Repr

/-- An entry of the range-lock table (R90, R91): the tag that holds it, namespace, first LBA and count. -/
structure LockEntry where
  tag : Nat
  ns : Nat
  first : Nat
  count : Nat
deriving DecidableEq, Repr

/-- The queue engines. -/
structure Qe where
  /-- [65,536 tags | 03 R83 | all FREE] tags -/
  tags : Tbl Tag := []
  /-- [8,192 entries | 03 R91 | empty] the range-lock table -/
  locks : List LockEntry := []
  /-- [64 bits | 03 R91 | 0] tag allocations so far -/
  order : Nat := 0
  /-- [32 bits | 03 R83 | 0] stale reports discarded -/
  stale : Nat := 0
  /-- [1 bit | 03 R112 | 0] activation hold in force -/
  hold : Bool := false
  /-- [1 bit | 01 R21 | 0] writes held by the rescue limit -/
  writeHold : Bool := false
  /-- [1 bit | 01 R28 | 0] fetching stopped by dock-down -/
  stopped : Bool := false
  /-- [16 bits per function | 03 R71 | 0] submission queue last served, of each function -/
  rr : Tbl Nat := []
  /-- [11 bits, 16 bits, 2 bits | 03 R71 | none] the turn under way: function, submission queue, entries taken -/
  turn : Nat × Nat × Nat := (0, 0, 0)
deriving DecidableEq, Repr

/-- What an operation at a die is for. -/
inductive OpFor where
  | readSec (jobs : List (Nat × Nat))
  | recon (job : Nat) (pos : Nat)
  | shipLoaf (row : Nat) (pos slot : Nat)
  | shipPar (row : Nat) (pos slot : Nat)
  | fill (row : Nat) (pos slot : Nat)
  | progPu (row : Nat) (pos : Nat)
  | erase (ru : Nat) (member : Nat)
  | rebLoad (ru : Nat) (pos slot : Nat)
  | rebProg (ru : Nat) (pos : Nat)
  | erasePart
  | passport
  | label (copy : Nat)
  | control
  | tunnel (bytes : List Byte)
deriving DecidableEq, Repr

/-- An operation queued for, or outstanding at, a die (R211 to R213, R278). -/
structure DieOp where
  port : Nat
  die : Nat
  op : Nat
  block : Nat := 0
  pu : Nat := 0
  level : Nat := 0
  plane : Nat := 0
  mp : Bool := false
  slc : Bool := false
  cwmask : Nat := 0
  tenant : Nat := 0
  cls : Nat := 3
  s0 : Nat := 0
  deadline : Nat := 0
  dlv : Bool := false
  system : Bool := false
  parity : Bool := false
  urgent : Bool := false
  cost : Nat := 0
  what : OpFor := .control
  offset : Nat := 0
  xlen : Nat := 0
  param : Nat := 0
  otag : Nat := 0
  issued : Nat := 0
deriving DecidableEq, Repr

/-- A WDATA flit that has a place in the order of its direction (R198, R214, R215): its descriptor, and its payload as the tray holds it
until the flit is acknowledged (R203). -/
structure WFlit where
  otag : Nat
  die : Nat
  plane : Nat
  level : Nat
  cw : Nat
  offset : Nat
  last : Bool
  vlen : Nat
  payload : BitVec 4096
deriving DecidableEq, Repr

/-- A sequenced flit that the port sends (R200). -/
inductive TxWhat where
  | cmd (op : DieOp)
  | wdata (w : WFlit)
deriving DecidableEq, Repr

/-- A sequenced flit sent and not acknowledged, with the times it has been replayed (R203). -/
structure TxFlit where
  seq : Nat
  replays : Nat := 0
  what : TxWhat
deriving DecidableEq, Repr

/-- The scheduling state of a NAND die behind a berth (R278, R283, R284, R232). -/
structure DieSch where
  /-- [64 bits | 08 R278 | 0] virtual time V -/
  v : Nat := 0
  /-- [64 bits per tenant | 08 R278 | 0] finish tags F -/
  f : Tbl Nat := []
  /-- [operation | 08 R283 | idle] program or erase running -/
  running : Option DieOp := none
  /-- [1 bit | 06 R219 | 0] suspended -/
  suspended : Bool := false
  /-- [8 bits | 08 R283 | 0] suspends used by the running operation -/
  suspends : Nat := 0
  /-- [µs | 08 R283 | 0] suspended time of the running operation -/
  suspTime : Nat := 0
  /-- [64 bits | 08 R284 | 0] time the die was suspended -/
  suspAt : Nat := 0
  /-- [8 bits | 08 R284 | 0] reads served in this suspension -/
  readsInSusp : Nat := 0
  /-- [2 limits | 08 R288 | 0] reads per suspension and suspended time, in force when the suspension began -/
  limits : Nat × Nat := (0, 0)
  /-- [64 bits | 08 R283 | 0] time from which the running operation's elapsed time counts, suspended time left out -/
  began : Nat := 0
  /-- [µs | 08 R273 | 0] cost of the running erase charged so far -/
  sliced : Nat := 0
  /-- [µs | 08 R289 | 0] die time of programs, erases and internal work that the throttle factor has still to make room for -/
  throttled : Nat := 0
  /-- [2 bits | 06 R232 | 0] die ladder step -/
  ladder : Nat := 0
  /-- [16 bits | 06 R232 | none] OTAG of the operation that step 1 polls for -/
  polled : Option Nat := none
  /-- [64 bits | 06 R232 | 0] time of the last reset -/
  resetAt : Nat := 0
  /-- [4 bits | 06 R220 | 0] offset set in force -/
  offsetSet : Nat := 0
  /-- [1 bit | 06 R221 | 0] a tunnel runs, or its reset is awaited -/
  tunnel : Bool := false
  /-- [8 bits | 06 R221 | none] status of a tunnel whose RSP has come and that is not yet answered -/
  tunnelRsp : Option Nat := none
deriving DecidableEq, Repr

/-- A latency histogram (R290, R291). -/
structure Hist where
  since : Nat := 0
  samples : Nat := 0
  sum : Nat := 0
  max : Nat := 0
  missed : Nat := 0
  suspends : Nat := 0
  recons : Nat := 0
  held : Nat := 0
  bins : Tbl Nat := []
deriving DecidableEq, Repr

/-- The scheduler. -/
structure Sch where
  /-- [64 bits | 08 R277 | 0] intake virtual time V0 -/
  v0 : Nat := 0
  /-- [64 bits per tenant | 08 R277 | 0] intake finish tags F0 -/
  f0 : Tbl Nat := []
  /-- [16 bits per tenant | 08 R275 | 0: inactive, SHARE applies] weights of the window -/
  w : Tbl Nat := []
  /-- [16 bits per tenant | 17 R496 | none] on a worker, the weights it applies from the next window -/
  wNext : Option (Tbl Nat) := none
  /-- [2 bits | 08 R287 | 1, BULK] profile in force: 0 TIGHT, 1 BULK, 2 LONG, 3 LEAN -/
  profile : Nat := 1
  /-- [2 bits | 08 R288 | 1] profile from the next window -/
  profileNext : Nat := 1
  /-- [8 bits | 08 R287 | 120] LEAN power cap, W -/
  leanCap : Nat := 120
  /-- [20 bits | 08 R289 | 400,000] admission limit of the window -/
  limit : Nat := 400000
  /-- [20 bits | 08 R289 | 0] commands admitted in the window -/
  admitted : Nat := 0
  /-- [64 bits | 08 R300 | 0] windows begun -/
  window : Nat := 0
  /-- [list | 08 R278 | empty] operations queued for dies -/
  queued : List DieOp := []
  /-- [per die | 08 R278 | idle] dies, port x 16 + die -/
  dies : Tbl DieSch := []
  /-- [32 bits per group | 08 R285 | 0] host reads admitted per group, previous window -/
  readsPrev : Tbl Nat := []
  /-- [32 bits per group | 08 R285 | 0] host reads admitted per group, this window -/
  readsNow : Tbl Nat := []
  /-- [32 bits per group | 08 R285 | 0] reconstruct-reads of the window -/
  t4Now : Tbl Nat := []
  /-- [16 bits per internal tenant | 08 R275 | 0] weights of the internal tenants (2,048 + g RECLAIM, 2,056 REBUILD, 2,057 PATROL, 2,058 CHECKPOINT) -/
  wInt : Tbl Nat := []
  /-- [sectors per window per group | 08 R286 | none] what is left of the limit on host writes below GC urgent -/
  gcLimit : Tbl (Option Nat) := []
  /-- [histograms | 08 R290 | empty] (function x 4 + kind) x 4 + class -/
  hists : Tbl Hist := []
  /-- [48 bits | 08 R291 | 0] operating seconds when the histograms that hold no entry were last cleared -/
  histFrom : Nat := 0
deriving DecidableEq, Repr

/-! ## Namespaces, zones, map (files 04, 05) -/

/-- Namespace kinds (R123). -/
inductive NsKind where
  | zoned | conventional | forerunner
deriving DecidableEq, Repr

/-- A namespace (R123 to R153). -/
structure Ns where
  /-- [1 bit | 04 R124 | 0] the namespace exists -/
  alive : Bool := false
  /-- [12 bits | 04 R124 | 0] owning tenant -/
  owner : Nat := 0
  /-- [enumeration | 04 R123 | conventional] kind -/
  kind : NsKind := .conventional
  /-- [2 bits | 04 R127 | 0] LBA format -/
  lbaf : Nat := 0
  /-- [64 bits | 04 R126 | 0] NSZE = NCAP -/
  nsze : Nat := 0
  /-- [1 bit | 04 R125 | 0] STRICT -/
  strict : Bool := false
  /-- [1 bit | 04 R125 | 0] RBWP -/
  rbwp : Bool := false
  /-- [8 bits | 04 R125 | 30] ZSZL -/
  zszl : Nat := 30
  /-- [16 bits | 04 R125 | 64] ZOPEN -/
  zopen : Nat := 64
  /-- [32 bits | 04 R125 | 256] ZACTIVE -/
  zactive : Nat := 256
  /-- [8 bits | 04 R125 | 1] HCOUNT -/
  hcount : Nat := 1
  /-- [8 bits | 04 R128 | 1] home ANA group -/
  home : Nat := 1
  /-- [8 bits | 04 R125 | all groups] RGSET -/
  rgset : BitVec 8 := 0xFF
  /-- [16 bytes | 04 R125 | handle 0] RUHMAP -/
  ruhmap : List Nat := []
  /-- [list | 04 R152 | empty] placement handle list of an FDP-enabled namespace -/
  phndls : List Nat := []
  /-- [set | 04 R124 | empty] functions it is attached to -/
  attached : List Nat := []
  /-- [256 bits | 10 R318 | drawn at creation] namespace salt -/
  salt : BitVec 256 := 0
  /-- [3 berths | 10 R328 | none] berths that hold the copies of its salt item -/
  saltOn : List Nat := []
  /-- [64 bits | 10 R502 | own DSN] DSN of the home die at creation -/
  homeDsn : BitVec 64 := 0
  /-- [64 bits per loaf | 05 R155 | UNMAPPED] loaf entries -/
  map : Tbl LoafEntry := []
  /-- [128 bits per crumb | 05 R157 | FREE] crumb entries by sector -/
  crumbs : Tbl Crumb := []
  /-- [16 bits per loaf | 05 R157 | none] PMASK records -/
  pmask : Tbl (BitVec 16) := []
  /-- [per zone | 04 R130 | ZSE] zones -/
  zones : Tbl Zone := []
  /-- [64 bits per loaf | 05 R163 | none] time of the fold scanner's last visit -/
  foldAt : Tbl Nat := []
  /-- [per handle | 04 R150 | 0] rotation over groups -/
  rotation : Tbl Nat := []
  /-- [per loaf | 04 R149, R152 | handle 0, rotation] reclaim unit handle and DSPEC group of the write that made a staged loaf -/
  dest : Tbl (Nat × Option Nat) := []
  /-- [8 bits per sector | 10 R315 | 0] next write generation -/
  wgen : BitVec 8 := 0
  /-- [1 bit | 04 R153 | 0] a delete waits for the commands in flight -/
  busy : Bool := false
  /-- [64 bits | 04 R126 | 0] sectors allocated on a worker that is its home, as the worker last reported -/
  usedAway : Nat := 0
  /-- [64 bits | 10 R329 | none] tag allocations made when a tenant's crypto-erase that holds its commands was accepted -/
  hold : Option Nat := none
deriving DecidableEq, Repr

/-- What a journal record says (R165). -/
inductive JWhat where
  | mapChange (ns loaf : Nat)
  | range (ns first count : Nat)
  | poison (ns sect : Nat)
  | pendingErase (ru : Nat)
  | erased (ru : Nat)
  | nonce (slot block : Nat)
  | rowClose (ru row written missing : Nat)
  | ruSubst (ru pos : Nat)
  | rejoin (port : Nat)
deriving DecidableEq, Repr

/-- What stood before a map change whose record is not durable yet (R169): a loaf's entry, crumbs and poison record, a zone, or the
format of a namespace. A start whose replay does not reach the record finds it again. -/
inductive Undo where
  | loaf (ns l : Nat) (was : LoafEntry) (crumbs : Tbl Crumb) (mask : BitVec 16)
  | zone (ns z : Nat) (was : Zone)
  | form (ns lbaf nsze : Nat)
deriving DecidableEq, Repr

/-- One record of the journal, or a record group (R165, R167): what its records say, what stood before, the loaf slots whose program
made it, and the time. -/
structure JRec where
  what : List JWhat
  undo : List Undo := []
  placed : List Nat := []
  time : Nat := 0
deriving DecidableEq, Repr

/-- A segment of the journal written to the system area (R166): sequence number, records, CRC-32C, berths. -/
structure Segment where
  seq : Nat
  recs : List JRec
  crc : BitVec 32
  berths : List Nat
deriving DecidableEq, Repr

/-- The translation engine's journal and checkpoints. -/
structure Te where
  /-- [5 MiB | 05 R165 | empty] records in the journal buffer, oldest first -/
  buf : List JRec := []
  /-- [64 bits | 05 R166 | 0] time of the first record in the buffer -/
  bufAt : Nat := 0
  /-- [64 bits | 05 R166 | 0] sequence of the next segment -/
  seg : Nat := 0
  /-- [segments | 05 R166 | empty] segments written, not durable -/
  writing : List Segment := []
  /-- [64 bits | 05 R168 | 0] bytes of journal retained -/
  retained : Nat := 0
  /-- [64 bits | 05 R168 | 0] bytes of journal since the last completed cycle -/
  since : Nat := 0
  /-- [64 bits | 05 R168 | 0] bytes of journal since the start of the running cycle -/
  sinceStart : Nat := 0
  /-- [1 bit | 05 R168 | 0] checkpoint cycle running -/
  ckpt : Bool := false
  /-- [64 bits | 05 R168 | 0] time the last cycle ended -/
  ckptEnd : Nat := 0
  /-- [set | 05 R168 | empty] map pages changed since the start of the last cycle: namespace and page; and crumb buckets: 0 and the bucket -/
  dirty : List (Nat × Nat) := []
  /-- [set | 05 R168 | empty] map pages and crumb buckets that the running cycle writes, and the berths it writes each on -/
  cycle : List ((Nat × Nat) × List Nat) := []
  /-- [per page | 05 R168 | none] berths that hold the copies of a map page, page x 16,384 + NSX -/
  copies : Tbl (List Nat) := []
  /-- [1 bit | 05 R168 | 0] map-changing commands held -/
  held : Bool := false
  /-- [1,048,576 lines | 05 R161 | empty] the map cache in the order that the clock's hand meets its lines: of a line whether it holds
  crumbs, the namespace, its number (8 loaf entries, or a bucket), and its reference bit -/
  cache : List ((Bool × Nat × Nat) × Bool) := []
  /-- [1 bit | 11 R356 | 0] map-changing commands held for want of granules -/
  heldDram : Bool := false
  /-- [64 bits | 05 R165 | 0] journal records made -/
  made : Nat := 0
  /-- [64 bits | 05 R166 | 0] journal records durable -/
  durable : Nat := 0
  /-- [64 bits | 07 R260 | 0] time that the last segment became durable -/
  durableAt : Nat := 0
  /-- [32 bits | 05 R163 | 0] loaves folded -/
  folds : Nat := 0
  /-- [1 bit | 05 R163 | 0] crumbs have passed 90 % of their limit and have not fallen below 80 % -/
  foldUrgent : Bool := false
  /-- [proofing area | 01 R19 | empty] sectors by proofing address in 256-byte units -/
  proof : Tbl Sector := []
  /-- [64 bits | 01 R21 | 0] next proofing address -/
  proofNext : Nat := 0
  /-- [1 bit | 04 R136 | 0] unsettled content has reached 75 % of the rescue limit and has not fallen below 60 % -/
  press : Bool := false
  /-- [1 bit | 01 R21 | 0] the limit has fallen below unsettled content, which is not yet 256 MiB below it -/
  overLimit : Bool := false
deriving DecidableEq, Repr

/-! ## Reclaim and stripe engines (files 05, 07) -/

/-- A move whose destination has not passed program (R164): of a loaf, of a fold, or of a crumb loaf; the entries it
replaces as they were when the data was read. -/
structure Move where
  kind : Nat
  ns : Nat
  loaf : Nat
  was : LoafEntry
  crumbs : List (Nat × Nat × Crumb)
deriving DecidableEq, Repr

/-- Why a group is READ_ONLY (R181). -/
inductive RoCause where
  | spare | gc | berths
deriving DecidableEq, Repr

/-- A reclaim group (R148, R180, R181, R245). -/
structure Group where
  /-- [16 bits | 04 R148 | none] geometry, PU_PER_BLOCK -/
  geometry : Option Nat := none
  /-- [1 bit | 04 R148 | 0] formed -/
  formed : Bool := false
  /-- [6 bits | 07 R245 | 32] row width k -/
  k : Nat := 32
  /-- [0.1 % | 07 R245 | 140] spare allowance -/
  spare : Nat := 140
  /-- [64 bits | 04 R148 | 0] user capacity, bytes -/
  userCap : Nat := 0
  /-- [enumeration | 05 R181 | none] READ_ONLY with its cause -/
  ro : Option RoCause := none
  /-- [1 bit | 05 R180 | 0] full was reported -/
  full : Bool := false
  /-- [1 bit | 05 R171 | 0] GC running -/
  gc : Bool := false
  /-- [32 bits | 04 R144 | 0] FREE RUs that heels have drawn from the heel reserve since the group became READ_ONLY -/
  heelDrawn : Nat := 0
  /-- [16 bits | 05 R176 | 0] victims chosen -/
  victims : Nat := 0
  /-- [open rows by handle | 04 R150 | none] RU of each handle's open row -/
  openRu : Tbl (Option Nat) := []
  /-- [32 bits | 05 R186 | 0] retired blocks -/
  retired : Nat := 0
  /-- [64 bits | 05 R186 | 0] blocks refreshed -/
  refreshed : Nat := 0
  /-- [64 bits | 05 R186 | 0] TLC bytes programmed -/
  mediaBytes : Nat := 0
  /-- [32 bits | 08 R286 | 0] loaves GC copied in the window -/
  gcCopied : Nat := 0
  /-- [fraction | 08 R286 | none] valid loaves and loaf slots of the current victim -/
  victim : Option (Nat × Nat) := none
deriving DecidableEq, Repr

/-- The reclaim engine. -/
structure Rc where
  /-- [8 groups | 04 R148 | not formed] groups -/
  groups : Tbl Group := []
  /-- [per RU | 05 R170 | FREE] RUs in use -/
  rus : Tbl Ru := []
  /-- [64 bits | 05 R170 | 0] next RU number -/
  next : Nat := 0
  /-- [per block | 05 R170 | free] blocks, (port x 16 + die) x 8,192 + block -/
  blocks : Tbl Block := []
  /-- [list | 05 R177 | empty] refresh queue: block key and priority 0 normal, 1 high, 2 immediate -/
  refresh : List (Nat × Nat) := []
  /-- [7 bits | 07 R266 | 14] patrol period, days -/
  patrolDays : Nat := 14
  /-- [64 bits | 05 R187 | 0] bytes of host data written -/
  hostBytes : Nat := 0
  /-- [64 bits | 02 R63 | 0] bytes of media erased -/
  erasedBytes : Nat := 0
  /-- [3,600 seconds | 05 R186 | empty] second, TLC bytes programmed in it, host bytes written in it, of the last hour, newest first -/
  hour : List (Nat × Nat × Nat) := []
  /-- [64 bits | 05 R184 | 0] sectors poisoned since manufacture -/
  integrityErrs : Nat := 0
  /-- [8 bits | 05 R184 | 10] Available Spare Threshold -/
  spareThresh : Nat := 10
  /-- [1 bit | 05 R549 | 0] the spare event has been raised -/
  spareLow : Bool := false
  /-- [media | 05 R155 | empty] programmed sectors by (location x 16 + sector) -/
  media : Tbl Sector := []
  /-- [loaf slots | 05 R172 | empty] owner of a loaf slot on the media: namespace and loaf -/
  owner : Tbl (Nat × Nat) := []
  /-- [loaf slots | 07 R253 | empty] loaf slots of positions that a stop left recorded as missing, which the start writes again -/
  rewrite : List Nat := []
  /-- [loaf slots | 05 R157 | empty] crumb loaves: the namespace and sector of each crumb in a loaf slot -/
  crumbSlots : Tbl (List (Nat × Nat)) := []
  /-- [4,160 bytes per code word | 07 R247 | empty] P and Q on the media, by code-word location -/
  parity : Tbl (BitVec 33280) := []
  /-- [loaf slots | 05 R164 | empty] moves under way, by destination loaf slot -/
  moves : Tbl Move := []
  /-- [loaf slots | 07 R251 | empty] loaf slots whose recovered loaves wait in recovery trays for a slot of an open row -/
  owed : List Nat := []
  /-- [blocks | 07 R262 | empty] blocks whose place in their RU a replacement block has taken: old block, new block -/
  subst : Tbl Nat := []
deriving DecidableEq, Repr

/-- A missing berth (R259, R260). -/
structure Missing where
  since : Nat
  windowEnd : Nat
deriving DecidableEq, Repr

/-- A source of a reconstruction (R254, R255): its position, the step of the decode ladder it is at, the reads it waits for, and whether it
has decoded. -/
structure ReconSrc where
  pos : Nat
  step : Nat := 1
  left : Nat := 1
  good : Bool := false
deriving DecidableEq, Repr

/-- One sector of a read or Verify on its way to the host (R22, R242, R254, R312): the handle it works for, where it is
stored, how far it has come, the step of the decode ladder, the reads it waits for, the trigger T1 to T4 of its reconstruction
(0 none), and the stored sector as it arrived. -/
structure Job where
  tag : Nat
  gen : BitVec 8
  ns : Nat
  sect : Nat
  loc : Loc
  idx : Nat
  lr : Bool
  stage : SecState
  step : Nat
  left : Nat
  trig : Nat
  sec : Sector
  /-- [list | 11 R359 | empty] trays its code words lie in: size and tray -/
  trays : List (Nat × Nat) := []
  /-- [1 bit | 03 R82 | 0] soft-decision re-reads were used for it -/
  soft : Bool := false
  /-- [positions | 07 R255 | empty] the sources of its reconstruction -/
  srcs : List ReconSrc := []
  /-- [positions | 07 R255 | empty] positions of its row whose source failed to decode -/
  gone : List Nat := []
deriving DecidableEq, Repr

/-- A scrub on command (R267, R269). -/
structure Scrub where
  /-- [64 bits | 07 R269 | 0] SCRUB_ID -/
  id : Nat := 0
  /-- [8 bits | 12 R387 | 0] state: 0 none run, 1 running, 2 ended -/
  st : Nat := 0
  /-- [8 bits | 07 R269 | 0] SCOPE -/
  scope : Nat := 0
  /-- [8 bits | 07 R269 | 0] MODE -/
  mode : Nat := 0
  /-- [8 bits | 07 R269 | 0] RESULT -/
  result : Nat := 0
  /-- [32 bits | 12 R387 | 0] target -/
  target : Nat := 0
  /-- [64 bits | 12 R387 | 0] first LBA -/
  first : Nat := 0
  /-- [64 bits | 12 R387 | 0] count -/
  count : Nat := 0
  /-- [64 bits | 07 R269 | 0] time begun -/
  begun : Nat := 0
  /-- [32 bits | 07 R269 | 0] SECONDS -/
  seconds : Nat := 0
  /-- [64 bits | 07 R269 | 0] CW_READ -/
  cwRead : Nat := 0
  /-- [64 bits | 07 R269 | 0] SOFT -/
  soft : Nat := 0
  /-- [64 bits | 07 R269 | 0] RECON -/
  recon : Nat := 0
  /-- [64 bits | 07 R269 | 0] POISONED -/
  poisoned : Nat := 0
  /-- [32 bits | 07 R269 | 0] PARITY_BAD -/
  parityBad : Nat := 0
  /-- [32 bits | 07 R269 | 0] REFRESHED -/
  refreshed : Nat := 0
  /-- [rows | 07 R269 | empty] the rows that PARITY_BAD counts: RU and row -/
  badRows : List (Nat × Nat) := []
deriving DecidableEq, Repr

/-- The stripe engine and LDPC work. -/
structure Se where
  /-- [per berth | 07 R259 | none] missing berths -/
  missing : Tbl (Option Missing) := []
  /-- [16 bits | 07 R260 | 30] rejoin window, s -/
  rejoin : Nat := 30
  /-- [list | 07 R262 | empty] rebuild and drain order: RU and port -/
  rebuild : List (Nat × Nat) := []
  /-- [4,096 jobs | 07 R255 | empty] decode and reconstruction work -/
  jobs : Tbl (Option Job) := []
  /-- [32 bits | 07 R255 | 0] next job number -/
  nextJob : Nat := 0
  /-- [as Scrub | 07 R269 | none] the scrub on command, running or last -/
  scrub : Scrub := {}
  /-- [64 bytes | 07 R269 | zero] the summary kept of the last scrub that ended -/
  scrubDone : Scrub := {}
  /-- [64 bits per port | 07 R261 | 0] membership generation in the die's records -/
  mgen : Tbl Nat := []
  /-- [blocks | 07 R262 | empty] replacement blocks that a rebuild broken off has written in part, and the RU they were for -/
  partly : List (Nat × Nat) := []
deriving DecidableEq, Repr

/-! ## Berth ports (file 06) -/

/-- Port states (R227, R236). -/
inductive PState where
  | absent | present | powering | training | identifying | online | draining | released | fault | quarantine
deriving DecidableEq, Repr

/-- Link power states (R207). -/
inductive LPwr where
  | l0 | ls | ld | off
deriving DecidableEq, Repr

/-- A berth port. -/
structure Port where
  /-- [4 bits | 06 R236 | ABSENT] BP_PSTATE.STATE -/
  st : PState := .absent
  /-- [8 bits | 06 R236 | 0x00] BP_PSTATE.CAUSE -/
  cause : Nat := 0
  /-- [2 bits | 06 R236 | OFF] BP_PSTATE.LPWR -/
  lpwr : LPwr := .off
  /-- [16 bits | 06 R236 | 0x0000] BP_PSTATE.DFENCE -/
  dfence : BitVec 16 := 0
  /-- [1 bit | 06 R236 | 0] BP_PLINK.RATE32 -/
  rate32 : Bool := false
  /-- [1 bit | 06 R236 | 0] BP_PLINK.RXINV -/
  rxinv : Bool := false
  /-- [1 bit | 06 R236 | 0] BP_PLINK.BRXINV -/
  brxinv : Bool := false
  /-- [4 bits | 06 R236 | 4] BP_PLINK.PRESET -/
  preset : Nat := 4
  /-- [4 bits | 06 R236 | 4] BP_PLINK.BPRESET -/
  bpreset : Nat := 4
  /-- [8 bits | 06 R236 | 0] BP_PLINK.ATTEMPTS -/
  attempts : Nat := 0
  /-- [32 bits | 06 R236 | 0] BP_CRCERR -/
  crcerr : Nat := 0
  /-- [32 bits | 06 R236 | 0] BP_REPLAYS -/
  replays : Nat := 0
  /-- [32 bits | 06 R236 | 0] BP_RETRAINS -/
  retrains : Nat := 0
  /-- [32 bits | 06 R236 | 0] BP_OPS, wrapping -/
  ops : Nat := 0
  /-- [32 bits | 06 R236 | 0] BP_PASSCRC -/
  passcrc : Nat := 0
  /-- [32 bits | model's own | 0] PCRC of the berth whose block records the die holds for the port -/
  blockCrc : Nat := 0
  /-- [1 bit | 06 R227 | enabled] owner policy -/
  enabled : Bool := true
  /-- [1 bit | 06 R234 | 0] slot register PWR_EN of the port -/
  pwrEn : Bool := false
  /-- [1 bit | 06 R234 | 0] slot register ATTN of the port -/
  attn : Bool := false
  /-- [1 bit | 06 R234 | 0] slot register PRESENT as last read -/
  slotPresent : Bool := false
  /-- [1 bit | 06 R234 | 0] slot register PWR_GOOD as last read -/
  slotGood : Bool := false
  /-- [1 bit | 06 R234 | 0] slot register OC as last read -/
  slotOc : Bool := false
  /-- [64 bits | 06 R235 | 0] time presence last changed -/
  presAt : Nat := 0
  /-- [4 bits | 06 R193 | 0] training step -/
  step : Nat := 0
  /-- [2 bits | 06 R193 | 0] failed attempts in this training -/
  failed : Nat := 0
  /-- [32 bits | 06 R193 | 0] nonce of the attempt -/
  nonce : Nat := 0
  /-- [5 bits | 06 R195 | 0] consecutive matching TS1 -/
  okTs1 : Nat := 0
  /-- [5 bits | 06 R195 | 0] consecutive TS1 naming another port or nonce -/
  badTs1 : Nat := 0
  /-- [5 bits | 06 R195 | 0] consecutive TS1 with SRC = 0 -/
  ownTs1 : Nat := 0
  /-- [5 bits | 06 R193 | 0] TS2 received in the phase -/
  ts2 : Nat := 0
  /-- [2 bits | 06 R197 | 0] failures of step 8 in the attempt -/
  eqFails : Nat := 0
  /-- [1 bit | 06 R225 | 0] TS1 showed RATE32 -/
  ts1Rate32 : Bool := false
  /-- [1 bit | 06 R204 | 0] the training under way is a retrain -/
  retrain : Bool := false
  /-- [64 bits | 06 R204 | 0] time of the last retrain -/
  retrainAt : Nat := 0
  /-- [64 bits | 06 R193 | 0] time of PWR_GOOD -/
  goodAt : Nat := 0
  /-- [64 bits | 06 R193 | 0] start of the training attempt -/
  attemptAt : Nat := 0
  /-- [64 bits | 06 R193 | 0] start of the training step -/
  stepAt : Nat := 0
  /-- [64 bits | 06 R193 | 0] time of the attempt's first valid TS1 -/
  ts1At : Nat := 0
  /-- [4 bits | 06 R194 | 4] preset that the port requests of the berth -/
  presetReq : Nat := 4
  /-- [2 x 4 bits | 06 R204 | 4, 4] presets in use before a retrain, saved for it -/
  saved : Nat × Nat := (4, 4)
  /-- [times | 06 R227 | empty] retrains within the last second -/
  losses : List Nat := []
  /-- [23 bits | 06 R190 | 0x1D_BFBC] LFSR of the scrambler -/
  txLfsr : BitVec 23 := 0x1DBFBC#23
  /-- [23 bits | 06 R190 | 0x1D_BFBC] LFSR of the descrambler -/
  rxLfsr : BitVec 23 := 0x1DBFBC#23
  /-- [1 bit | 06 R207 | 1] TX in electrical idle -/
  txIdle : Bool := true
  /-- [1 bit | 06 R231 | 0] RX termination open -/
  rxOpen : Bool := false
  /-- [64 bits | 06 R207 | 0] time of the last flit sent or acknowledged -/
  busyAt : Nat := 0
  /-- [64 bits | 06 R203 | 0] time of the last valid flit received, or of the last entry to L0 -/
  heardAt : Nat := 0
  /-- [64 bits | 06 R207 | 0] time of the entry to LS -/
  lsAt : Nat := 0
  /-- [1 bit | 06 R207 | 0] leaving LD: WAKE and TS2 sent, the berth's TS2 awaited -/
  waking : Bool := false
  /-- [9 bits | 06 R192 | 0] blocks of flits sent since the previous SKP -/
  sinceSkp : Nat := 0
  /-- [8 bits | 06 R199 | 0] next SEQ to send -/
  txSeq : Nat := 0
  /-- [64 flits | 06 R203 | empty] sequenced flits sent and not acknowledged, oldest first -/
  unacked : List TxFlit := []
  /-- [operations | 06 R203, R205 | empty] issued operations whose CMD waits for a credit, for the window of 64 or for L0 -/
  cmds : List DieOp := []
  /-- [flits | 06 R214 | empty] WDATA flits that wait for the same, in their order -/
  wdata : List WFlit := []
  /-- [8 bits | 06 R203 | 0] next SEQ expected -/
  rxSeq : Nat := 0
  /-- [1 bit | 06 R203 | 0] a NAK is outstanding -/
  nak : Bool := false
  /-- [64 bits | 06 R203 | 0] time of the last NAK sent -/
  nakAt : Nat := 0
  /-- [code word | 06 R214 | none] RDATA under way: OTAG, plane, code word, next OFFSET -/
  rdata : Option (Nat × Nat × Nat × Nat) := none
  /-- [12 bits | 06 R205 | 0] short credits -/
  crShort : Nat := 0
  /-- [12 bits | 06 R205 | 0] long credits -/
  crLong : Nat := 0
  /-- [64 bits | 06 R202 | none] time of the last protocol error -/
  protoAt : Option Nat := none
  /-- [list | 06 R209, R210 | empty] LMGT requests that await their reply: code + 256 x argument, and the time last sent -/
  lmgt : List (Nat × Nat) := []
  /-- [512 bytes | 06 R224 | none] passport last read since presence was asserted -/
  passport : Option Passport := none
  /-- [512 bytes | 06 R224 | empty] payload of the RDATA flit of a passport or label read under way -/
  sysData : List Byte := []
  /-- [label | 07 R261 | none] label last read -/
  label : Option Label := none
  /-- [1 bit | 06 R222 | 0] TEMP_WARN stands -/
  tempWarn : Bool := false
  /-- [1 bit | 06 R222 | 0] TEMP_CRIT stands -/
  tempCrit : Bool := false
  /-- [operations | 06 R213 | empty] operations outstanding at the berth -/
  outst : List DieOp := []
  /-- [16 bits | 06 R213 | 0] next OTAG -/
  nextOtag : Nat := 0
  /-- [1 bit | 06 R223 | 0] the passport has been read again after a CRC failure -/
  reread : Bool := false
  /-- [1 bit | 06 R227 | 0] admitted with the erase flag -/
  eraseSys : Bool := false
  /-- [1 bit | 06 R230 | 0] a retrain for the error rate has been made in this training -/
  rateRetrain : Bool := false
  /-- [64 bits | 06 R230 | 0] time of that retrain -/
  rateAt : Nat := 0
  /-- [1 bit | 06 R148, R261 | 0] the berth counts as a member of its group: it has come ONLINE, and is not missing or released since -/
  member : Bool := false
  /-- [1 bit | 06 R234 | 0] slot register SLOT_CHG of the port as last read -/
  slotChg : Bool := false
deriving DecidableEq, Repr

/-- The berth ports and slot controllers. -/
structure Bp where
  /-- [1,024 ports | 06 R227 | ABSENT] ports -/
  ports : Tbl Port := []
  /-- [8 bits per controller | 06 R234 | 0x00] SLOT_IBI_EN as Doluz wrote it -/
  ibiEn : Tbl (BitVec 8) := []
  /-- [32 bits | 06 R233 | 0] port groups whose slot controllers have been given their dynamic addresses by SETAASA -/
  addressed : BitVec 32 := 0
  /-- [set | 06 R235 | empty] silent slot controllers -/
  silent : List Nat := []
deriving DecidableEq, Repr

/-! ## Cipher lanes (file 10) -/

/-- Key slot states (R319). -/
inductive KState where
  | empty | write | read | locked
deriving DecidableEq, Repr

/-- A key slot (R319, R320, R325). -/
structure Slot where
  /-- [2 bits | 10 R319 | EMPTY] state -/
  st : KState := .empty
  /-- [2 bits | 10 R319 | EMPTY] state before locking -/
  before : KState := .empty
  /-- [32 bits | 10 R320 | 0] epoch -/
  epoch : Nat := 0
  /-- [64 bits | 10 R325 | 0] next counter -/
  next : Nat := 0
  /-- [64 bits | 10 R325 | 0] blocks durably reserved, counted from 0 -/
  durable : Nat := 0
  /-- [1 bit | 10 R325 | 0] a reservation is requested and not durable -/
  asking : Bool := false
  /-- [256 bits | 10 R318 | none] tenant key, as held by the key store -/
  key : BitVec 256 := 0
  /-- [3 berths | 10 R322 | none] berths that hold the copies of its key blob -/
  blob : List Nat := []
  /-- [64 bits | 10 R326 | none] exact next counter written by dock-down -/
  exact : Option Nat := none
deriving DecidableEq, Repr

/-- The sector that a lane pair runs (R314): its job, the block at which it started or resumed, whether it is one that another was set
aside for, and whether it has been set aside before. -/
structure LaneRun where
  job : Nat
  start : Nat
  urgent : Bool
  aside : Bool
deriving DecidableEq, Repr

/-- A context register of a lane pair (R314): the counter block, the GHASH state and the block position of a sector set aside. -/
structure LaneCtx where
  job : Nat
  counter : BitVec 128
  ghash : BitVec 128
  pos : Nat
deriving DecidableEq, Repr

/-- The cipher lanes and the key store. -/
structure Cl where
  /-- [4,096 slots | 10 R318 | EMPTY] key slots -/
  slots : Tbl Slot := []
  /-- [per pair | 10 R313 | none] time of a pair's last disagreement -/
  disagree : Tbl (Option Nat) := []
  /-- [per pair | 10 R314 | idle] the sector that a pair runs -/
  run : Tbl (Option LaneRun) := []
  /-- [4 registers per pair | 10 R314 | empty] context registers in use -/
  ctx : Tbl (List LaneCtx) := []
  /-- [set | 10 R321 | empty] tenants with KEY_MIGRATE running -/
  migrating : List Nat := []
deriving DecidableEq, Repr

/-! ## Units, spares and self-test (files 01, 16) -/

/-- Where a unit of a self-test kind stands (R30, R481, R482). -/
inductive UState where
  | inService | spare | underTest | unusable | fenced
deriving DecidableEq, Repr

/-- Counts of one self-test kind, and the time each instance was last tested (R485). -/
structure KindCounts where
  failed : Nat := 0
  skipped : Nat := 0
  passed : Nat := 0
  last : Tbl Nat := []
deriving DecidableEq, Repr

/-- A run of slices (R484, R486): 0 SELFTEST_RUN, 1 short and 2 extended Device Self-test; the function that asked, the slices still
to run, how many ran, whether one was skipped, the last that failed. -/
structure TestRun where
  what : Nat
  fn : Nat
  todo : List (Nat × Nat)
  done : Nat := 0
  skipped : Bool := false
  failed : Option (Nat × Nat) := none
deriving DecidableEq, Repr

/-- Units of the kinds of R480. -/
structure Units where
  /-- [per unit | 01 R30 | the lowest instances in service, the rest spares] state, kind x 4,096 + instance -/
  st : Tbl UState := []
  /-- [7 kinds | 16 R485 | 0] counts -/
  counts : Tbl KindCounts := []
  /-- [set | 16 R481 | empty] unit map: units marked unusable, kept in both boot-store copies -/
  map : List (Nat × Nat) := []
  /-- [run | 16 R484, R486 | none] the SELFTEST_RUN or Device Self-test under way -/
  run : Option TestRun := none
  /-- [17 cores | 13 R392 | each its own] the core that takes each TARGET bit -/
  bits : Tbl Nat := []
  /-- [list | 16 R427 | empty] slices queued -/
  queue : List (Nat × Nat) := []
deriving DecidableEq, Repr

/-! ## DRAM and trays (file 11) -/

/-- Channel states (R350). -/
inductive ChState where
  | absent | training | active | vacating | vacated | failed | rejoining
deriving DecidableEq, Repr

/-- A flip-mask injection (R351). -/
structure Inject where
  word : Nat
  line : Nat
  mode : Nat
  mask : BitVec 80
  amask : BitVec 36
  count : Nat
deriving DecidableEq, Repr

/-- A read that waits at a DRAM channel (R344): its line, its kind (1 a map or crumb lookup with a deadline, 2 a dock-down read of the
proofing area, 3 any other, 4 a copy of a vacate, 5 patrol) and the deadline. -/
structure DRead where
  line : Nat
  kind : Nat
  deadline : Nat
deriving DecidableEq, Repr

/-- A DRAM channel (R350). -/
structure Chan where
  /-- [3 bits | 11 R350 | ABSENT] DC_CHSTATE.STATE -/
  st : ChState := .absent
  /-- [2 bits | 11 R350 | 0] DIMMS -/
  dimms : Nat := 0
  /-- [2 bits | 11 R350 | 0] RATE -/
  rate : Nat := 0
  /-- [1 bit | 11 R350 | 0] DRFM -/
  drfm : Bool := false
  /-- [8 bits | 11 R350 | 0] CAP0 -/
  cap0 : Nat := 0
  /-- [8 bits | 11 R350 | 0] CAP1 -/
  cap1 : Nat := 0
  /-- [32 bits | 11 R350 | 0] DC_CE -/
  ce : Nat := 0
  /-- [32 bits | 11 R350 | 0] DC_UE -/
  ue : Nat := 0
  /-- [32 bits | 11 R350 | 0] DC_ADDRERR -/
  addrErr : Nat := 0
  /-- [32 bits | 11 R350 | 0] DC_DREF, wrapping -/
  dref : Nat := 0
  /-- [64 bits | 11 R350 | 0] time of the last complete patrol pass -/
  patrolAt : Nat := 0
  /-- [times per DIMM | 11 R349 | empty] corrected words of the last 24 h -/
  ceTimes : Tbl (List Nat) := []
  /-- [64 lines | 11 R345 | empty] write queue, oldest first: line and the code words that are new in it -/
  wq : List (Nat × BitVec 8) := []
  /-- [128 lines | 11 R347 | empty] merge buffer: line, the code words written, the time it entered -/
  merge : List (Nat × BitVec 8 × Nat) := []
  /-- [list | 11 R344 | empty] reads that wait, oldest first -/
  rq : List DRead := []
  /-- [64 bits | 11 R345 | none] time the last read was served -/
  readAt : Option Nat := none
  /-- [injection | 11 R351 | none] armed injection -/
  inject : Option Inject := none
  /-- [64 entries per bank | 11 R348 | zero] activation tracker: counts of rows, bank x 2^32 + row -/
  acts : Tbl Nat := []
  /-- [per bank | 11 R348 | zero] rolling accumulated activation counters -/
  raa : Tbl Nat := []
  /-- [80 and 36 bits per word | 11 R339, R351 | none] words stored with an injected error: the flips of the stored bits and of the address
  folded into the check bits, by line x 8 + word -/
  flips : Tbl (BitVec 80 × BitVec 36) := []
  /-- [set | 11 R341 | empty] words with the poison bit set: line x 8 + word -/
  pbits : List Nat := []
deriving DecidableEq, Repr

/-- Regions of DRAM (R160, R338). -/
inductive Region where
  | mapPages | crumbs | reclaim | proofing
deriving DecidableEq, Repr

/-- The DRAM controller. -/
structure Dc where
  /-- [12 channels | 11 R350 | ABSENT] channels -/
  chans : Tbl Chan := []
  /-- [per granule | 11 R337 | none placed] granule table: logical granule,
  region x 2^20 + index, to channel and slot on it -/
  granules : Tbl (Nat × Nat) := []
  /-- [4 bits | 11 R355 | none] rejoined channel that granules are moved back to -/
  back : Option Nat := none
  /-- [GiB | 11 R338 | 32] proofing-area size in force -/
  proofGib : Nat := 32
  /-- [GiB | 11 R338 | 32] proofing-area size from the next start -/
  proofNext : Nat := 32
  /-- [set | 11 R355 | empty] channels whose training values the boot store holds -/
  trained : List Nat := []
  /-- [12 bits | 14 R418 | none] retention tags match -/
  selfRefresh : Bool := false
deriving DecidableEq, Repr

/-- States of a tray (R360). -/
inductive TrSt where
  | free | held | quarantined
deriving DecidableEq, Repr

/-- A tray (R360, R361). -/
structure Tray where
  /-- [2 bits | 11 R360 | FREE] state -/
  st : TrSt := .free
  /-- [14 bits | 11 R361 | 0] holder mask, bit s - 1 for subsystem s -/
  mask : BitVec 14 := 0
  /-- [16 bits | 11 R360 | 0] unit instance that allocated it -/
  inst : Nat := 0
  /-- [use | 11 R362 | 0] use it was drawn for -/
  use : Nat := 0
  /-- [24 bits | 11 R359 | none] descriptor: the handle of the command it works for -/
  handle : Option (Nat × BitVec 8) := none
  /-- [set | 01 R23 | empty] descriptor: the sectors with a poison mark -/
  poison : List Nat := []
deriving DecidableEq, Repr

/-- The tray pools: sizes 0 to 4 are 512 B, 4 KiB, 16 KiB, 64 KiB, 192 KiB. -/
structure Tp where
  /-- [5 counts | 11 R358 | 8, 52, 8, 20, 8] banks of each size in force -/
  split : List Nat := [8, 52, 8, 20, 8]
  /-- [5 counts | 11 R358 | as in force] banks of each size from the next start -/
  splitNext : List Nat := [8, 52, 8, 20, 8]
  /-- [per tray | 11 R360 | FREE] trays, size x 65,536 + tray -/
  trays : Tbl Tray := []
  /-- [free lists | 11 R360 | none freed yet] trays freed, newest first, per size -/
  heads : Tbl (List Nat) := []
  /-- [32 bits per size | 11 R360 | 0] trays never yet allocated start here -/
  fresh : Tbl Nat := []
  /-- [list | 11 R363 | empty] refused operations: unit x 65,536 + instance and time -/
  refused : List (Nat × Nat) := []
  /-- [set | 11 R363 | empty] unit instances fenced for refused operations -/
  fenced : List Nat := []
deriving DecidableEq, Repr

/-! ## Event controller, policy, logbook, update (files 12, 13, 15, 16) -/

/-- States of a DIRECT source (R393). -/
inductive EvSt where
  | idle | pending | active | activePending
deriving DecidableEq, Repr

/-- An event source (R390, R393, R396). -/
structure Src where
  /-- [32 bits | 13 R390 | 0x01FF_FF00] EVC_SRC_CFG -/
  cfg : Word := 0x01FFFF00
  /-- [2 bits | 13 R390 | IDLE] EVC_SRC_STATE state -/
  st : EvSt := .idle
  /-- [16 bits | 13 R390 | 0] occurrence count -/
  count : Nat := 0
  /-- [5 bits | 13 R390 | 0] claiming core -/
  core : Nat := 0
  /-- [1 bit | 13 R390 | 0] REDELIVER -/
  redeliver : Bool := false
  /-- [32 bits | 13 R396 | 0] overflow count -/
  ovf : Nat := 0
  /-- [64 bits | 13 R398 | 0] payload of the latest occurrence -/
  payload : Word64 := 0
deriving DecidableEq, Repr

/-- A record of the record queue (R395). -/
structure EvRec where
  src : Nat
  ovf : Bool
  inj : Bool
  rseq : Nat
  time : Nat
  payload : Nat
deriving DecidableEq, Repr

/-- A logbook record (R468). CRC is computed when the record is laid out. -/
structure LogRec where
  seq : Nat
  opsec : Nat
  rep : Nat
  pcycle : Nat
  sev : Nat
  res : Bool
  restored : Bool
  anagrp : Nat
  code : Nat
  inst : Nat
  last : Nat
  payload : List Byte
deriving DecidableEq, Repr

/-- The logbook (R470 to R476). -/
structure Logbook where
  /-- [16,384 records | 16 R470 | empty, DESIGN CHOICE (log entry 1)] the ring, newest first -/
  ring : List LogRec := []
  /-- [64 records | 16 R470 | empty] the FATAL reserve, newest first -/
  reserve : List LogRec := []
  /-- [64 bits | 16 R472 | 2^20 - 1] highest SEQ consumed: a new part's first SEQ is 2^20 -/
  newest : Nat := 1048575
  /-- [1 bit | 16 R471 | 0] the record with the highest SEQ is stored -/
  newestStored : Bool := false
  /-- [64 bits | 16 R472 | 1] highest block of SEQ reserved -/
  seqBlock : Nat := 1
  /-- [64 bits | 16 R476 | 2^20 - 1 (R475)] LOSS_SEQ -/
  loss : Nat := 1048575
  /-- [8 x 32 bits | 16 R476 | 0] drops by severity -/
  drops : Tbl Nat := []
  /-- [8 x 32 bits | 16 R476 | 0] records written by severity -/
  written : Tbl Nat := []
  /-- [48 bits | 16 R473 | 0] OPSEC as persisted -/
  opsecSaved : Nat := 0
  /-- [48 bits | 16 R473 | 0] OPSEC when the always-on island last came out of its power-on reset -/
  opsecBase : Nat := 0
  /-- [64 bits | 16 R473 | 0] the model's time at that reset -/
  opsecAt : Nat := 0
  /-- [32 bits | 16 R473 | DESIGN CHOICE 1 (log entry 1)] PCYCLE -/
  pcycle : Nat := 1
  /-- [1 bit | 16 R473, R475 | 0] the always-on retention memory has lost the ring, and no start has restored it yet -/
  lost : Bool := false
  /-- [1,024 records | 16 R474 | empty] current boot-store image -/
  image : List LogRec := []
  /-- [64 bits | 16 R474 | none] time of the last image -/
  imageAt : Option Nat := none
  /-- [1 bit | 16 R474 | 0] an image is owed for an ERROR or higher record -/
  imageDue : Bool := false
  /-- [records | 16 R474 | empty] records of the system-area segment being gathered -/
  seg : List LogRec := []
  /-- [64 bits | 16 R474 | 0] time of the segment's first record -/
  segAt : Nat := 0
  /-- [segments | 16 R474 | empty] system-area segments: first SEQ, last SEQ, records -/
  sys : List (Nat × Nat × List LogRec) := []
  /-- [64 bits | 16 R474 | DESIGN CHOICE 0 (log entry 1)] segment sequence of the next system-area segment -/
  sysNext : Nat := 0
  /-- [64 records | 16 R474 | empty] the dock-down sector -/
  dock : List LogRec := []
deriving DecidableEq, Repr

/-- States of a firmware slot (R450). -/
inductive FwSt where
  | empty | incomplete | complete | verified | running | trial | failed
deriving DecidableEq, Repr

/-- A firmware slot (R450, R451). -/
structure FwSlot where
  /-- [3 bits | 15 R450 | A RUNNING, B EMPTY, DESIGN CHOICE (log entry 1)] state -/
  st : FwSt := .empty
  /-- [256 bytes | 15 R442 | none: the image of manufacture (log entry 6)] header of the image, content bytes 0 to 255 -/
  hdr : Option (List Byte) := none
  /-- [1 to 32 entries | 15 R443 | none] manifest, as the last verification read it -/
  parts : List Part := []
  /-- [768 blocks | 15 R448 | empty] blocks written and checked -/
  blocks : List Nat := []
deriving DecidableEq, Repr

/-- The activation record area of one boot-store device (R440, R454): 4 sectors of 1,024 records of 64 bytes. -/
structure ActArea where
  /-- [4,096 records | 15 R454 | one record, DESIGN CHOICE (log entry 1)] records by position -/
  recs : Tbl ActRec := [(0, {})]
  /-- [12 bits | 15 R454 | DESIGN CHOICE 1 (log entry 1)] position that the next record is appended at -/
  next : Nat := 1
deriving DecidableEq, Repr

/-- The firmware update state. -/
structure Fw where
  /-- [slot | 15 R450 | RUNNING, DESIGN CHOICE (log entry 1)] slot A -/
  a : FwSlot := { st := .running }
  /-- [slot | 15 R450 | EMPTY, DESIGN CHOICE (log entry 1)] slot B -/
  b : FwSlot := {}
  /-- [64 bytes | 15 R454 | CONFIRMED, slot A] current activation record -/
  act : ActRec := {}
  /-- [256 KiB | 15 R440 | one record, DESIGN CHOICE (log entry 1)] activation record area of device 0 -/
  dev0 : ActArea := {}
  /-- [256 KiB | 15 R440 | one record, DESIGN CHOICE (log entry 1)] activation record area of device 1 -/
  dev1 : ActArea := {}
  /-- [4 bits | 15 R445 | DESIGN CHOICE 0 (log entry 1)] revocation bits of the four signing keys -/
  revoked : BitVec 4 := 0
  /-- [32 bits for each TYPE | 15 R444 | the part's own, Config.partVer (log entry 6)] PART_VER of the parts that run, where an image has
  switched them -/
  parts : Tbl (Option Nat) := []
  /-- [32 bits for each TYPE | 15 R460 | empty] those that ran before the trial -/
  partsOld : Tbl (Option Nat) := []
  /-- [32 bits, 32 bits | 15 R440 | DESIGN CHOICE (log entry 1)] pilot-loader copy 0: sequence number and PART_VER -/
  pilot0 : Nat × Nat := (1, 0)
  /-- [32 bits, 32 bits | 15 R440 | DESIGN CHOICE (log entry 1)] pilot-loader copy 1 -/
  pilot1 : Nat × Nat := (0, 0)
  /-- [session | 15 R447 | none] session: target slot and whether opened by NVMe -/
  session : Option (Nat × Bool) := none
  /-- [s | 15 R447 | 600] confirmation window, 0 = by command only -/
  window : Nat := 600
  /-- [64 bits | 15 R464 | 0] time from which the window runs -/
  windowFrom : Nat := 0
  /-- [1 bit | 15 R464 | 0] an ERROR record from self-test or ladder fell in the window -/
  windowErr : Bool := false
  /-- [1 bit | 15 R459 | 0] live activation under way -/
  live : Bool := false
  /-- [16 bits | 15 R458 | none] the Firmware Commit that waits for it; none: UPD_ACTIVATE -/
  liveTag : Option Nat := none
  /-- [1 bit | 03 R115 | 0] a reset in the hold has freed the Firmware Commit that waited for it -/
  liveGone : Bool := false
  /-- [1 bit | 15 R465, R467 | 0] UPD_DISCARD has ended the trial at the next start -/
  discarded : Bool := false
  /-- [64 bits | 15 R459 | 0] time the hold began -/
  holdAt : Nat := 0
  /-- [ranges | 15 R449 | empty] bytes received by NVMe download: offset and length -/
  got : List (Nat × Nat) := []
  /-- [16 bits | 15 R462 | DESIGN CHOICE 1 (log entry 6)] configuration format -/
  cfgFmt : Nat := 1
  /-- [16 bits | 15 R462 | none] configuration format of the other region, while both are kept -/
  cfgOther : Option Nat := none
deriving DecidableEq, Repr

/-- The management complex. -/
structure Mc where
  /-- [4,096 sources | 13 R390 | masked, IDLE] event sources -/
  srcs : Tbl Src := []
  /-- [1 bit | 13 R390 | 0] EVC_GCTRL.GEN -/
  gen : Bool := false
  /-- [8,192 records | 13 R395 | empty] the record queue, by index -/
  recs : Tbl EvRec := []
  /-- [13 bits | 13 R390 | 0] EVC_RQ_HEAD -/
  head : Nat := 0
  /-- [13 bits | 13 R390 | 0] EVC_RQ_TAIL -/
  tail : Nat := 0
  /-- [14 bits | 13 R395 | 0] records in the queue -/
  fill : Nat := 0
  /-- [32 bits | 13 R390 | 0] EVC_RQ_OVF -/
  ovf : Nat := 0
  /-- [16 bits | 13 R395 | 0] next RSEQ -/
  rseq : Nat := 0
  /-- [17 cores | 13 R392 | no handler] handlers each core runs, innermost first: source and priority -/
  run : Tbl (List (Nat × Nat)) := []
  /-- [32 bits | 12 R385 | 0x0000_0005] owner policy word -/
  policy : Word := 5
  /-- [32 bits | 12 R385 | 0x0000_0005] locks in force until the next cold reset -/
  policyForce : Word := 5
  /-- [64 bits | 02 R62 | 0] NVMe timestamp: value set and time at which it was set -/
  stamp : Nat × Nat := (0, 0)
  /-- [1 bit | 04 R151 | 0] FDP enabled -/
  fdp : Bool := false
  /-- [63 events | 02 R63 | empty] FDP Events log, newest first: event type and reclaim unit handle (log entry 147) -/
  fdpEvents : List (Nat × Nat) := []
  /-- [1 bit | 02 R66 | 0] NVMe-MI response bytes of the last read -/
  mi : List Byte := []
deriving DecidableEq, Repr

/-! ## Always-on island: power, thermal, breakwater (file 14) -/

/-- A temperature sensor (R424 to R429). -/
structure Sensor where
  /-- [signed 0.1 °C | 14 R424 | DESIGN CHOICE 250 (log entry 1)] reading -/
  reading : Int := 250
  /-- [2 bits | 14 R427 | 0] consecutive bad samples -/
  bad : Nat := 0
  /-- [1 bit | 14 R438 | 0] THM_FAULTY -/
  faulty : Bool := false
  /-- [1 bit | 14 R438 | 0] THM_EXCLUDED -/
  excluded : Bool := false
  /-- [signed 0.1 °C and time | 14 R429 | none] override and its end -/
  override : Option (Int × Nat) := none
  /-- [1 bit | 14 R428 | 0] its slice has failed since it was last counted at 120 °C -/
  sliceFailed : Bool := false
deriving DecidableEq, Repr

/-- Thermal states (R425). -/
inductive ThState where
  | normal | warning | throttle | shutdown
deriving DecidableEq, Repr

/-- Breakwater verdicts (R433). -/
inductive Verdict where
  | healthy | weak | failed
deriving DecidableEq, Repr

/-- The always-on island. -/
structure Aon where
  /-- [2 bits | 14 R438 | 0b00] AON_PSTATE.STATE -/
  pstate : Nat := 0
  /-- [2 bits | 14 R438 | 0b00] AON_PSTATE.TARGET -/
  target : Nat := 0
  /-- [1 bit | 14 R438 | 0] AON_PSTATE.ENTERING -/
  entering : Bool := false
  /-- [1 bit | 14 R412 | 0] the entry is past its commit point -/
  committed : Bool := false
  /-- [2 bits | 14 R410 | 1] AUTO -/
  auto : Nat := 1
  /-- [16 bits | 14 R410 | 2] T1, ms -/
  t1 : Nat := 2
  /-- [32 bits | 14 R410 | 10,000] T2, ms -/
  t2 : Nat := 10000
  /-- [64 bits | 14 R410 | 0] ALARM -/
  alarm : Nat := 0
  /-- [8 bits | 14 R438 | 0x09] AON_WAKE_SRC.CODE -/
  wake : Nat := 9
  /-- [8 bits | 14 R438 | 0x00] AON_WAKE_SRC.ORIGIN -/
  origin : Nat := 0
  /-- [1 bit | 14 R438 | 0] AON_WAKE_SRC.RETENTION_LOSS -/
  retLoss : Bool := false
  /-- [7 bits | 14 R438 | 0x00] AON_WAKE_SRC.BANK -/
  bank : Nat := 0
  /-- [4 bits | 14 R438 | 0x0] AON_WAKE_SRC.CHANNEL -/
  channel : Nat := 0
  /-- [64 bits | 14 R438 | 0] AON_WAKE_TIME -/
  wakeTime : Nat := 0
  /-- [71 CRC-32C | 14 R416 | none written] retention signatures of the banks kept in P2, as the last entry wrote them -/
  retSigs : List (BitVec 32) := []
  /-- [64 bits | 14 R418 | none written] DRAM retention tag of the last P3 entry -/
  retTag : Option Nat := none
  /-- [64 bits | 14 R438 | 0] the model's time, µs: AON_TIMEBASE counts from the last cold reset -/
  time : Nat := 0
  /-- [64 bits | 14 R438 | 0] the model's time at the last cold reset -/
  zero : Nat := 0
  /-- [1 bit | 18 R510 | trimmed oscillator] the time base runs from the 32.768 kHz source -/
  crystal : Bool := false
  /-- [16 bits per monitor | 14 R420 | 500 ps, as AON_PACE] paces -/
  paces : Tbl Nat := []
  /-- [16 bits | 14 R438 | 0x1F4] AON_PACE pace_max -/
  paceMax : Nat := 500
  /-- [6 bits | 14 R438 | 0] AON_PACE monitor -/
  paceMon : Nat := 0
  /-- [12 bits | 14 R438 | 0x2EE] AON_VCORE target, mV -/
  vcore : Nat := 750
  /-- [1 bit | 14 R438 | 0] AON_VCORE.FIXED -/
  fixed : Bool := false
  /-- [12 bits | 14 R438 | 0] AON_VCORE controller power, 0.1 W -/
  power : Nat := 0
  /-- [64 bits | 14 R423 | 0] trims made -/
  trims : Nat := 0
  /-- [64 sensors | 14 R424 | as Sensor] sensors -/
  sensors : Tbl Sensor := []
  /-- [8 bits | 14 R438 | 0x00] THM_SUMMARY.COMPOSITE, °C -/
  composite : Nat := 0
  /-- [2 bits | 14 R438 | NORMAL] THM_SUMMARY.STATE -/
  th : ThState := .normal
  /-- [3 bits | 14 R438 | 0] THM_SUMMARY.STEP -/
  step : Nat := 0
  /-- [6 bits | 14 R438 | 0] THM_SUMMARY.HOTTEST -/
  hottest : Nat := 0
  /-- [1 bit | 14 R438 | 0] THM_SUMMARY.FAST -/
  fast : Bool := false
  /-- [4 x 2 bits | 14 R425 | 0] consecutive samples at or above 95, 105 and 120 °C -/
  rises : Nat × Nat × Nat := (0, 0, 0)
  /-- [2 x 2 bits | 14 R425 | 0] consecutive samples at or below 90 and 100 °C -/
  falls : Nat × Nat := (0, 0)
  /-- [64 bits | 14 R425 | 0] time the thermal state was entered -/
  thAt : Nat := 0
  /-- [64 bits | 14 R426 | 0] time the throttle step last changed, or its timer last ran -/
  stepAt : Nat := 0
  /-- [64 bits | 14 R410 | none] time since which the conditions of the next power state hold without a break -/
  idleFrom : Option Nat := none
  /-- [2 bits | 14 R438 | FAILED] BW_STATUS.VERDICT -/
  verdict : Verdict := .failed
  /-- [1 bit | 14 R438 | 1] BW_STATUS.PF_N -/
  pfN : Bool := true
  /-- [1 bit | 14 R438 | 0] BW_STATUS.TEST -/
  bwTest : Bool := false
  /-- [1 bit | 14 R438 | 1] BW_STATUS.CHG_EN -/
  chgEn : Bool := true
  /-- [8 bits | 14 R438 | 0x00] BW_STATUS.LIMIT, 256 MiB units -/
  limit : Nat := 0
  /-- [16 bits | 14 R438 | 0] BW_VOLT, mV -/
  volt : Nat := 0
  /-- [24 bits | 14 R438 | 0] BW_CAP: C in µF, 0 = no valid test -/
  cap : Nat := 0
  /-- [64 bits | 14 R438 | 0] time of the last valid test -/
  capAt : Nat := 0
  /-- [32 bits | 14 R438 | 0] BW_ENERGY, mJ -/
  energy : Nat := 0
  /-- [64 bits | 14 R433 | none] time since which the limit has been at least 1.5 GiB -/
  okFrom : Option Nat := none
  /-- [2 bits | 14 R433 | 0] consecutive samples below 1 GiB -/
  lowRun : Nat := 0
  /-- [16 bits | 14 R435 | 0] bank voltage at the start of the test, mV -/
  v0 : Nat := 0
  /-- [64 bits | 14 R435 | 0] time in P0 at the last test -/
  testAt : Nat := 0
  /-- [32 bits | 14 R431 | DESIGN CHOICE 0 (log entry 1)] R_TEST, mΩ -/
  rTest : Nat := 0
  /-- [16 bits | 14 R431 | DESIGN CHOICE 0 (log entry 1)] DIV -/
  div : Nat := 0
  /-- [8 bits | 14 R431 | DESIGN CHOICE 0 (log entry 1)] ETA, % -/
  eta : Nat := 0
  /-- [32 bits | 14 R431 | DESIGN CHOICE 0 (log entry 1)] V_MIN, mV -/
  vMin : Nat := 0
  /-- [32 bits | 14 R431 | DESIGN CHOICE 0 (log entry 1)] C_RATED, µF -/
  cRated : Nat := 0
  /-- [kanex requester | 14 R435 | none] function whose BREAKWATER_TEST runs -/
  testFn : Option Nat := none
  /-- [64 bits | 14 R435, R464 | 0] time the state other than P0 was reached -/
  slept : Nat := 0
  /-- [8 bits | 14 R412 | none] the wake source latched past the commit point -/
  latched : Option Nat := none
deriving DecidableEq, Repr

/-! ## Quay links and the hierarchy (file 17) -/

/-- Position states (R497, R506). -/
inductive QState where
  | absent | offered | joining | serving | leaving | retired | lost | refused | adopting
deriving DecidableEq, Repr

/-- A position of the hierarchy (R497, R506). -/
structure Pos where
  /-- [8 bits | 17 R506 | ABSENT] STATE -/
  st : QState := .absent
  /-- [enumeration | 17 R497 | ABSENT] the state a refusal met: its ANA state is unchanged -/
  refusedFrom : QState := .absent
  /-- [4 bits | 17 R506 | 0] lanes -/
  lanes : Nat := 0
  /-- [1 bit | 17 R506 | 0] 112 Gb/s -/
  fast : Bool := false
  /-- [64 bits | 17 R506 | 0] DSN of the die on the link -/
  dsn : BitVec 64 := 0
  /-- [64 bits | 17 R497 | 0] DSN in the hierarchy record -/
  recDsn : BitVec 64 := 0
  /-- [64 bits | 17 R501 | 0] DSN the position held before a replacement -/
  prior : BitVec 64 := 0
  /-- [32 bits | 17 R506 | 0] FW_VER -/
  fwVer : Nat := 0
  /-- [16 bits | 17 R506 | 0] CAUSE -/
  cause : Nat := 0
  /-- [16 bits | 17 R506 | 0] RETRAINS, saturating -/
  retrains : Nat := 0
  /-- [times | 17 R493 | empty] retrains within 10 s -/
  times : List Nat := []
  /-- [64 bits | 04 R126 | 0] reclaim-capacity summary: user capacity of the worker, bytes -/
  userCap : Nat := 0
  /-- [8 bits | 04 R126 | 0] reclaim-capacity summary: groups formed on the worker -/
  formed : BitVec 8 := 0
  /-- [2 bits | 14 R409 | 0] power state of the worker -/
  pstate : Nat := 0
  /-- [per key slot | 10 R332 | none] epoch, next counter and sectors of each slot on the worker, as it last reported -/
  keys : Tbl (Nat × Nat × Nat) := []
deriving DecidableEq, Repr

/-- The Quay links. -/
structure Ql where
  /-- [16 positions | 17 R488 | ABSENT] positions -/
  pos : Tbl Pos := []
  /-- [2 bits, 8 bits | 17 R504 | none] profile and LEAN cap given to later dies -/
  hierProfile : Option (Nat × Nat) := none
  /-- [signed µs | 17 R495 | 0] offset of the worker's time base from the manager's -/
  timeOffset : Int := 0
  /-- [1 bit | 17 R500 | up, DESIGN CHOICE (log entry 1)] upstream link of a worker is up -/
  upstream : Bool := true
  /-- [32 bits | 17 R492 | 0] Quay flits discarded for CRC -/
  crc : Nat := 0
  /-- [64 bits | 17 R491 | own DSN of a manager; of a worker DESIGN CHOICE 0 (log entry 1)] DSN of the hierarchy's manager -/
  mgrDsn : BitVec 64 := 0
  /-- [session key | 17 R491 | none] session key drawn at the last link-up, by position -/
  session : Tbl (Option Nat) := []
  /-- [64 bits | 15 R454 | none] ACT_ID that the manager has named for the next activation -/
  actId : Option Nat := none
deriving DecidableEq, Repr

/-! ## Outputs -/

/-- What the die sends to the outside, the newest first: the model's own record of its outputs. The host metadata of an LBA goes with the
address in the buffer that MPTR names (R75, R127). -/
inductive Out where
  | cqe (fn cq sq cid slot : Nat) (dw0 dw1 : Word) (sqhd : Nat) (phase : Bool) (sct sc : Nat) (m dnr : Bool)
  | msix (fn vector addr data : Nat)
  | dataOut (fn tag : Nat) (lba : Nat) (data : SectorData) (hmeta : Option (Nat × BitVec 128)) (poisoned relaxed : Bool)
  | logPage (fn tag lid : Nat) (data : List Nat)
  | unsupportedRequest (fn addr : Nat)
  | readValue (fn offset : Nat) (value : Word)
  | lane (port : Nat) (blocks : List (BitVec 130))
  | laneIdle (port : Nat)
  | sideband (group : Nat) (bytes : List Byte)
  | avs (mV : Nat)
  | activeMask (module : Nat) (mask : BitVec 8)
  | wireQuay (position : Nat) (cls : Nat) (value : Nat)
  | wireCmd (position fn tag : Nat) (gen : BitVec 8) (entry : SqEntry) (stamp : Stamp)
  | wireData (position tag : Nat) (gen : BitVec 8) (lba : Nat) (data : SectorData) (hmeta : BitVec 128) (poisoned : Bool)
  | wireCpl (position tag : Nat) (gen : BitVec 8) (m : QuayCplMsg)
  | wireMgmt (position : Nat) (m : QuayMgmtMsg)
  | wireIdent (position : Nat) (id : QuayIdent)
  | wireKey (position : Nat) (m : QuayKeyMsg)
  | mi (bytes : List Byte)
deriving DecidableEq, Repr

/-! ## The state -/

/-- Everything the spec gives one die. -/
structure Die where
  life : Life := {}
  link : Link := {}
  funcs : Tbl Func := []
  tenants : Tbl Tenant := []
  qe : Qe := {}
  sch : Sch := {}
  nss : Tbl Ns := []
  te : Te := {}
  rc : Rc := {}
  se : Se := {}
  bp : Bp := {}
  cl : Cl := {}
  units : Units := {}
  dc : Dc := {}
  tp : Tp := {}
  mc : Mc := {}
  lb : Logbook := {}
  fw : Fw := {}
  aon : Aon := {}
  ql : Ql := {}
  /-- [list | model's own | empty] outputs, newest first (log entry 3) -/
  out : List Out := []
  /-- [count | model's own | DESIGN CHOICE 0 (log entry 2)] values the spec leaves open that have been drawn -/
  free : Nat := 0
deriving DecidableEq, Repr

/-- The state: the die, and the queue of the commands that wait for it. -/
structure State where
  die : Die := {}
  /-- [queue | model's own | empty] commands waiting, first in first out -/
  pending : List Instr := []
deriving DecidableEq, Repr

/-- Why the machine stops with a fault. The spec gives the die no stop of this kind: every error it describes is an
effect on the state. -/
inductive Fault where
  /-- Raised by nobody: R544 says only that a condition beyond the absolute maximum ratings may damage the part, and no
  command of the table brings one about. Safe. -/
  | damaged
deriving DecidableEq, Repr

/-- Why a command is refused. -/
inductive Refusal where
  /-- Raised by exec's arm of a command that has no meaning yet. Safe. -/
  | notModelled (mnemonic : String)
  /-- Raised by execJtagInstruction: a JTAG instruction other than boundary scan while JTAG_LOCK is clear acts on the
  debug unit, and the spec does not say what it does there (R543). Safe. -/
  | jtagDebug
deriving DecidableEq, Repr

/-- Tenant 0, the owner, which always exists (R293). -/
def Tenant.owner : Tenant := { alive := true }

/-- The machine right after reset: every register at the value its table gives, the values log entry 1 names for the
rest, an empty queue. -/
def State.reset : State := { die := { tenants := [(0, Tenant.owner)] } }

/-- Whether the die works: it has reached readiness or one of the holds that still serve (R513, R520, R483, R428). -/
def Die.awake (d : Die) : Bool :=
  d.life.phase == .ready || d.life.phase == .maintHold || d.life.phase == .faultHold || d.life.phase == .thermalHold

/-- A command's effect on the die, with the queue left as it is: a die that is off, in reset, parked or in ROM hold does
nothing (log entry 36). -/
def State.run (s : State) (f : Die → Die) : Host.Outcome State Fault Refusal :=
  .next { s with die := if s.die.awake then f s.die else s.die }

/-- The effect of a power, reset or pin event, which acts in every phase. -/
def State.always (s : State) (f : Die → Die) : Host.Outcome State Fault Refusal := .next { s with die := f s.die }

end Sys2Proof.Machine
end

