-- ==== Sys2Proof/Machine/Flags.lean ====
section
/-! DEFINITION. Computations on bits that several meanings share: little-endian bytes, CRC-32C, the statuses of
completions with their DNR bit, the Kanex statuses, and the bins of the latency histograms. -/

namespace Sys2Proof.Machine

/-- The low n bytes of a number, little-endian. -/
def le : Nat → Nat → List Byte
  | 0, _ => []
  | n + 1, v => BitVec.ofNat 8 v :: le n (v / 256)

/-- The number that little-endian bytes spell. -/
def leVal : List Byte → Nat
  | [] => 0
  | b :: r => b.toNat + 256 * leVal r

/-- The number in n bytes from an offset; a byte beyond the list reads as zero. -/
def leAt (bs : List Byte) (off n : Nat) : Nat := leVal ((bs.drop off).take n)

/-- A list of bytes cut or filled with zeros to a length. -/
def padTo (n : Nat) (bs : List Byte) : List Byte := (bs ++ List.replicate (n - bs.length) 0).take n

/-- One bit of CRC-32C in reflected order (R201). -/
def crcBit (c : BitVec 32) : BitVec 32 :=
  if c.getLsbD 0 then (c >>> 1) ^^^ 0x82F63B78#32 else c >>> 1

/-- One byte of CRC-32C. -/
def crcByte (c : BitVec 32) (b : Byte) : BitVec 32 :=
  crcBit (crcBit (crcBit (crcBit (crcBit (crcBit (crcBit (crcBit (c ^^^ b.zeroExtend 32))))))))

/-- CRC-32C (R201): polynomial 0x1EDC_6F41 reflected, initial value and final XOR all ones. -/
def crc32c (bs : List Byte) : BitVec 32 := ~~~ (bs.foldl crcByte 0xFFFFFFFF#32)

/-- ⌈a ÷ b⌉. -/
def ceilDiv (a b : Nat) : Nat := (a + b - 1) / b

/-- The sum of a function over a list. -/
def sumBy {α : Type} (f : α → Nat) (l : List α) : Nat := l.foldl (fun a x => a + f x) 0

/-- A Bool as the bit it stores. -/
def bit (b : Bool) : Nat := if b then 1 else 0

/-- Saturating increment at a highest value. -/
def satInc (mx v : Nat) : Nat := if v < mx then v + 1 else mx

/-! ## Completion statuses (R118, R548): status code type and status code -/

/-- A completion's status code type and status code. -/
abbrev Status := Nat × Nat

def stOk : Status := (0x0, 0x00)
def stInvalidOpcode : Status := (0x0, 0x01)
def stInvalidField : Status := (0x0, 0x02)
def stCidConflict : Status := (0x0, 0x03)
def stDataTransfer : Status := (0x0, 0x04)
def stAbortRequested : Status := (0x0, 0x07)
def stSqDeletion : Status := (0x0, 0x08)
def stInvalidNamespace : Status := (0x0, 0x0B)
/-- PRESUMED (NVMe Base Specification; log entry 10): Command Sequence Error. -/
def stSequence : Status := (0x0, 0x0C)
def stLbaRange : Status := (0x0, 0x80)
def stPrpOffset : Status := (0x0, 0x13)
/-- PRESUMED (NVMe Base Specification; log entry 10): Invalid Completion Queue. -/
def stInvalidCq : Status := (0x1, 0x00)
def stInvalidQid : Status := (0x1, 0x01)
/-- PRESUMED (NVMe Base Specification; log entry 10): Invalid Queue Size. -/
def stInvalidQsize : Status := (0x1, 0x02)
def stAbortLimit : Status := (0x1, 0x03)
def stAerLimit : Status := (0x1, 0x05)
def stFwSlot : Status := (0x1, 0x06)
def stFwImage : Status := (0x1, 0x07)
/-- PRESUMED (NVMe Base Specification; log entry 10): Invalid Interrupt Vector. -/
def stInvalidVector : Status := (0x1, 0x08)
/-- PRESUMED (NVMe Base Specification; log entry 10): Invalid Log Page. -/
def stInvalidLog : Status := (0x1, 0x09)
def stInvalidFormat : Status := (0x1, 0x0A)
def stFwConvReset : Status := (0x1, 0x0B)
def stQueueDeletion : Status := (0x1, 0x0C)
/-- PRESUMED (NVMe Base Specification; log entry 10): Feature Identifier Not Saveable. -/
def stNotSaveable : Status := (0x1, 0x0D)
def stFwMaxTime : Status := (0x1, 0x12)
def stFwProhibited : Status := (0x1, 0x13)
/-- PRESUMED (NVMe Base Specification; log entry 10): Overlapping Range. -/
def stOverlap : Status := (0x1, 0x14)
def stNsCapacity : Status := (0x1, 0x15)
def stNsIdUnavailable : Status := (0x1, 0x16)
/-- PRESUMED (NVMe Base Specification; log entry 10): Namespace Already Attached. -/
def stNsAttached : Status := (0x1, 0x18)
/-- PRESUMED (NVMe Base Specification; log entry 10): Namespace Not Attached. -/
def stNsNotAttached : Status := (0x1, 0x1A)
/-- PRESUMED (NVMe Base Specification; log entry 10): Controller List Invalid. -/
def stCtrlList : Status := (0x1, 0x1C)
def stSelfTestRunning : Status := (0x1, 0x1D)
def stZoneBoundary : Status := (0x1, 0xB8)
def stZoneFull : Status := (0x1, 0xB9)
def stZoneRo : Status := (0x1, 0xBA)
def stZoneOffline : Status := (0x1, 0xBB)
def stZoneInvalidWrite : Status := (0x1, 0xBC)
def stTooManyActive : Status := (0x1, 0xBD)
def stTooManyOpen : Status := (0x1, 0xBE)
def stZoneTransition : Status := (0x1, 0xBF)
def stUnrecovered : Status := (0x2, 0x81)
def stAnaInaccessible : Status := (0x3, 0x02)
def stAnaTransition : Status := (0x3, 0x03)
def stOverQuota : Status := (0x7, 0x01)
def stCapacity : Status := (0x7, 0x02)
def stIntegrity : Status := (0x7, 0x03)
def stNonce : Status := (0x7, 0x04)
def stKeyLocked : Status := (0x7, 0x05)
def stDeadline : Status := (0x7, 0x06)
def stAtomicCrossed : Status := (0x7, 0x07)
def stInternalTimeout : Status := (0x7, 0x08)
def stHeldExpired : Status := (0x7, 0x09)
def stDegradedRo : Status := (0x7, 0x0A)

/-- The statuses of an I/O command that carry DNR = 0 (R118). -/
def ioRetry : List Status := [stOk, stDataTransfer, stAbortRequested, stSqDeletion, stAnaInaccessible, stAnaTransition,
  stDeadline, stInternalTimeout, stHeldExpired]

/-- The statuses of an admin command that carry DNR = 0 (R548). -/
def adminRetry : List Status := [stOk, stAbortLimit, stAerLimit, stAnaInaccessible, stAnaTransition, stDataTransfer,
  stFwProhibited, stFwMaxTime, stSelfTestRunning, stInternalTimeout]

/-- Do Not Retry of a completion (R118, R548). -/
def dnr (admin : Bool) (st : Status) : Bool := if admin then !adminRetry.contains st else !ioRetry.contains st

/-- Whether a completion makes an Error Information log entry (R122). -/
def entersErrorLog (st : Status) : Bool := !([stOk, stAbortRequested, stSqDeletion].contains st)

/-! ## Kanex statuses (R378) -/

def kOk : Nat := 0x0000
def kBusy : Nat := 0x0001
def kUnknown : Nat := 0x0002
def kNotPermitted : Nat := 0x0003
def kBadParameter : Nat := 0x0004
def kStateConflict : Nat := 0x0005
def kRefusedMoving : Nat := 0x0006
def kLowEnergy : Nat := 0x0007
def kLocked : Nat := 0x0008
def kTimeout : Nat := 0x0009
def kIntegrity : Nat := 0x000A
def kExhausted : Nat := 0x000B
def kPartial : Nat := 0x000C
def kNotPresent : Nat := 0x000D
def kAbandoned : Nat := 0x000E

/-! ## Severities (R469) -/

def sevDebug : Nat := 0
def sevInfo : Nat := 1
def sevNotice : Nat := 2
def sevWarning : Nat := 3
def sevError : Nat := 4
def sevCritical : Nat := 5
def sevAlert : Nat := 6
def sevFatal : Nat := 7

/-- One time-base value before another, modulo 2^32 (R276). -/
def timeBefore (a b : Nat) : Bool :=
  let x := (b + 2 ^ 32 - a % 2 ^ 32) % 2 ^ 32
  decide (0 < x) && decide (x < 2 ^ 31)

end Sys2Proof.Machine
end

