-- ==== Sys2Proof/Machine/Passport.lean ====
section
/-! DEFINITION. What the die reads of a berth: the fields of its 512-byte passport (R224) and of a copy of its 64-byte membership
label (R261). Both are little-endian. -/

namespace Sys2Proof

/-! ## The passport (R224) -/

/-- n bytes of the passport from an offset. -/
def Passport.val (x : Passport) (off n : Nat) : Nat := Machine.leAt x.raw off n

/-- MAGIC, ASCII "BPST". -/
def Passport.magicOk (x : Passport) : Bool := x.raw.take 4 == [0x42, 0x50, 0x53, 0x54]
/-- PVER, the layout version, 1: no check of R225 looks at it. -/
def Passport.pver (x : Passport) : Nat := x.val 4 2
def Passport.plen (x : Passport) : Nat := x.val 6 2
def Passport.blpMin (x : Passport) : Nat := x.val 8 1
def Passport.blpMax (x : Passport) : Nat := x.val 9 1
def Passport.btype (x : Passport) : Nat := x.val 10 2
/-- VENDOR, MODEL and SERIAL, 16 bytes of ASCII each, and MFGDATE, days since 2000-01-01. -/
def Passport.vendor (x : Passport) : List Byte := (x.raw.drop 12).take 16
def Passport.model (x : Passport) : List Byte := (x.raw.drop 28).take 16
def Passport.serial (x : Passport) : List Byte := (x.raw.drop 44).take 16
def Passport.mfgDate (x : Passport) : Nat := x.val 60 4
def Passport.dies (x : Passport) : Nat := x.val 64 1
def Passport.planes (x : Passport) : Nat := x.val 65 1
def Passport.bits (x : Passport) : Nat := x.val 66 1
/-- BUS: 0 ONFI 5.x, 1 JESD230-compatible. -/
def Passport.bus (x : Passport) : Nat := x.val 67 1
def Passport.pageData (x : Passport) : Nat := x.val 68 2
def Passport.pageSpare (x : Passport) : Nat := x.val 70 2
def Passport.puPerBlock (x : Passport) : Nat := x.val 72 2
def Passport.blocks (x : Passport) : Nat := x.val 74 2
def Passport.peRated (x : Passport) : Nat := x.val 76 2
def Passport.sysBlocks (x : Passport) : Nat := x.val 78 2
def Passport.readDisturb (x : Passport) : Nat := x.val 80 4
def Passport.retentionDays (x : Passport) : Nat := x.val 84 4
/-- Times: reads and programs in µs, erases in units of 10 µs. -/
def Passport.tReadTyp (x : Passport) : Nat := x.val 88 2
def Passport.tReadMax (x : Passport) : Nat := x.val 90 2
def Passport.tProgTyp (x : Passport) : Nat := x.val 92 2
def Passport.tProgMax (x : Passport) : Nat := x.val 94 2
def Passport.tEraseTyp (x : Passport) : Nat := x.val 96 2
def Passport.tEraseMax (x : Passport) : Nat := x.val 98 2
def Passport.tSuspendMax (x : Passport) : Nat := x.val 100 2
def Passport.maxSuspends (x : Passport) : Nat := x.val 102 1
def Passport.qdepth (x : Passport) : Nat := x.val 103 1
def Passport.pMax (x : Passport) : Nat := x.val 104 4
def Passport.tempWarn (x : Passport) : Nat := x.val 108 4
/-- RO_FADDR: a read-offset feature address, 0 = unused. -/
def Passport.roFaddr (x : Passport) (i : Nat) : Nat := x.val (128 + i) 1
/-- RO_MAP of thresholds 1 to 7, numbered from 0: (address index x 4) + parameter index. -/
def Passport.roMap (x : Passport) (t : Nat) : Nat := x.val (132 + t) 1
def Passport.roSets (x : Passport) : Nat := x.val 139 1
/-- RO_TABLE: the offset of a set for a threshold, as its byte. -/
def Passport.roOffset (x : Passport) (set t : Nat) : Nat := x.val (144 + 7 * set + t) 1
/-- TUNNEL_ALLOW: the first command bytes allowed, 0x00 = unused. -/
def Passport.tunnelAllow (x : Passport) : List Nat := ((List.range 32).map (fun i => x.val (256 + 4 * i) 1)).filter (· != 0)
def Passport.pcrc (x : Passport) : Nat := x.val 508 4
/-- PCRC is the CRC-32C over bytes 0 to 507. -/
def Passport.pcrcOk (x : Passport) : Bool := (Machine.crc32c (Machine.padTo 508 x.raw)).toNat == x.pcrc

/-! ## The membership label (R261) -/

/-- A copy whose MAGIC, ASCII "BMBR", and LCRC are good. -/
def Label.good (l : Label) : Bool :=
  l.raw.take 4 == [0x42, 0x4D, 0x42, 0x52] && (Machine.crc32c (Machine.padTo 60 l.raw)).toNat == Machine.leAt l.raw 60 4
def Label.sysid (l : Label) : BitVec 64 := BitVec.ofNat 64 (Machine.leAt l.raw 8 8)
def Label.dieser (l : Label) : BitVec 64 := BitVec.ofNat 64 (Machine.leAt l.raw 16 8)
def Label.anagrp (l : Label) : Nat := Machine.leAt l.raw 24 1
def Label.rgroup (l : Label) : Nat := Machine.leAt l.raw 25 1
def Label.mgen (l : Label) : Nat := Machine.leAt l.raw 32 8

/-- A copy as the die writes it. -/
def Label.make (sysid dieser : BitVec 64) (anagrp rgroup mgen : Nat) : Label :=
  let body := [0x42, 0x4D, 0x42, 0x52] ++ Machine.le 2 1 ++ Machine.le 2 0 ++ Machine.le 8 sysid.toNat ++ Machine.le 8 dieser.toNat
    ++ Machine.le 1 anagrp ++ Machine.le 1 rgroup ++ Machine.le 6 0 ++ Machine.le 8 mgen ++ Machine.le 8 0 ++ Machine.le 8 0 ++ Machine.le 4 0
  { raw := body ++ Machine.le 4 (Machine.crc32c body).toNat }

/-- The first good copy of those read, or none. -/
def firstGood (ls : List Label) : Option Label := ls.find? Label.good

end Sys2Proof
end

