-- ==== Sys2Proof/Machine/Ops.lean ====
section
/-! DEFINITION. The named operations that the meanings share: reading and changing one entry of each table of the die,
free values, outputs, the idle tick, the logbook (R468 to R474), asynchronous events (R549), FERR (R56), the messages of
a vector (R401 to R404) and the ends of a command (R81 to R85, R109). -/

namespace Sys2Proof.Machine

/-! ## Entries of the tables -/

def Die.fn (d : Die) (n : Nat) : Func := Tbl.get {} d.funcs n
def Die.updFn (d : Die) (n : Nat) (f : Func → Func) : Die := { d with funcs := Tbl.upd {} d.funcs n f }
def Die.tenant (d : Die) (n : Nat) : Tenant := Tbl.get {} d.tenants n
def Die.updTenant (d : Die) (n : Nat) (f : Tenant → Tenant) : Die := { d with tenants := Tbl.upd {} d.tenants n f }
def Die.tag (d : Die) (t : Nat) : Tag := Tbl.get {} d.qe.tags t
def Die.updTag (d : Die) (t : Nat) (f : Tag → Tag) : Die :=
  { d with qe := { d.qe with tags := Tbl.upd {} d.qe.tags t f } }
def Die.ns (d : Die) (n : Nat) : Ns := Tbl.get {} d.nss n
def Die.updNs (d : Die) (n : Nat) (f : Ns → Ns) : Die := { d with nss := Tbl.upd {} d.nss n f }
def Ns.zone (n : Ns) (z : Nat) : Zone := Tbl.get {} n.zones z
def Ns.updZone (n : Ns) (z : Nat) (f : Zone → Zone) : Ns := { n with zones := Tbl.upd {} n.zones z f }
def Die.zone (d : Die) (n z : Nat) : Zone := (d.ns n).zone z
def Die.updZone (d : Die) (n z : Nat) (f : Zone → Zone) : Die := d.updNs n (fun x => x.updZone z f)
def Ns.entry (n : Ns) (l : Nat) : LoafEntry := Tbl.get {} n.map l
def Ns.crumb (n : Ns) (x : Nat) : Crumb := Tbl.get {} n.crumbs x
def Die.port (d : Die) (p : Nat) : Port := Tbl.get {} d.bp.ports p
def Die.updPort (d : Die) (p : Nat) (f : Port → Port) : Die :=
  { d with bp := { d.bp with ports := Tbl.upd {} d.bp.ports p f } }
def Die.chan (d : Die) (c : Nat) : Chan := Tbl.get {} d.dc.chans c
def Die.updChan (d : Die) (c : Nat) (f : Chan → Chan) : Die :=
  { d with dc := { d.dc with chans := Tbl.upd {} d.dc.chans c f } }
def Die.slot (d : Die) (k : Nat) : Slot := Tbl.get {} d.cl.slots k
def Die.updSlot (d : Die) (k : Nat) (f : Slot → Slot) : Die :=
  { d with cl := { d.cl with slots := Tbl.upd {} d.cl.slots k f } }
def Die.ru (d : Die) (r : Nat) : Ru := Tbl.get {} d.rc.rus r
def Die.updRu (d : Die) (r : Nat) (f : Ru → Ru) : Die := { d with rc := { d.rc with rus := Tbl.upd {} d.rc.rus r f } }
def Die.group (d : Die) (g : Nat) : Group := Tbl.get {} d.rc.groups g
def Die.updGroup (d : Die) (g : Nat) (f : Group → Group) : Die :=
  { d with rc := { d.rc with groups := Tbl.upd {} d.rc.groups g f } }
def Die.block (d : Die) (b : Nat) : Block := Tbl.get {} d.rc.blocks b
def Die.updBlock (d : Die) (b : Nat) (f : Block → Block) : Die :=
  { d with rc := { d.rc with blocks := Tbl.upd {} d.rc.blocks b f } }
def Die.dsch (d : Die) (k : Nat) : DieSch := Tbl.get {} d.sch.dies k
def Die.updDsch (d : Die) (k : Nat) (f : DieSch → DieSch) : Die :=
  { d with sch := { d.sch with dies := Tbl.upd {} d.sch.dies k f } }
def Die.src (d : Die) (n : Nat) : Src := Tbl.get {} d.mc.srcs n
def Die.updSrc (d : Die) (n : Nat) (f : Src → Src) : Die := { d with mc := { d.mc with srcs := Tbl.upd {} d.mc.srcs n f } }
def Die.sensor (d : Die) (n : Nat) : Sensor := Tbl.get {} d.aon.sensors n
def Die.updSensor (d : Die) (n : Nat) (f : Sensor → Sensor) : Die :=
  { d with aon := { d.aon with sensors := Tbl.upd {} d.aon.sensors n f } }
def Die.qpos (d : Die) (p : Nat) : Pos := Tbl.get {} d.ql.pos p
def Die.updQpos (d : Die) (p : Nat) (f : Pos → Pos) : Die := { d with ql := { d.ql with pos := Tbl.upd {} d.ql.pos p f } }
def Func.vec (f : Func) (v : Nat) : Vec := Tbl.get {} f.vecs v
def Func.updVec (f : Func) (v : Nat) (g : Vec → Vec) : Func := { f with vecs := Tbl.upd {} f.vecs v g }
def Func.sq (f : Func) (q : Nat) : Sq := Tbl.get {} f.sqs q
def Func.updSq (f : Func) (q : Nat) (g : Sq → Sq) : Func := { f with sqs := Tbl.upd {} f.sqs q g }
def Func.cq (f : Func) (q : Nat) : Cq := Tbl.get {} f.cqs q
def Func.updCq (f : Func) (q : Nat) (g : Cq → Cq) : Func := { f with cqs := Tbl.upd {} f.cqs q g }
def Die.updMbx (d : Die) (n : Nat) (f : Mbx → Mbx) : Die := d.updFn n (fun x => { x with mbx := f x.mbx })

/-- The always-on time base, µs. -/
def Die.now (d : Die) : Nat := d.aon.time

/-- Whether the die has a host link: a worker's modules stay powered down, and it answers no host (R2, R3). -/
def Die.hasHostLink (d : Die) : Bool := d.life.manager && !d.life.partPW

/-- Whether a function is present to the host: on a die with a host link the PF, or a VF enabled by SR-IOV (R3, R48). -/
def Die.fnPresent (d : Die) (n : Nat) : Bool := d.hasHostLink && (n == 0 || (d.link.vfEnable && decide (n ≤ d.link.numVfs)))

/-- Whether a mailbox takes a request: a present function's of the host, or on a worker the mailbox under whose number the manager
forwards a command (R376, R494). -/
def Die.mbxPresent (d : Die) (n : Nat) : Bool := d.fnPresent n || !d.hasHostLink

/-- The UCIe islands that a die without a host link keeps powered down (R3). -/
def Die.noModules (d : Die) : List Nat := if d.hasHostLink then [] else List.range' 32 8

/-- GATED_ISLAND_WAKE (R18): the island wakes, unless it is fenced or failed, or a UCIe island of a worker (R3). -/
def Die.islandWake (d : Die) (i : Nat) : Die :=
  if d.life.fencedIslands.contains i || d.noModules.contains i then d else { d with life := { d.life with gated := d.life.gated.filter (fun x => x != i) } }

/-- R18: a data-path request that reaches an island: a gated island is woken and the request waits; else it goes on. -/
def Die.atIsland (d : Die) (i : Nat) (f : Die → Die) : Die := if d.life.gated.contains i then d.islandWake i else f d

/-! ## Memory of byte-addressed areas: the canonical list (log entry 11) -/

/-- The byte at an address; an unlisted address reads as zero. -/
def Memory.read : Memory → Nat → Byte
  | [], _ => 0
  | (a, b) :: r, x => if x = a then b else Memory.read r x

/-- A byte stored, in canonical form: addresses rise strictly and no entry is zero. -/
def Memory.write : Memory → Nat → Byte → Memory
  | [], x, v => if v = 0 then [] else [(x, v)]
  | (a, b) :: r, x, v =>
    if x < a then (if v = 0 then (a, b) :: r else (x, v) :: (a, b) :: r)
    else if x = a then (if v = 0 then r else (x, v) :: r)
    else (a, b) :: Memory.write r x v

/-- The canonical form, from a lowest address on. -/
def Memory.wfFrom : Nat → Memory → Bool
  | _, [] => true
  | lo, (a, b) :: r => decide (lo ≤ a) && b != 0 && Memory.wfFrom (a + 1) r

/-- The canonical form of a memory. -/
def Memory.wf (m : Memory) : Bool := Memory.wfFrom 0 m

/-- Bytes stored from an address on. -/
def Memory.writeAll : Memory → Nat → List Byte → Memory
  | m, _, [] => m
  | m, a, b :: r => Memory.writeAll (Memory.write m a b) (a + 1) r

/-! ## Free values, outputs, time -/

/-- A value the spec leaves open: the next of the stream of Config.free (log entry 2). -/
def Die.freeVal (d : Die) : Nat := Config.free d.free

/-- The stream moved on past the value just drawn. -/
def Die.drawn (d : Die) : Die := { d with free := d.free + 1 }

/-- Whether an output is a TLP of the host link. -/
def Out.isTlp : Out → Bool
  | .cqe .. | .msix .. | .dataOut .. | .logPage .. | .unsupportedRequest .. | .readValue .. => true
  | _ => false

/-- A TLP that has to be sent wakes the link from L1 (R45). -/
def Link.woken (l : Link) : Link := if l.st == .l1 then { l with st := .l0 } else l

/-- The host link woken for a transfer of the data path: from L1 (R45), and its modules' islands where they are gated (R18). The
transfer goes on in the same step (log entry 187). -/
def Die.hostWake (d : Die) : Die :=
  { d with
    link := d.link.woken
    life := { d.life with gated := d.life.gated.filter (fun i => !(decide (32 ≤ i) && decide (i < 40)) || d.life.fencedIslands.contains i || d.noModules.contains i) } }

/-- Something sent to the outside; a TLP wakes the host link first. -/
def Die.emit (d : Die) (o : Out) : Die := let d := if o.isTlp then d.hostWake else d; { d with out := o :: d.out }

/-- One microsecond of the always-on time base (R510); log entry 12. -/
def Die.tick (d : Die) : Die := { d with aon := { d.aon with time := d.aon.time + 1 } }

/-- The message class TIME (R492). -/
def quayTime : Nat := 5

/-- A message put on the Quay link of a position; its port's island wakes where it is gated (R18). -/
def Die.quaySend (d : Die) (position cls value : Nat) : Die := (d.islandWake (48 + position / 4)).emit (.wireQuay position cls value)

/-- A message of class MGMT (R492). -/
def Die.quayMgmtSend (d : Die) (position : Nat) (m : QuayMgmtMsg) : Die := (d.islandWake (48 + position / 4)).emit (.wireMgmt position m)

/-- A message of class KEY (R323, R492). -/
def Die.quayKeySend (d : Die) (position : Nat) (m : QuayKeyMsg) : Die := (d.islandWake (48 + position / 4)).emit (.wireKey position m)

/-- The positions whose workers serve, and so apply at once what is told to every die. -/
def Die.servingWorkers (d : Die) : List Nat :=
  if d.life.manager then (d.ql.pos.filter (fun (e : Nat × Pos) => e.2.st == .serving || e.2.st == .leaving)).map (fun e => e.1) else []

/-- A message of class CMD, DATA or CPL (R492, R494). -/
def Die.quayOut (d : Die) (position : Nat) (o : Out) : Die := (d.islandWake (48 + position / 4)).emit o

/-! ## The logbook (R468 to R474) -/

/-- The ANA group of the die (R65). -/
def Die.anaGroup (d : Die) : Nat := if d.life.manager then 1 else d.life.quayId + 2

/-- OPSEC (R473): seconds with the always-on island powered. -/
def Die.opsec (d : Die) : Nat := d.lb.opsecBase + (d.aon.time - d.lb.opsecAt) / 1000000

/-- Bit i of the locks in force (R385). -/
def Die.lockBit (d : Die) (i : Nat) : Bool := d.mc.policyForce.getLsbD i
def Die.jtagLock (d : Die) : Bool := d.lockBit 0
def Die.updateLock (d : Die) : Bool := d.lockBit 1
def Die.testLock (d : Die) : Bool := d.lockBit 2

/-- The byte that holds SEV, RES and RESTORED (R468). -/
def LogRec.sevByte (r : LogRec) : Nat := r.sev + 8 * bit r.res + 16 * bit r.restored

/-- Bytes 0 to 59 of a record (R468). -/
def LogRec.body (r : LogRec) : List Byte :=
  le 8 r.seq ++ le 6 r.opsec ++ le 2 r.rep ++ le 4 r.pcycle ++ le 1 r.sevByte ++ le 1 r.anagrp ++ le 2 r.code
    ++ le 2 r.inst ++ le 2 0 ++ le 4 r.last ++ padTo 28 r.payload

/-- The 64 bytes of a record, CRC last (R468). -/
def LogRec.bytes (r : LogRec) : List Byte := r.body ++ le 4 (crc32c r.body).toNat

/-- R470: the record with the lowest SEQ among those of a severity no higher than sev, in a ring kept newest first. -/
def ringVictim (sev : Nat) (ring : List LogRec) : Option LogRec :=
  ring.foldl (fun a r => if r.sev ≤ sev then some r else a) none

/-- R471: the newest record repeated once more, LAST being seconds from its OPSEC. -/
def LogRec.again (r : LogRec) (now : Nat) : LogRec :=
  { r with rep := r.rep + 1, last := min 0xFFFFFFFF (now - r.opsec) }

/-- R471: whether an occurrence is a repeat of the record with the highest SEQ, which is stored and not full. -/
def Logbook.repeats (l : Logbook) (code inst : Nat) (payload : List Byte) : Bool :=
  l.newestStored && match l.ring with
    | [] => false
    | r :: _ => r.seq == l.newest && r.code == code && r.inst == inst && r.payload == payload && r.rep < 0xFFFF

/-- R472: the next SEQ, its block reserved first. -/
def Logbook.consume (l : Logbook) : Logbook :=
  { l with newest := l.newest + 1, seqBlock := max l.seqBlock ((l.newest + 1) / Config.block20) }

/-- R474: the gathered segment written to the system area with the next segment sequence. -/
def Logbook.flush (l : Logbook) (opsec : Nat) : Logbook :=
  match l.seg with
  | [] => l
  | r :: rs =>
    { l with
      sys := ((((r :: rs).getLast?).map (fun x => x.seq)).getD 0, r.seq, r :: rs) :: l.sys.take 255
      sysNext := l.sysNext + 1, seg := [], opsecSaved := max l.opsecSaved opsec }

/-- R470, R474: a new record stored in the ring, the reserve and the gathered segment. -/
def Logbook.store (l : Logbook) (r : LogRec) (now : Nat) : Logbook :=
  let l := { l with
    ring := r :: l.ring
    newestStored := true
    reserve := if r.sev = sevFatal then (r :: l.reserve).take Config.reserveSize else l.reserve
    written := Tbl.upd 0 l.written r.sev (satInc 0xFFFFFFFF)
    imageDue := l.imageDue || decide (sevError ≤ r.sev)
    seg := if sevNotice ≤ r.sev then r :: l.seg else l.seg
    segAt := if l.seg.isEmpty then now else l.segAt }
  if 1023 ≤ l.seg.length then l.flush r.opsec else l

/-- R470: a new record takes a free slot, or the slot of the lowest SEQ of its severity or lower, or is dropped. -/
def Logbook.add (l : Logbook) (r : LogRec) (now : Nat) : Logbook :=
  if l.ring.length < Config.ringSize then l.store r now
  else match ringVictim r.sev l.ring with
    | some v =>
      ({ l with ring := l.ring.filter (fun x => x.seq != v.seq), loss := max l.loss v.seq } : Logbook).store r now
    | none => { l with
        newestStored := false, loss := max l.loss r.seq, drops := Tbl.upd 0 l.drops r.sev (satInc 0xFFFFFFFF) }

/-- An occurrence for the logbook (R470 to R472): no record while TEST_LOCK is set and it is DEBUG, a repeat of the
newest record, or a new record. -/
def Die.record (d : Die) (code sev inst : Nat) (payload : List Byte) : Die :=
  let p := padTo 28 payload
  if sev = sevDebug ∧ d.testLock = true then d
  else if d.lb.repeats code inst p then
    let f := fun (r : LogRec) => if r.seq = d.lb.newest then r.again d.opsec else r
    { d with lb := { d.lb with
      ring := d.lb.ring.map f, reserve := d.lb.reserve.map f, seg := d.lb.seg.map f } }
  else
    let l := d.lb.consume
    let r : LogRec := { seq := l.newest, opsec := d.opsec, rep := 1, pcycle := l.pcycle, sev := sev, res := sev == sevFatal,
                        restored := false, anagrp := d.anaGroup, code := code, inst := inst, last := 0, payload := p }
    { d with lb := l.add r d.now }

/-- No instance (R468). -/
def noInst : Nat := 0xFFFF

/-! ## Asynchronous events (R549) and FERR (R56) -/

/-- The tag's status fixed: it waits in POSTING for its completion entry (R85). -/
def Die.finish (d : Die) (t : Nat) (st : Status) : Die :=
  d.updTag t (fun x => { x with st := .posting, sct := st.1, sc := st.2 })

/-- The status fixed with DW0. -/
def Die.finishDw0 (d : Die) (t : Nat) (st : Status) (dw0 : Word) : Die :=
  d.updTag t (fun x => { x with st := .posting, sct := st.1, sc := st.2, dw0 := dw0 })

/-- DW0 of the completion that posts an event: type, information, log page (PRESUMED, log entry 10). -/
def Aen.dw0 (e : Aen) : Word := BitVec.ofNat 32 (e.etype % 8 + 256 * (e.info % 256) + 65536 * (e.page % 256))

/-- R549: an event posted on one controller that has a request outstanding, or held; of an event type that is posted and
not cleared, a further event is held. -/
def Die.post (d : Die) (n : Nat) (e : Aen) : Die :=
  let f := d.fn n
  match f.aers with
  | t :: r =>
    if f.unread.any (fun u => u.etype == e.etype) then
      d.updFn n (fun x => { x with held := if x.held.contains e then x.held else x.held ++ [e] })
    else (d.updFn n (fun x => { x with aers := r, unread := x.unread ++ [e] })).finishDw0 t stOk e.dw0
  | [] => d.updFn n (fun x => { x with held := if x.held.contains e then x.held else x.held ++ [e] })

/-- The functions whose controller serves (R307). -/
def Die.readyFns (d : Die) : List Nat := (d.funcs.filter (fun e => e.2.st == .ready)).map (fun e => e.1)

/-- Asynchronous Event Configuration (0x0B) of a function. -/
def Func.aec (f : Func) : Nat := Tbl.get 0 f.feats 0x0B

/-- A SMART/Health event (R549) on every controller whose configuration enables the critical-warning bit. -/
def Die.smartEvent (d : Die) (info bitNo : Nat) : Die :=
  if d.life.manager then d.readyFns.foldl (fun x n =>
    if (x.fn n).aec.testBit bitNo then x.post n { etype := 1, info := info, page := 0x02 } else x) d
  else d.quayMgmtSend d.life.quayId (.event 1 info 0x02 bitNo)

/-- A vendor-specific event (R549) on every controller. -/
def Die.vendorEvent (d : Die) (info page : Nat) : Die :=
  if d.life.manager then d.readyFns.foldl (fun x n => x.post n { etype := 7, info := info, page := page }) d
  else d.quayMgmtSend d.life.quayId (.event 7 info page 0)

/-- A notice (R64 OAES) on one controller whose configuration enables it. -/
def Die.notice (d : Die) (n info page bitNo : Nat) : Die :=
  if (d.fn n).aec.testBit bitNo then d.post n { etype := 2, info := info, page := page } else d

/-- A Namespace Attribute Changed notice with its Changed Namespace List entry (log entry 130). -/
def Die.nsChanged (d : Die) (n nsid : Nat) : Die :=
  (d.updFn n (fun x => { x with changedNs := if x.changedNs.contains nsid then x.changedNs else x.changedNs ++ [nsid] })).notice n 0x00 0x04 8

/-- FERR with the bits of a mask cleared; FIRST clears with the last of them (R56). -/
def ferrClear (w m : Word) : Word :=
  let w' := w &&& ~~~m
  if w' &&& 0x1FF#32 = 0#32 then w' &&& 0xFF00FFFF#32 else w'

/-- FERR with one bit set and FIRST kept (R56). -/
def ferrSet (w : Word) (i : Nat) : Word :=
  let w' := w ||| BitVec.ofNat 32 (2 ^ i)
  if (w &&& 0x1FF#32) = 0#32 then (w' &&& 0xFF00FFFF#32) ||| BitVec.ofNat 32 ((i + 1) * 65536) else w'

/-- A FERR bit set by a function's error; unless masked it raises an asynchronous event of that function, whose type,
information and page the spec leaves open (log entry 13). -/
def Die.ferr (d : Die) (n i : Nat) : Die :=
  let d' := d.updFn n (fun x => { x with ferr := ferrSet x.ferr i })
  if (d.fn n).ferrMask.getLsbD i then d'
  else
    let v := d'.freeVal
    d'.drawn.post n { etype := v % 8, info := v / 8 % 256, page := v / 2048 % 256 }

/-! ## Vectors (R399 to R404) -/

def Vec.cd (v : Vec) : Bool := v.vmod.getLsbD 18
def Vec.urg (v : Vec) : Bool := v.vmod.getLsbD 19
def Vec.own (v : Vec) : Bool := v.vmod.getLsbD 20

/-- The effective THR of a vector (R401). -/
def Func.thr (f : Func) (v : Nat) : Nat :=
  ((if (f.vec v).own then (f.vec v).vmod else f.ndef) &&& 0xFF#32).toNat

/-- The effective TIME of a vector, µs (R401): 0 with THR above 1 counts as 1,000. -/
def Func.time (f : Func) (v : Nat) : Nat :=
  let w := if (f.vec v).own then (f.vec v).vmod else f.ndef
  let t := ((w >>> 8) &&& 0x3FF#32).toNat
  if t = 0 ∧ 1 < f.thr v then 1000 else t

/-- The vector's message sent, or its PBA bit set while it is masked; the count and the timer start anew (R401, R403). -/
def Die.sendVec (d : Die) (n v : Nat) : Die :=
  let f := d.fn n
  let x := f.vec v
  if f.d3 then d
  else if x.mask || f.funcMask then d.updFn n (fun g => g.updVec v (fun y => { y with pba := true, count := 0, due := none }))
  else (d.updFn n (fun g => g.updVec v (fun y => { y with pba := false, count := 0, due := none }))).emit
    (.msix n v x.addr x.data)

/-- One entry counted for a vector (R401); none while MSI-X Enable is 0 (R404). urgent: class 0; admin: on the admin CQ. -/
def Die.countVec (d : Die) (n v : Nat) (urgent admin : Bool) : Die :=
  let f := d.fn n
  if f.msixEn then
    let x := f.vec v
    let d' := d.updFn n (fun g => g.updVec v (fun y =>
      { y with count := satInc 255 y.count, due := if y.due.isSome then y.due else some (d.now + f.time v) }))
    if decide (f.thr v ≤ satInc 255 x.count) || x.cd || (x.urg && urgent) || admin then d'.sendVec n v else d'
  else d

/-- The vectors a function holds (R51), and the vector a selector names (R366): beyond the allocation, vector 0. -/
def Die.vecOf (d : Die) (n v : Nat) : Nat := if v < (d.tenant n).vectors then v else 0

/-! ## Ends of a command (R83, R85, R109) -/

/-- A command not at its point of no return (R85). -/
def Tag.early (x : Tag) : Bool := x.st == .bound || x.st == .admitted || x.st == .media || x.st == .pull || x.st == .staged

/-- A tag returned to FREE: the generation goes up, everything else is released (R83, R85). -/
def Tag.freed (t : Tag) : Tag := { gen := t.gen + 1 }

/-- The entries that a command holds in the range-lock table released (R91). -/
def Die.unlock (d : Die) (t : Nat) : Die := { d with qe := { d.qe with locks := d.qe.locks.filter (fun l => l.tag != t) } }

/-- A tag freed, its range locks released if they have not been (R83, R85); a Firmware Commit that is freed in the hold of its own
activation is waited for no more (R115). -/
def Die.freeTag (d : Die) (t : Nat) : Die :=
  let d := (d.updTag t Tag.freed).unlock t
  if d.fw.liveTag = some t then { d with fw := { d.fw with liveTag := none, liveGone := true } } else d

/-- The tags in flight of a function (R85). -/
def Die.tagsOf (d : Die) (n : Nat) : List Nat :=
  (d.qe.tags.filter (fun e => e.2.st != .free && e.2.fn == n)).map (fun e => e.1)

/-- Every tag in flight of a function freed without completion (R109). -/
def Die.freeTagsOf (d : Die) (n : Nat) : Die := (d.tagsOf n).foldl (fun x t => x.freeTag t) d

/-- The effective class of a command (R79): the tenant's, or the larger of it and a valid override. -/
def effClass (tenantCls : Nat) (vhd : Word) : Nat :=
  if vhd.getLsbD 10 then max tenantCls ((vhd >>> 8) &&& 3#32).toNat else tenantCls

/-- LCC of the service report (R79, R82): an override for a more urgent class than the tenant's was clamped. -/
def clamped (tenantCls : Nat) (vhd : Word) : Bool := vhd.getLsbD 10 && decide (((vhd >>> 8) &&& 3#32).toNat < tenantCls)

end Sys2Proof.Machine
end

