-- ==== Sys2Proof/Machine/FwCore.lean ====
section
/-! DEFINITION. Firmware slots and the activation record: which slot runs, and what the pilot loader does at a start (R446,
R450, R454 to R456, R464). -/

namespace Sys2Proof.Machine

/-- A slot by number: 0 A, 1 B. -/
def Fw.slot (f : Fw) (i : Nat) : FwSlot := if i = 0 then f.a else f.b
def Fw.setSlot (f : Fw) (i : Nat) (s : FwSlot) : Fw := if i = 0 then { f with a := s } else { f with b := s }

/-! ## Images (R442 to R446) -/

/-- A header read from its bytes (R442). -/
def ImgHeader.ofBytes (b : List Byte) : ImgHeader :=
  let f := leAt b
  { magic := f 0 4, fmt := f 4 2, hlen := f 6 2, nblocks := f 8 4, clen := f 12 4, step := f 16 2, kver := f 18 1, flags := f 19 1, fwVer := f 20 4,
    minLive := f 24 4, svn := f 28 4, svnFloor := f 32 4, cfgFmt := f 36 2, cfgMin := f 38 2, manOff := f 40 4, nparts := f 44 2, sigOff := f 48 4 }

/-- A manifest entry read from its 64 bytes (R443); the digest is the number its 48 bytes write, the first the highest. -/
def Part.ofBytes (b : List Byte) : Part :=
  { type := leAt b 0 1, pflags := leAt b 1 1, offset := leAt b 4 4, length := leAt b 8 4, ver := leAt b 12 4
    digest := BitVec.ofNat 384 (leVal ((b.drop 16).take 48).reverse) }

/-- A manifest read from its bytes (R443). -/
def manifestOf (b : List Byte) (n : Nat) : List Part := (List.range n).map (fun i => Part.ofBytes ((b.drop (64 * i)).take 64))

/-- Whether a part may be switched in an activation hold: its LIVE flag, of a type that can be (R443, R444). -/
def Part.live (p : Part) : Bool := p.pflags % 2 == 1 && !([2, 7, 8] : List Nat).contains p.type

/-- Header of the image a part leaves manufacture with (log entry 6). -/
def factoryImage : ImgHeader :=
  { magic := 0x41465653, fmt := 1, hlen := 256, nblocks := Config.fwImage 0 % 768 + 1, clen := Config.fwImage 6 % 2 ^ 32, step := 0xB0, kver := 3
    flags := Config.fwImage 1 % 256, fwVer := Config.fwVer % 2 ^ 32, minLive := Config.fwImage 2 % 2 ^ 32, svn := Config.fwSvn % 2 ^ 32, svnFloor := 0
    cfgFmt := 1, cfgMin := 1, manOff := Config.fwImage 4 % 2 ^ 32, nparts := Config.fwImage 3 % 32 + 1, sigOff := Config.fwImage 5 % 2 ^ 32 }

/-- Header of the image in a slot; a slot without one that is not EMPTY holds the image of manufacture. -/
def FwSlot.image (s : FwSlot) : ImgHeader := match s.hdr with | some b => ImgHeader.ofBytes b | none => factoryImage

/-- The parts of R444, each at most once and HARBOUR among them, within the content after the header and before SIG_OFF, none over
another (R443, R444, R446; log entry 184). -/
def partsGood (h : ImgHeader) (ps : List Part) : Bool :=
  decide (1 ≤ ps.length) && decide (ps.length ≤ 32) && ps.length == h.nparts && ps.any (fun p => p.type == 1) && decide (h.sigOff ≤ h.nblocks * 65532)
    && ps.all (fun p => decide (1 ≤ p.type) && decide (p.type ≤ 10) && decide (256 ≤ p.offset) && decide (p.offset + p.length ≤ h.sigOff))
    && decide (ps.Pairwise (fun a b => a.type ≠ b.type ∧ (a.offset + a.length ≤ b.offset ∨ b.offset + b.length ≤ a.offset)))

/-- A signing key that is accepted: its digest is that of an unrevoked fuse (R445). -/
def Fw.accepts (f : Fw) (signer : BitVec 384) : Bool := (List.range 4).any (fun i => !f.revoked.getLsbD i && Config.signKey i == signer)

/-- The present configuration format lies in CFG_MIN to CFG_FMT (R446). -/
def Fw.formatOk (f : Fw) (h : ImgHeader) : Bool := decide (h.cfgMin ≤ f.cfgFmt) && decide (f.cfgFmt ≤ h.cfgFmt)

/-- R446, but for the block CRCs and SVN: header, signature, digests and parts, and configuration format. -/
def Fw.imageGood (f : Fw) (h : ImgHeader) (v : VerifyFacts) : Bool :=
  let ps := manifestOf v.manifest h.nparts
  h.magic == 0x41465653 && h.fmt == 1 && h.hlen == 256 && h.step == 0xB0 && h.kver == 3 && v.sigOk && f.accepts v.signer && partsGood h ps
    && ps.map (fun p => p.digest) == v.digests && f.formatOk h

/-- FW_VER and SVN of the image in a slot (R442), 0 for EMPTY. -/
def FwSlot.ver (s : FwSlot) : Nat := if s.st == .empty then 0 else s.image.fwVer
def FwSlot.svn (s : FwSlot) : Nat := if s.st == .empty then 0 else s.image.svn

/-- A version as eight uppercase hexadecimal ASCII digits, the highest first (R64). -/
def hexText (v : Nat) : List Nat := (List.range 8).map (fun i => let x := v / 16 ^ (7 - i) % 16; if x < 10 then 0x30 + x else 0x37 + x)

/-- A slot's revision as Firmware Slot Information gives it: spaces for an EMPTY slot (R64). -/
def FwSlot.revision (s : FwSlot) : List Nat := if s.st == .empty then List.replicate 8 0x20 else hexText s.ver

/-- A slot that runs or is on trial (R453). -/
def FwSlot.inUse (s : FwSlot) : Bool := s.st == .running || s.st == .trial

/-- The slot that runs: the new one while it is in TRIAL, else the confirmed one (R450, R454). -/
def Fw.running (f : Fw) : Nat := if f.act.st = 2 then f.act.new.getD f.act.run else f.act.run

/-- FW_VER of the firmware that runs. -/
def Fw.runVer (f : Fw) : Nat := (f.slot f.running).ver

/-! ## The activation record area (R454, R455) -/

/-- A record appended: where it enters a sector, the oldest one, that sector is erased first; the current record lies in the sector before. -/
def ActArea.append (a : ActArea) (r : ActRec) : ActArea :=
  let kept := if a.next % 1024 = 0 then a.recs.filter (fun e => e.1 / 1024 != a.next / 1024) else a.recs
  { recs := Tbl.set kept a.next r, next := (a.next + 1) % 4096 }

/-- The valid record with the highest SEQ; torn: the newest one fails its CRC. -/
def ActArea.newest (a : ActArea) (torn : Bool) : Option ActRec :=
  ((a.recs.filter (fun e => !(torn && (e.1 + 1) % 4096 == a.next))).map (fun e => e.2)).foldl (fun o r => match o with
    | some x => if x.seq < r.seq then some r else some x
    | none => some r) none

/-- A record written in two phases, first to device 0 and then to device 1, and then acted on (R454, R455; that each reads back correct is
log entry 185). -/
def Fw.put (f : Fw) (g : ActRec → ActRec) : Fw :=
  let r := { g f.act with seq := (f.act.seq + 1) % 2 ^ 32 }
  { f with dev0 := f.dev0.append r, dev1 := f.dev1.append r, act := r }

/-- The later of two records. -/
def laterRec (a b : Option ActRec) : Option ActRec :=
  match a, b with
  | some x, some y => if x.seq < y.seq then some y else some x
  | none, y => y
  | x, none => x

/-- The current record found at a start, copied to a device that does not hold it before anything else (R455); whether there is one. -/
def Fw.found (f : Fw) (torn0 torn1 : Bool) : Fw × Bool :=
  let a := f.dev0.newest torn0
  let b := f.dev1.newest torn1
  let drop := fun (x : ActArea) (torn : Bool) => if torn then { x with recs := x.recs.filter (fun e => (e.1 + 1) % 4096 != x.next) } else x
  let f : Fw := { f with dev0 := drop f.dev0 torn0, dev1 := drop f.dev1 torn1 }
  match laterRec a b with
  | some r => ({ f with act := r, dev0 := if a = some r then f.dev0 else f.dev0.append r, dev1 := if b = some r then f.dev1 else f.dev1.append r }, true)
  | none => (f, false)

/-! ## Parts and configuration formats (R444, R462, R463) -/

/-- The version of a part type that runs. -/
def Fw.partVer (f : Fw) (type : Nat) : Nat := (Tbl.get none f.parts type).getD (Config.partVer type)

/-- Every part that a slot's manifest lists switched in; a part it does not list keeps running, and PILOT goes to the older pilot-loader
copy (R444). The old parts are kept for a return. -/
def Fw.switchParts (f : Fw) (i : Nat) : Fw :=
  let ps := (f.slot i).parts
  let f := match ps.find? (fun p => p.type == 2) with
    | some p =>
      let n := ((max f.pilot0.1 f.pilot1.1 + 1) % 2 ^ 32, p.ver)
      if f.pilot0.1 < f.pilot1.1 then { f with pilot0 := n } else { f with pilot1 := n }
    | none => f
  { f with partsOld := f.parts, parts := ps.foldl (fun t p => Tbl.set t p.type (some p.ver)) f.parts }

/-- The configuration in the format of a slot that begins its trial; the old format is kept beside it (R462, R463). -/
def Fw.newFormat (f : Fw) : Fw := { f with cfgFmt := f.act.cfgNew, cfgOther := if f.act.cfgNew = f.act.cfgOld then none else some f.act.cfgOld }

/-- R463: on fallback the new format is discarded, and the old parts run (R460). -/
def Fw.oldFormat (f : Fw) : Fw := { f with cfgFmt := f.act.cfgOld, cfgOther := none, parts := f.partsOld }

/-- The record of a worker brought to its manager's (R498): the slot runs what the manager runs. -/
def Fw.follow (f : Fw) (i : Nat) (r : ActRec) : Fw :=
  let f := f.put (fun a => { r with run := if r.st = 2 then 1 - i else i, new := if r.st = 0 then none else if r.st = 1 then some (1 - i) else some i
                                    svnFloor := max a.svnFloor r.svnFloor })
  { f with cfgFmt := if r.st = 2 then r.cfgNew else r.cfgOld, cfgOther := if r.st = 2 ∧ r.cfgNew ≠ r.cfgOld then some r.cfgOld else none }

/-! ## The pilot loader (R446, R456) -/

/-- Whether a slot holds an image that passes R446: signature and digests as the pilot loader finds them, SVN and configuration format. -/
def Fw.valid (f : Fw) (ok : Nat → Bool) (i : Nat) : Bool :=
  ok i && (f.slot i).st != .empty && (f.slot i).st != .incomplete && decide (f.act.svnFloor ≤ (f.slot i).svn) && f.formatOk (f.slot i).image

/-- A slot as any start leaves it: VERIFIED is held in memory only (R450). -/
def FwSlot.restarted (s : FwSlot) : FwSlot := if s.st == .verified then { s with st := .complete } else s

/-- UPDATE_FALLBACK (R478); the cause's encoding is open (log entry 17). -/
def Die.fallbackRecord (d : Die) (slot sev cause : Nat) : Die :=
  d.record 0x0C0A sev noInst (le 1 slot ++ le 4 (d.fw.slot slot).ver ++ le 1 (Config.openCode 0x0C0A cause))

/-- R456: a trial ends: CONFIRMED with FELL_BACK for the confirmed slot, the new slot FAILED. -/
def Die.fallBack (d : Die) (sev cause : Nat) : Die :=
  let n := d.fw.act.new.getD (1 - d.fw.act.run)
  let f := d.fw.setSlot n { d.fw.slot n with st := .failed }
  let f := f.put (fun a => { a with st := 0, new := none, trials := 0, fellBack := true })
  ({ d with fw := if d.fw.act.st = 2 then f.oldFormat else { f with cfgOther := none } } : Die).fallbackRecord n sev cause

/-- The update state as a start leaves it. -/
def Fw.restarted (f : Fw) : Fw :=
  { f with a := f.a.restarted, b := f.b.restarted, session := none, live := false, liveTag := none, got := [], discarded := false }

/-- R456, CONFIRMED: RUN_SLOT runs, or where it fails R446 the other slot where that one is valid (DEDUCED, log entry 38). -/
def Die.pilotConfirmed (d : Die) (ok : Nat → Bool) : Die × Bool :=
  let d : Die := { d with fw := { d.fw with cfgFmt := d.fw.act.cfgOld } }
  let o := 1 - d.fw.act.run
  if d.fw.valid ok d.fw.act.run then (d, true)
  else if d.fw.valid ok o then
    let d := d.fallbackRecord d.fw.act.run sevError 2
    let f := (d.fw.setSlot d.fw.act.run { d.fw.slot d.fw.act.run with st := .failed }).setSlot o { d.fw.slot o with st := .running }
    ({ d with fw := f.put (fun r => { r with st := 0, run := o, new := none, trials := 0 }) }, true)
  else (d, false)

/-- R456, no valid record: CONFIRMED for the slot that passes R446 with the higher FW_VER. -/
def Die.pilotBlank (d : Die) (ok : Nat → Bool) : Die × Bool :=
  let a := d.fw.valid ok 0
  let b := d.fw.valid ok 1
  if a = false ∧ b = false then (d, false)
  else
    let i := if b ∧ (a = false ∨ (d.fw.slot 0).ver < (d.fw.slot 1).ver) then 1 else 0
    let f := d.fw.setSlot i { d.fw.slot i with st := .running }
    let f := if (f.slot (1 - i)).inUse then f.setSlot (1 - i) { f.slot (1 - i) with st := .complete } else f
    ({ d with fw := { f.put (fun r => { r with st := 0, run := i, new := none, trials := 0 }) with cfgOther := none } }, true)

/-- R456: the pilot loader's action on the current record, and whether a slot could be run. -/
def Die.pilot (d : Die) (torn0 torn1 : Bool) (ok : Nat → Bool) : Die × Bool :=
  let r := d.fw.restarted.found torn0 torn1
  let d : Die := { d with fw := { r.1 with windowFrom := d.now } }
  let a := d.fw.act
  let n := a.new.getD (1 - a.run)
  if r.2 = false then d.pilotBlank ok
  else if a.st = 0 then d.pilotConfirmed ok
  else if d.fw.valid ok n = false then (d.fallBack sevError 1).pilotConfirmed ok
  else if a.st = 1 then
    let f := ((d.fw.setSlot n { d.fw.slot n with st := .trial }).switchParts n).put (fun r => { r with st := 2, trials := 2 })
    ({ d with fw := f.newFormat }, true)
  else if a.trials = 0 then (d.fallBack sevWarning 0).pilotConfirmed ok
  else ({ d with fw := d.fw.put (fun r => { r with trials := r.trials - 1 }) }, true)

end Sys2Proof.Machine
end

