-- ==== Sys2Proof/Machine/Ladder.lean ====
section
/-! DEFINITION. The timeout ladder (R524 to R527, R477, R550): which step an instance takes, and the record of the step. -/

namespace Sys2Proof.Machine

/-- The steps each level of R525 has, lowest first: 1 retry, 2 reset, 3 fence and spare, 4 degrade, 5 fail. -/
def ladderSteps : Nat → List Nat
  | 0 => [2, 3, 4, 5]
  | 1 => [1, 3, 4, 5]
  | 2 => [1, 2, 3, 4]
  | 3 => [1, 2, 3, 4]
  | 4 => [1, 4]
  | 5 => [2, 3, 4, 5]
  | 6 => [1, 2]
  | 7 => [1, 2, 3, 4, 5]
  | 8 => [3]
  | 9 => [1]
  | _ => [1, 3, 4]

/-- The number of an instance's ladder. At level 0, whose instances belong to any subsystem, inst is 4096 times the
subsystem's number, plus the instance. -/
def rungKey (level inst : Nat) : Nat := level * 65536 + inst

/-- The ladder of an instance. -/
def Die.rung (d : Die) (level inst : Nat) : Rung := Tbl.get {} d.life.ladder (rungKey level inst)

/-- The step after one, of those the level has; the last one has none after it. -/
def nextStep (level step : Nat) : Nat := ((ladderSteps level).find? (fun s => decide (step < s))).getD step

/-- The step that a timeout of an instance takes (R524): the first after an idle hour, the next where the step did not clear
the condition or is needed for the third time within 60 s. -/
def Die.ladderStep (d : Die) (level inst : Nat) (notCleared : Bool) : Nat :=
  let r := d.rung level inst
  let first := ((ladderSteps level)[0]?).getD 1
  if r.step = 0 ∨ r.last + 3600000000 ≤ d.now then first
  else if notCleared || decide (2 ≤ (r.uses.filter (fun t => decide (d.now < t + 60000000))).length) then nextStep level r.step
  else r.step

/-- State of an instance after a step (R550). -/
def stepState : Nat → Nat
  | 1 => 0
  | 2 => 1
  | 3 => 2
  | 4 => 3
  | _ => 4

/-- Severity of a step's record (R477); spare: one stands in. -/
def stepSev (step : Nat) (spare : Bool) : Nat :=
  match step with
  | 1 | 2 => sevNotice
  | 3 => if spare then sevWarning else sevError
  | 4 => sevError
  | _ => sevFatal

/-- R524, R526: a step taken by an instance of a subsystem: its rung moved and its record written. -/
def Die.ladderTake (d : Die) (level inst sub step : Nat) (spare : Bool) : Die :=
  let r := d.rung level inst
  let idle := decide (r.last + 3600000000 ≤ d.now) && r.step != 0
  let earlier := if idle then 0 else r.earlier
  let uses := if r.step = step ∧ idle = false then d.now :: r.uses.filter (fun t => decide (d.now < t + 60000000)) else [d.now]
  let r' : Rung := { step := step, earlier := earlier + 1, uses := uses, last := d.now }
  let d := { d with life := { d.life with ladder := Tbl.set d.life.ladder (rungKey level inst) r' } }
  let d : Die := { d with fw := { d.fw with windowErr := d.fw.windowErr || decide (sevError ≤ stepSev step spare) } }
  d.record (sub * 256 + 0xEF + step) (stepSev step spare) (if level = 0 then inst % 4096 else inst) (le 1 level ++ le 1 (stepState step) ++ le 2 earlier)

/-- R524: an instance with no timeout for an hour returns to its first step. -/
def Die.ladderIdle (d : Die) (level inst : Nat) : Die :=
  let r := d.rung level inst
  if r.step ≠ 0 ∧ r.last + 3600000000 ≤ d.now then
    { d with life := { d.life with ladder := Tbl.del d.life.ladder (rungKey level inst) } }
  else d

/-- LADDER_IDLE_RESET (R524). -/
def execLadderIdleReset (level inst : Nat) (s : State) : Host.Outcome State Fault Refusal := s.run (·.ladderIdle level inst)

end Sys2Proof.Machine
end

