-- ==== Sys2Proof/Machine/Units.lean ====
section
/-! DEFINITION. Units and their spares (R30, R34, R480 to R482): the state of a unit of a self-test kind, the spare that
stands in for it, and taking a unit out of service. -/

namespace Sys2Proof.Machine

/-- Instances of a kind (R480): 0 tray bank, 1 lane pair, 2 LDPC instance, 3 harbour core, 4 map-cache bank, 5 temperature
sensor, 6 pace monitor. -/
def kindTotal : Nat → Nat
  | 0 => 100
  | 1 => 104
  | 2 => 544
  | 3 => 17
  | 4 => 32
  | 5 => 64
  | 6 => 64
  | _ => 0

/-- Instances of a kind in service when none has failed (R30). -/
def kindServing : Nat → Nat
  | 0 => 96
  | 1 => 96
  | 2 => 512
  | 3 => 16
  | k => kindTotal k

/-- The subsystem of a kind (R15). -/
def kindSub : Nat → Nat
  | 0 => 10
  | 1 => 9
  | 2 => 8
  | 3 => 12
  | 4 => 4
  | 5 => 14
  | _ => 14

def unitKey (kind inst : Nat) : Nat := kind * 4096 + inst

/-- Where a unit stands. -/
def Die.unit (d : Die) (kind inst : Nat) : UState :=
  Tbl.get (if inst < kindServing kind then .inService else .spare) d.units.st (unitKey kind inst)

def Die.setUnit (d : Die) (kind inst : Nat) (u : UState) : Die :=
  { d with units := { d.units with st := Tbl.set d.units.st (unitKey kind inst) u } }

/-- The spares that may stand in for a unit: those of its kind; of an LDPC instance, its own cluster's (R30). -/
def sparesFor (kind inst : Nat) : List Nat :=
  if kind = 2 then
    let c := if inst < 512 then inst / 16 else inst - 512
    (512 + c) :: List.range' (16 * c) 16
  else List.range (kindTotal kind)

/-- The free spare that takes a unit's work (R30). Which of several free spares does is left open: the one with the lowest number
(DESIGN CHOICE, log entry 149). -/
def Die.freeSpare (d : Die) (kind inst : Nat) : Option Nat :=
  (sparesFor kind inst).find? (fun i => i != inst && d.unit kind i == .spare)

/-- The core that takes a TARGET bit: the core itself, or what stands in for it (R392). -/
def Die.bitCore (d : Die) (core : Nat) : Nat := Tbl.get core d.units.bits core

/-- The TARGET bits of a core taken by another (R392). -/
def Die.passBits (d : Die) (core rcv : Nat) : Die :=
  { d with units := { d.units with bits := (List.range 17).foldl (fun (t : Tbl Nat) j => if d.bitCore j = core then Tbl.set t j rcv else t) d.units.bits } }

/-- A unit moved to a state; where it was in service a free spare takes its work (R30), of a core its TARGET bits too. -/
def Die.takeOut (d : Die) (kind inst : Nat) (u : UState) : Die :=
  match (if d.unit kind inst == .inService then d.freeSpare kind inst else none) with
  | some sp =>
    let d := (d.setUnit kind sp .inService).setUnit kind inst u
    if kind = 3 then d.passBits inst sp else d
  | none => d.setUnit kind inst u

/-- A unit marked unusable in the unit map (R481). -/
def Die.markUnusable (d : Die) (kind inst : Nat) : Die :=
  let d := d.takeOut kind inst .unusable
  { d with units := { d.units with map := if d.units.map.contains (kind, inst) then d.units.map else (kind, inst) :: d.units.map } }

/-- Units of a kind in service. -/
def Die.serving (d : Die) (kind : Nat) : Nat :=
  ((List.range (kindTotal kind)).filter (fun i => d.unit kind i == .inService || d.unit kind i == .underTest)).length

end Sys2Proof.Machine
end

