-- ==== Sys2Proof/Machine/Pools.lean ====
section
/-! DEFINITION. The tray pools as the data paths use them (R357 to R364): sizes, reserves, the head of a list, taking trays for a
command and giving them back. Sizes are numbered 0 to 4: 512 B, 4 KiB, 16 KiB, 64 KiB, 192 KiB. -/

namespace Sys2Proof.Machine

/-- Bytes of a tray of a size (R358). -/
def trayBytes : Nat → Nat
  | 0 => 512
  | 1 => 4096
  | 2 => 16384
  | 3 => 65536
  | _ => 196608

/-- Trays of a size in a bank (R358). -/
def traysPerBank : Nat → Nat
  | 0 => 4096
  | 1 => 512
  | 2 => 128
  | 3 => 32
  | _ => 10

/-- Uses with a reserve (R362): 1 parity accumulators of metadata, 2 reconstruction of T1 to T3, 3 program-failure recovery,
4 dock-down ships, 5 the host floor; 6 a command of a function beyond the floor, 0 any other. Trays reserved. -/
def reserveOf (use size : Nat) : Nat :=
  match use, size with
  | 1, 0 => 1536
  | 2, 0 | 2, 1 => 2048
  | 3, 4 => 16
  | 4, 3 => 64
  | 5, 0 | 5, 1 => 2048
  | 5, 3 => 32
  | _, _ => 0

def trayKey (size tray : Nat) : Nat := size * 65536 + tray

def Tp.tray (t : Tp) (size n : Nat) : Tray := Tbl.get {} t.trays (trayKey size n)
def Tp.setTray (t : Tp) (size n : Nat) (x : Tray) : Tp := { t with trays := Tbl.set t.trays (trayKey size n) x }

/-- Banks of a size in force. -/
def Tp.banks (t : Tp) (size : Nat) : Nat := (t.split[size]?).getD 0

/-- The first bank of a size: banks are carved in the order of the sizes (DESIGN CHOICE, log entry 35). -/
def Tp.firstBank (t : Tp) (size : Nat) : Nat := (t.split.take size).foldl (fun a b => a + b) 0

/-- The bank that holds a tray. -/
def Tp.bankOf (t : Tp) (size n : Nat) : Nat := t.firstBank size + n / traysPerBank size

/-- A bank that failed and that no spare replaces: failed banks take the spares in service in order (R364). -/
def Die.bankLost (d : Die) (bank : Nat) : Bool :=
  let gone (b : Nat) : Bool := d.unit 0 b == .unusable || d.unit 0 b == .fenced
  let spares := ((List.range 100).filter (fun b => decide (96 ≤ b) && d.unit 0 b == .inService)).length
  gone bank && decide (spares ≤ ((List.range bank).filter gone).length)

/-- Trays of a size that the banks in service hold. -/
def Die.trayTotal (d : Die) (size : Nat) : Nat :=
  ((List.range (d.tp.banks size)).filter (fun i => !d.bankLost (d.tp.firstBank size + i))).length * traysPerBank size

/-- Trays of a size held for a use. -/
def Tp.heldFor (t : Tp) (size use : Nat) : Nat :=
  (t.trays.filter (fun e => e.1 / 65536 == size && e.2.st == .held && e.2.use == use)).length

/-- Trays of a size not FREE. -/
def Tp.busy (t : Tp) (size : Nat) : Nat := (t.trays.filter (fun e => e.1 / 65536 == size && e.2.st != .free)).length

/-- Free trays of a size. -/
def Die.trayFree (d : Die) (size : Nat) : Nat := d.trayTotal size - d.tp.busy size

/-- Trays of the reserves of the other uses that are not drawn yet. -/
def Tp.kept (t : Tp) (size use : Nat) : Nat :=
  sumBy (fun u => if u = use then 0 else reserveOf u size - t.heldFor size u) [1, 2, 3, 4, 5]

/-- Trays of every size that a function's commands hold. -/
def Tp.ofFn (t : Tp) (fn : Nat) : Nat := (t.trays.filter (fun e => e.2.st == .held && e.2.inst == fn && decide (5 ≤ e.2.use))).length

/-- The use a request counts under: a function with fewer than 8 trays draws on the host floor (R362). -/
def Tp.useOf (t : Tp) (use inst : Nat) : Nat := if 5 ≤ use then (if t.ofFn inst < 8 then 5 else 6) else use

/-- No function's commands hold more than half of the unreserved trays of a size (R362). -/
def Die.halfLeft (d : Die) (size fn : Nat) : Bool :=
  let mine := (d.tp.trays.filter (fun e => e.1 / 65536 == size && e.2.st == .held && e.2.inst == fn && decide (5 ≤ e.2.use))).length
  decide (2 * (mine + 1) ≤ d.trayTotal size - sumBy (fun u => reserveOf u size) [1, 2, 3, 4, 5])

/-- Whether a request may take a tray of a size now (R362). -/
def Die.mayTake (d : Die) (size use inst : Nat) : Bool :=
  decide (d.tp.kept size use < d.trayFree size) && (decide (use < 5) || d.halfLeft size inst)

/-- The head of the free list of a size: the tray freed last, or the next never used one of a bank in service (R360). -/
def Die.trayHead (d : Die) (size : Nat) : Option Nat :=
  match Tbl.get [] d.tp.heads size with
  | t :: _ => some t
  | [] => (List.range' (Tbl.get 0 d.tp.fresh size) (d.tp.banks size * traysPerBank size)).find?
      (fun t => decide (t < d.tp.banks size * traysPerBank size) && !d.bankLost (d.tp.bankOf size t))

/-- The head taken off its list. -/
def Tp.pop (t : Tp) (size n : Nat) : Tp :=
  match Tbl.get [] t.heads size with
  | _ :: r => { t with heads := Tbl.set t.heads size r }
  | [] => { t with fresh := Tbl.set t.fresh size (n + 1) }

/-- The smallest size that holds a request. -/
def sizeFor (bytes : Nat) : Option Nat := (List.range 5).find? (fun s => decide (bytes ≤ trayBytes s))

/-- A tray's own number as bank and slot, 20 bits (R360). -/
def Tp.selfOf (t : Tp) (size n : Nat) : Nat := t.bankOf size n * 8192 + n % traysPerBank size

def unitKeyOf (unit inst : Nat) : Nat := unit * 65536 + inst

/-- The holder bit of a subsystem (R361). -/
def holderBit (unit : Nat) : BitVec 14 := BitVec.ofNat 14 (2 ^ (unit - 1))

/-- The head taken for a holder, with the handle that its descriptor carries (R359). -/
def Die.takeTray (d : Die) (unit inst size use n : Nat) (h : Option (Nat × BitVec 8)) : Die :=
  { d with tp := (d.tp.pop size n).setTray size n { st := .held, mask := holderBit unit, inst := inst, use := use, handle := h } }

/-- Whether a subsystem holds a tray. -/
def Tray.heldBy (x : Tray) (unit : Nat) : Bool := x.st == .held && decide (1 ≤ unit) && x.mask.getLsbD (unit - 1)

/-- A tray that nobody holds any more at the head of its list again, unless its bank has failed (R360, R364). -/
def Die.trayBack (d : Die) (size n : Nat) : Die :=
  { d with tp := { d.tp.setTray size n {} with
    heads := if d.bankLost (d.tp.bankOf size n) then d.tp.heads else Tbl.upd [] d.tp.heads size (fun l => n :: l) } }

/-- A holder's bit cleared; at zero the tray returns to the head of its list, unless its bank has failed (R360, R361, R364). -/
def Die.dropBit (d : Die) (size n unit : Nat) : Die :=
  let x := d.tp.tray size n
  let m := x.mask &&& ~~~ (holderBit unit)
  if m = 0 then d.trayBack size n
  else { d with tp := d.tp.setTray size n { x with mask := m } }

/-! ## Trays of the data paths (R359) -/

/-- Trays taken for each of some requests, in bytes, all of them or none: a request that finds no tray it may take waits (R362). -/
def Die.takeTrays (d : Die) (unit inst use : Nat) (h : Option (Nat × BitVec 8)) : List Nat → Option (Die × List (Nat × Nat))
  | [] => some (d, [])
  | b :: r =>
    match sizeFor b with
    | none => none
    | some size =>
      let u := d.tp.useOf use inst
      if d.mayTake size u inst = false then none
      else match d.trayHead size with
        | none => none
        | some n => ((d.takeTray unit inst size u n h).takeTrays unit inst use h r).map (fun q => (q.1, (size, n) :: q.2))

/-- Trays given back by their last holders. -/
def Die.giveTrays (d : Die) (ts : List (Nat × Nat)) : Die := ts.foldl (fun (x : Die) t => x.trayBack t.1 t.2) d

/-- A piece of internal work that passes through one tray of a size within its step (R27, R359): it waits where it finds none. -/
def Die.throughTray (d : Die) (unit inst use size : Nat) (f : Die → Die) : Die :=
  match d.takeTrays unit inst use none [trayBytes size] with
  | none => d
  | some (d, ts) => (f d).giveTrays ts

/-- The subsystem that holds a tray while its sector is at a stage of the read path (R15, R22). -/
def SecState.holder : SecState → Nat
  | .wait => 7
  | .arrived => 8
  | .reconWait => 6
  | .recon => 6
  | .cipher => 9
  | .ended _ => 1

/-- The holder mask of a tray that sectors in work lie in: a bit for every stage that one of them has reached (R361). -/
def Die.jobMask (d : Die) (t : Nat × Nat) : BitVec 14 :=
  d.se.jobs.foldl (fun m e => match e.2 with
    | some j => if j.trays.contains t then m ||| holderBit j.stage.holder else m
    | none => m) 0

/-- Trays looked at again after a job moved or ended: each has the holders its sectors give it, and goes back to its list with the last. -/
def Die.remask (d : Die) (ts : List (Nat × Nat)) : Die :=
  ts.foldl (fun (x : Die) t =>
    let m := x.jobMask t
    if m = 0 then x.trayBack t.1 t.2 else { x with tp := x.tp.setTray t.1 t.2 { x.tp.tray t.1 t.2 with mask := m } }) d

/-- R23: the poison mark of a sector set in the descriptors of its trays. -/
def Die.markTrays (d : Die) (ts : List (Nat × Nat)) (sect : Nat) : Die :=
  ts.foldl (fun (x : Die) t => { x with tp := x.tp.setTray t.1 t.2 { x.tp.tray t.1 t.2 with
    poison := sect :: ((x.tp.tray t.1 t.2).poison.filter (· != sect)) } }) d

end Sys2Proof.Machine
end

