-- ==== Sys2Proof/Machine/Lines.lean ====
section
/-! DEFINITION. Where a byte of a DRAM region lies (R337, R338), and the write queue and merge buffer of a channel (R344 to
R348). Log entry 32 says what the model takes a line's row and a map page's place to be. -/

namespace Sys2Proof.Machine

/-- The number of a region (R160): 0 map pages, 1 crumb table, 2 reclaim metadata, 3 proofing area. -/
def regionOf (granule : Nat) : Nat := granule / 1048576

/-- Logical granules placed of a region. -/
def Dc.placed (c : Dc) (r : Nat) : Nat := (c.granules.filter (fun e => regionOf e.1 == r)).length

/-- Granules of a stripe of a region: 12, or what is left in the last one (R337). -/
def Dc.stripeWidth (c : Dc) (r s : Nat) : Nat := min 12 (c.placed r - 12 * s)

/-- The channel and the physical line that hold a byte of a region, its pages interleaved over the stripe (R337). -/
def Dc.lineOf (c : Dc) (r byte : Nat) : Option (Nat × Nat) :=
  let p := byte / 4096
  let s := p / 786432
  let w := max 1 (c.stripeWidth r s)
  let q := p - s * 786432
  match c.granules.find? (fun e => e.1 == r * 1048576 + 12 * s + q % w) with
  | some e => some (e.2.1, e.2.2 * 4194304 + q / w % 65536 * 64 + byte % 4096 / 64)
  | none => none

/-- The region and the byte within it at a code word of a physical line, where a granule uses the line. -/
def Dc.byteAt (c : Dc) (ch line word : Nat) : Option (Nat × Nat) :=
  match c.granules.find? (fun e => e.2 == (ch, line / 4194304)) with
  | none => none
  | some e =>
    let r := regionOf e.1
    let g := e.1 % 1048576
    let p := g / 12 * 786432 + line % 4194304 / 64 * c.stripeWidth r (g / 12) + g % 12
    some (r, p * 4096 + line % 64 * 64 + word * 8)

def Dc.upd (c : Dc) (ch : Nat) (f : Chan → Chan) : Dc := { c with chans := Tbl.upd {} c.chans ch f }

/-- The code words of a line that a mask names, as word numbers of the channel. -/
def wordsOf (line : Nat) (mask : BitVec 8) : List Nat := ((List.range 8).filter (fun i => mask.getLsbD i)).map (fun i => line * 8 + i)

/-- R351: a write of code words that an armed injection names uses it up by one and stores them with its flips; any other write stores
its words as they are (R339). -/
def Chan.injected (x : Chan) (line : Nat) (mask : BitVec 8) : Chan :=
  let x := { x with flips := x.flips.filter (fun e => !(wordsOf line mask).contains e.1) }
  match x.inject with
  | some i =>
    let hit := if i.line = line then (wordsOf line mask).filter (fun w => i.word == 0xFF || w % 8 == i.word) else []
    if hit.isEmpty then x
    else { x with
      inject := if i.count ≤ 1 then none else some { i with count := i.count - 1 }
      flips := hit.foldl (fun t w => Tbl.set t w (if i.mode = 0 then (i.mask, 0) else (0, i.amask))) x.flips }
  | none => x

/-- R348: a row of map, crumb or reclaim content activated: its count in its bank's tracker of 64 rows, and the directed refresh at 2,048.
A row of the proofing area is refreshed when the random source says so, which the spec leaves open (log entry 32). Every activation
counts in its bank's rolling counter, which an RFM command sets back. -/
def Chan.activated (x : Chan) (ch : Nat) (proofing chosen : Bool) (line : Nat) : Chan :=
  let bank := Config.dramBank line
  let m := Tbl.get 0 x.raa bank + 1
  let x := { x with raa := Tbl.set x.raa bank (if Config.rfmEvery ch + 1 ≤ m then 0 else m) }
  if proofing then (if chosen then { x with dref := (x.dref + 1) % 2 ^ 32 } else x)
  else
    let key := bank * 2 ^ 32 + Config.dramRow line % 2 ^ 32
    let mine := (x.acts.filter (fun e => e.1 / 2 ^ 32 == bank)).map (fun e => e.1)
    let x := if !mine.contains key && decide (64 ≤ mine.length)
      then { x with acts := Tbl.del x.acts ((mine[Config.trackerVictim bank (key % 2 ^ 32) % 64]?).getD 0) } else x
    let n := Tbl.get 0 x.acts key + 1
    if 2048 ≤ n then { x with acts := Tbl.set x.acts key 0, dref := (x.dref + 1) % 2 ^ 32 } else { x with acts := Tbl.set x.acts key n }

/-- Whether a line holds content of the proofing area. -/
def Dc.inProofing (c : Dc) (ch line : Nat) : Bool := match c.byteAt ch line 0 with | some e => e.1 == 3 | none => false

/-! ## Reads (R344 to R346) -/

/-- The read that a channel serves first of those that wait (R344, R353): lookups with a deadline, the earliest first; dock-down reads;
all others, oldest first; copies of a vacate; patrol. -/
def Chan.nextRead (x : Chan) : Option DRead :=
  match (x.rq.filter (fun r => r.kind == 1)).foldl (fun (a : Option DRead) r => match a with
      | none => some r
      | some b => if timeBefore r.deadline b.deadline then some r else some b) none with
  | some r => some r
  | none => [2, 3, 4, 5].findSome? (fun k => x.rq.find? (fun r => r.kind == k))

/-- One read served: from the write queue or the merge buffer where its line stands there (R346), else its row is activated. -/
def Dc.serveRead (c : Dc) (now ch : Nat) : Dc :=
  match (Tbl.get {} c.chans ch).nextRead with
  | none => c
  | some r =>
    let proofing := c.inProofing ch r.line
    c.upd ch (fun x =>
      let x := { x with rq := x.rq.erase r, readAt := some now }
      if x.wq.any (fun w => w.1 == r.line) || x.merge.any (fun m => m.1 == r.line) then x
      else x.activated ch proofing (Config.rowChosen now r.line) r.line)

/-- Reads served until some number have been. -/
def Dc.serveReads (c : Dc) (now ch : Nat) : Nat → Dc
  | 0 => c
  | n + 1 => (c.serveRead now ch).serveReads now ch n

/-- Whether a channel drains its write queue, from 48 lines on (R345). -/
def Chan.draining (x : Chan) : Bool := decide (48 ≤ x.wq.length)

/-- A read of the line that holds a byte of a region: reads go before writes, but wait while the channel drains (R344, R345). -/
def Dc.read (c : Dc) (now r byte kind deadline : Nat) : Dc :=
  match c.lineOf r byte with
  | none => c
  | some p =>
    let c := c.upd p.1 (fun x => { x with rq := x.rq ++ [{ line := p.2, kind := kind, deadline := deadline }] })
    if (Tbl.get {} c.chans p.1).draining then c else c.serveReads now p.1 (Tbl.get {} c.chans p.1).rq.length

/-- Reads of the lines of a region from a byte on. -/
def Dc.readLines (c : Dc) (now r byte kind : Nat) : Nat → Dc
  | 0 => c
  | n + 1 => (c.read now r byte kind 0).readLines now r (byte + 64) kind n

/-! ## Writes (R345, R347) -/

/-- One line leaves a channel's write queue for the DIMM: words with new content lose their poison bits, the others keep theirs (R341). -/
def Dc.writeOut (c : Dc) (now ch : Nat) (w : Nat × BitVec 8) : Dc :=
  let proofing := c.inProofing ch w.1
  c.upd ch (fun x =>
    let y := (x.injected w.1 w.2).activated ch proofing (Config.rowChosen now w.1) w.1
    { y with wq := y.wq.drop 1, pbits := y.pbits.filter (fun b => !(wordsOf w.1 w.2).contains b) })

/-- The oldest lines leave a channel's write queue until some number remain (R345); the reads that waited for the drain are served. -/
def Dc.drainTo (c : Dc) (now ch keep : Nat) : Dc :=
  let q := (Tbl.get {} c.chans ch).wq
  let c := (q.take (q.length - keep)).foldl (fun y l => y.writeOut now ch l) c
  c.serveReads now ch (Tbl.get {} c.chans ch).rq.length

/-- A full line enters the write queue; a queue of 64 lines drains first (R345). -/
def Dc.queueLine (c : Dc) (now ch line : Nat) (mask : BitVec 8) : Dc :=
  let c := if 64 ≤ (Tbl.get {} c.chans ch).wq.length then c.drainTo now ch 16 else c
  c.upd ch (fun x => { x with wq := x.wq ++ [(line, mask)], merge := x.merge.filter (fun m => m.1 != line) })

/-- Full lines of a region written from a byte on. -/
def Dc.writeLines (c : Dc) (now r byte : Nat) : Nat → Dc
  | 0 => c
  | n + 1 =>
    let c := match c.lineOf r byte with | some p => c.queueLine now p.1 p.2 0xFF | none => c
    c.writeLines now r (byte + 64) n

/-- A line leaves the merge buffer: completed by a read where it is not full, then queued (R347). -/
def Dc.mergeOut (c : Dc) (now ch line : Nat) : Dc :=
  let mask := match (Tbl.get {} c.chans ch).merge.find? (fun m => m.1 == line) with | some m => m.2.1 | none => 0xFF
  let proofing := c.inProofing ch line
  let c := if mask = 0xFF then c else c.upd ch (fun x => x.activated ch proofing (Config.rowChosen now line) line)
  c.queueLine now ch line mask

/-- A narrow write of one code word (R347): merged with its line, which leaves when it is full or its slot is needed. -/
def Dc.narrow (c : Dc) (now r byte : Nat) : Dc :=
  match c.lineOf r byte with
  | none => c
  | some p =>
    let m := (Tbl.get {} c.chans p.1).merge
    let bitOf : BitVec 8 := BitVec.ofNat 8 (2 ^ (byte % 64 / 8))
    if m.any (fun e => e.1 == p.2) then
      let c := c.upd p.1 (fun x => { x with merge := x.merge.map (fun e => if e.1 = p.2 then (e.1, e.2.1 ||| bitOf, e.2.2) else e) })
      if (Tbl.get {} c.chans p.1).merge.any (fun e => e.1 == p.2 && e.2.1 == 0xFF) then c.mergeOut now p.1 p.2 else c
    else
      let c := if 128 ≤ m.length then (match m.head? with | some e => c.mergeOut now p.1 e.1 | none => c) else c
      c.upd p.1 (fun x => { x with merge := x.merge ++ [(p.2, bitOf, now)] })

/-- The merge buffer and the write queue drained to empty (R345). -/
def Dc.empty (c : Dc) (now ch : Nat) : Dc :=
  let c := ((Tbl.get {} c.chans ch).merge).foldl (fun y e => y.mergeOut now ch e.1) c
  c.drainTo now ch 0

end Sys2Proof.Machine
end

