-- ==== Sys2Proof/Machine/Media.lean ====
section
/-! DEFINITION. The map, the proofing area, the journal, reclaim units and their parity, the cipher's arithmetic: the
operations by which sectors come to their place and are found there (files 04, 05, 07, 10). -/

namespace Sys2Proof.Machine

/-! ## Sizes and sets -/

/-- The number of set bits of a 16-bit mask. -/
def popcount (m : BitVec 16) : Nat := (List.range 16).foldl (fun a i => a + bit (m.getLsbD i)) 0

/-- One bit of a 16-bit mask. -/
def bit16 (i : Nat) : BitVec 16 := BitVec.ofNat 16 (2 ^ i)

/-- LBAs in an internal sector (R127). -/
def Ns.lbasPerSector (n : Ns) : Nat := if n.lbaf < 2 then 1 else 8
/-- Bytes of an LBA (R127). -/
def Ns.lbaBytes (n : Ns) : Nat := 4096 / n.lbasPerSector
/-- Size of a namespace in internal sectors. -/
def Ns.sectors (n : Ns) : Nat := n.nsze / n.lbasPerSector
/-- LBAs of a zone (R130). -/
def Ns.zoneLbas (n : Ns) : Nat := 2 ^ (n.zszl - 12)
/-- Zones of a namespace (R130). -/
def Ns.zoneCount (n : Ns) : Nat := n.nsze / n.zoneLbas
def Ns.isZoned (n : Ns) : Bool := n.kind == .zoned
def Ns.isForerunner (n : Ns) : Bool := n.kind == .forerunner
/-- Placement handles of a namespace (R125, R152). -/
def Ns.handles (n : Ns) : Nat := if n.phndls.isEmpty then n.hcount else n.phndls.length
/-- The reclaim unit handle behind a placement handle (R149, R152). -/
def Ns.ruh (n : Ns) (h : Nat) : Nat := ((if n.phndls.isEmpty then n.ruhmap else n.phndls)[h]?).getD 0

/-- Sectors a namespace has allocated (R298): mapped sectors, crumbs, and heels in the proofing area; of one homed on a worker what the
worker has reported (R126). -/
def Ns.allocated (n : Ns) : Nat :=
  n.usedAway + sumBy (fun e => popcount e.2.vmask) n.map + sumBy (fun e => bit (e.2.st != .free)) n.crumbs
    + sumBy (fun e => popcount e.2.heelMask) n.zones

/-- Capacity in use of a tenant, bytes (R298). -/
def Die.capUsed (d : Die) (t : Nat) : Nat :=
  4096 * sumBy (fun e => if e.2.alive && e.2.owner == t then e.2.allocated else 0) d.nss

/-- Unsettled content, bytes (R21): what the proofing area holds. -/
def Die.unsettled (d : Die) : Nat := 4096 * d.te.proof.length

/-- The rescue limit in force, bytes (R432). -/
def Die.rescueLimit (d : Die) : Nat := d.aon.limit * Config.limitUnit

/-- Write-through in force (R20, R434): the verdict is not healthy. -/
def Die.writeThrough (d : Die) : Bool := d.aon.verdict != .healthy

/-- Units of 256 bytes that a sector with its metadata takes in the proofing area (DESIGN CHOICE, log entry 14). -/
def sectorUnits : Nat := 17

/-- How full the proofing area stands against the limit (R136, R21): 75 % until below 60 %, and a limit that has fallen below what is
held until that is 256 MiB below it. -/
def Die.press (d : Die) : Die :=
  { d with te := { d.te with
    press := decide (d.rescueLimit * 3 ≤ d.unsettled * 4) || (d.te.press && decide (d.rescueLimit * 6 ≤ d.unsettled * 10))
    overLimit := d.te.overLimit && decide (d.rescueLimit < d.unsettled + Config.limitUnit) } }

/-- A new place in the proofing area for a loaf (log entry 14). -/
def Die.proofAlloc (d : Die) : Nat × Die :=
  (d.te.proofNext, { d with te := { d.te with proofNext := d.te.proofNext + 16 * sectorUnits } })

/-- The channel pair's island that a channel belongs to, 1.5 channels each (R17). -/
def chanIsland (ch : Nat) : Nat := 40 + ch * 2 / 3

/-- A sector put into the proofing area: its channel's island is woken where it is gated (R18), its lines enter their channels' write
queues (R19, R345). -/
def Die.proofPut (d : Die) (a : Nat) (x : Sector) : Die :=
  let d := match d.dc.lineOf 3 (a * 256 % (d.dc.proofGib * Config.gib)) with | some q => d.islandWake (chanIsland q.1) | none => d
  Die.press { d with te := { d.te with proof := Tbl.set d.te.proof a x }, dc := d.dc.writeLines d.now 3 (a * 256 % (d.dc.proofGib * Config.gib)) 68 }
def Die.proofDel (d : Die) (a : Nat) : Die := Die.press { d with te := { d.te with proof := Tbl.del d.te.proof a } }
def Die.proofGet (d : Die) (a : Nat) : Sector := Tbl.get {} d.te.proof a

/-! ## Places on the media -/

/-- A NAND die's number: port x 16 + die. -/
def dieKey (port die : Nat) : Nat := port * 16 + die
/-- A block's number. -/
def blockKey (port die block : Nat) : Nat := dieKey port die * 8192 + block
/-- A loaf slot's number (R155). -/
def Loc.key (l : Loc) : Nat := (blockKey l.port l.die l.block * 2048 + l.pu) * 4 + l.slot
/-- The place that a loaf slot's number names. -/
def Loc.ofKey (key : Nat) : Loc :=
  { port := key / 8192 / 8192 / 16, die := key / 8192 / 8192 % 16, block := key / 8192 % 8192, pu := key / 4 % 2048, slot := key % 4 }
/-- A sector's number on the media. -/
def secKey (slotKey i : Nat) : Nat := slotKey * 16 + i

def Die.mediaPut (d : Die) (k : Nat) (x : Sector) : Die := { d with rc := { d.rc with media := Tbl.set d.rc.media k x } }
def Die.mediaGet (d : Die) (k : Nat) : Sector := Tbl.get {} d.rc.media k

/-- Where a sector is served from (R156). -/
inductive Place where
  | zeros
  | poisoned
  | media (loc : Loc) (i : Nat)
  | proof (addr : Nat)
deriving DecidableEq, Repr

/-- The poisoned sectors of a loaf: its PMASK record, or all of them where its POISON bit stands without one (R158). -/
def Ns.poisonMask (n : Ns) (l : Nat) : BitVec 16 :=
  if (n.entry l).poison then Tbl.get 0xFFFF n.pmask l else 0

/-- Whether a sector's poison mark is set (R158). -/
def Ns.isPoisoned (n : Ns) (x : Nat) : Bool :=
  let c := n.crumb x
  (n.poisonMask (x / 16)).getLsbD (x % 16) || (c.st != .free && c.poison)

/-- Slots of the crumb table reserved for PMASK records, and those in use (R159). -/
def pmaskSlots : Nat := 2 ^ 20
def Die.pmaskUsed (d : Die) : Nat := d.nss.foldl (fun a e => a + e.2.pmask.length) 0

/-- Crumbs in use (R159). -/
def Die.crumbCount (d : Die) : Nat := sumBy (fun e => (e.2.crumbs.filter (fun c => c.2.st != .free)).length) d.nss

/-- R156, R137: where the stored sector stands, poisoned or not: the new heel of a settled zone, the loaf entry, or a crumb. -/
def Ns.placeOf (n : Ns) (x : Nat) : Place :=
  let l := x / 16
  let i := x % 16
  let e := n.entry l
  let z := n.zone (x * n.lbasPerSector / n.zoneLbas)
  if n.isZoned && z.wp / 16 == x % (n.zoneLbas) / 16 && z.heelMask.getLsbD i then .proof (z.heelProt + sectorUnits * i)
  else if e.vmask.getLsbD i then
    match e.typ with
    | .loaf | .inflight | .part => .media e.loc i
    | .heel | .staged => .proof (e.prot + sectorUnits * i)
    | .unmapped => .zeros
  else if e.crb then
    match (n.crumb x).st with
    | .media => .media { (n.crumb x).loc with slot := (n.crumb x).sslot / 16 } ((n.crumb x).sslot % 16)
    | .staged => .proof (n.crumb x).prot
    | .free => .zeros
  else .zeros

/-- Where a sector is served from. -/
def Ns.locate (n : Ns) (x : Nat) : Place := if n.isPoisoned x then .poisoned else n.placeOf x

/-- The stored sector at a place. -/
def Die.sectorAt (d : Die) : Place → Sector
  | .media l i => d.mediaGet (secKey l.key i)
  | .proof a => d.proofGet a
  | _ => {}

/-! ## The map cache (R161) -/

/-- Lines of the map cache. -/
def cacheLines : Nat := 1048576

/-- The clock: lines that were referenced lose their bit and are passed; the first other one goes. -/
def clockEvict (l : List ((Bool × Nat × Nat) × Bool)) : List ((Bool × Nat × Nat) × Bool) :=
  let hot := (l.takeWhile (fun e => e.2)).map (fun e => (e.1, false))
  match l.dropWhile (fun e => e.2) with
  | [] => hot.drop 1
  | _ :: r => r ++ hot

/-- The read of DRAM that brings a line of the map for a command: a lookup with or without a deadline (R344). -/
def Die.fetchLine (d : Die) (k : Bool × Nat × Nat) (s : Stamp) : Die :=
  let byte := if k.1 then 64 * k.2.2 else Config.mapPage k.2.1 (k.2.2 / 64) * 4096 + k.2.2 % 64 * 64
  let kind := if s.dlv then 1 else 3
  { d with dc := d.dc.read d.now (bit k.1) byte kind s.deadline }

/-- A line of the map looked up for a command: a hit marks it; a miss takes it from DRAM, into the cache where it allocates a line. -/
def Die.cacheLine (d : Die) (k : Bool × Nat × Nat) (alloc : Bool) (s : Stamp) : Die :=
  if d.te.cache.any (fun e => e.1 == k) then
    { d with te := { d.te with cache := d.te.cache.map (fun e => if e.1 = k then (k, true) else e) } }
  else
    let d := d.fetchLine k s
    if alloc then
      { d with te := { d.te with cache := (if cacheLines ≤ d.te.cache.length then clockEvict d.te.cache else d.te.cache) ++ [(k, true)] } }
    else d

/-- The lookup of a sector (R161): its loaf entry's line, and with CRB set both buckets that its crumb may sit in (log entry 32). -/
def Die.lookUp (d : Die) (nsid : Nat) (alloc : Bool) (s : Stamp) (x : Nat) : Die :=
  let d := d.cacheLine (false, nsid, x / 128) alloc s
  if ((d.ns nsid).entry (x / 16)).crb then
    (d.cacheLine (true, 0, Config.crumbBucket 0 (nsid - 1) x) alloc s).cacheLine (true, 0, Config.crumbBucket 1 (nsid - 1) x) alloc s
  else d

/-! ## The journal (R165, R166) -/

/-- Map records 16 bytes each; a segment 64 KiB (R165, R166). -/
def recordsPerSegment : Nat := 65536 / 16

/-- Records of the journal buffer's 5 MiB (R165). -/
def bufRecords : Nat := 5242880 / 16

/-- The number of records in a list of record groups. -/
def recsOf (l : List JRec) : Nat := l.foldl (fun a r => a + r.what.length) 0

/-- The bucket in which a crumb sits (R159). -/
def Crumb.bucketOf (c : Crumb) (nsid x : Nat) : Nat := Config.crumbBucket (bit c.second) (nsid - 1) x

/-- The entry of a loaf that a record changes, and the buckets of the crumbs and the PMASK record that it makes, changes or deletes. -/
def Die.undoLines (d : Die) : Undo → List (Nat × Nat) × List Nat
  | .loaf ns l was cs m =>
    let n := d.ns ns
    let now := n.crumbs.filter (fun c => c.1 / 16 == l)
    (if n.entry l = was then [] else [(ns, l)],
     ((cs.filter (fun c => n.crumb c.1 != c.2)).map (fun c => c.2.bucketOf ns c.1)
       ++ (now.filter (fun c => !cs.contains c)).map (fun c => c.2.bucketOf ns c.1)
       ++ (if Tbl.get 0 n.pmask l = m then [] else [Config.crumbBucket 0 (ns - 1) (l * 16)])).eraseDups)
  | _ => ([], [])

/-- A record made in the journal buffer with what stood before the change and the loaf slots whose program made it; in write-through a
segment is written as soon as it holds a record (R434). The update writes through to DRAM in the same step: each loaf's entry and each
crumb's bucket that it changes (R159, R161, R347), and those pages and buckets are for the next checkpoint cycle (R168). -/
def Die.journalWith (d : Die) (r : JWhat) (undo : List Undo) (placed : List Nat) : Die :=
  let entries := undo.flatMap (fun u => (d.undoLines u).1)
  let buckets := undo.flatMap (fun u => (d.undoLines u).2)
  { d with
    te := { d.te with
      buf := d.te.buf ++ [{ what := [r], undo := undo, placed := placed, time := d.now }]
      bufAt := if d.te.buf.isEmpty then d.now else d.te.bufAt, made := d.te.made + 1
      dirty := (entries.map (fun (e : Nat × Nat) => (e.1, e.2 / 512)) ++ buckets.map (fun b => (0, b))).foldl
        (fun l p => if l.contains p then l else p :: l) d.te.dirty }
    dc := buckets.foldl (fun (dc : Dc) b => dc.narrow d.now 1 (64 * b))
      (entries.foldl (fun (dc : Dc) e => dc.narrow d.now 0 (Config.mapPage e.1 (e.2 / 512) * 4096 + e.2 % 512 * 8)) d.dc) }

/-- A record of no map change. -/
def Die.journal (d : Die) (r : JWhat) : Die := d.journalWith r [] []

/-- What stands of a loaf. -/
def Die.loafWas (d : Die) (nsid l : Nat) : Undo :=
  let n := d.ns nsid
  .loaf nsid l (n.entry l) (n.crumbs.filter (fun c => c.1 / 16 == l)) (Tbl.get 0 n.pmask l)

/-- A map change of one loaf with its record (R165); placed: the loaf slot whose program makes it. -/
def Die.remap (d : Die) (nsid l : Nat) (placed : List Nat) (f : Ns → Ns) : Die :=
  (d.updNs nsid f).journalWith (.mapChange nsid l) [d.loafWas nsid l] placed

/-- R158: every sector of a loaf poisoned, for want of a free PMASK slot, with a WARNING; each counts as an integrity error (R184). -/
def Die.poisonWhole (d : Die) (nsid l : Nat) : Die :=
  let n := d.ns nsid
  let more := 16 - popcount (n.poisonMask l)
  let d := d.updNs nsid (fun n => { n with map := Tbl.upd {} n.map l (fun e => { e with poison := true }) })
  let d := d.record 0x0402 sevWarning noInst (le 4 nsid ++ le 8 (l * 16 * n.lbasPerSector))
  { d with rc := { d.rc with integrityErrs := d.rc.integrityErrs + more } }

/-- R158: poison marks added to a loaf: in its PMASK record, where it has one or one is free; else all of it is poisoned. -/
def Die.markLoaf (d : Die) (nsid l : Nat) (bad : BitVec 16) : Die :=
  let n := d.ns nsid
  if bad = 0 ∨ ((n.entry l).poison = true ∧ Tbl.has n.pmask l = false) then d
  else if Tbl.has n.pmask l = true ∨ d.pmaskUsed < pmaskSlots then
    d.updNs nsid (fun n => { n with map := Tbl.upd {} n.map l (fun e => { e with poison := true }), pmask := Tbl.upd 0 n.pmask l (· ||| bad) })
  else d.poisonWhole nsid l

/-- A map change that moves poisoned crumbs into their loaf, whose marks go to the loaf (R158). -/
def Die.remapMark (d : Die) (nsid l : Nat) (bad : BitVec 16) (f : Ns → Ns) : Die :=
  ((d.updNs nsid f).markLoaf nsid l bad).journalWith (.mapChange nsid l) [d.loafWas nsid l] []

/-- R167: the records that a change makes joined to one record group. -/
def Die.grouped (d : Die) (f : Die → Die) : Die :=
  let n := d.te.buf.length
  let d := f d
  match d.te.buf.drop n with
  | [] => d
  | r :: rs => { d with te := { d.te with buf := d.te.buf.take n ++ [{
      what := (r :: rs).flatMap (fun x => x.what), undo := (r :: rs).flatMap (fun x => x.undo)
      placed := (r :: rs).flatMap (fun x => x.placed), time := r.time }] } }

/-- The record groups that fit into one segment: none is cut (R167). -/
def fitting : Nat → List JRec → List JRec
  | _, [] => []
  | room, r :: rs => if r.what.length ≤ room then r :: fitting (room - r.what.length) rs else []

/-- The record groups of the next segment; a group longer than a segment would stand alone. -/
def segmentRecs (l : List JRec) : List JRec :=
  match fitting recordsPerSegment l with
  | [] => l.take 1
  | rs => rs

/-- The berths that copies of system-area items go to: the ONLINE ones with the lowest numbers, three of them; where one is absent the
next takes its copy (R28, R36, R166, R168; which berths they are is a DESIGN CHOICE, log entry 152). -/
def Die.mirrors (d : Die) : List Nat := ((List.range Config.ports).filter (fun p => (d.port p).st == .online)).take 3

/-- The oldest records of the buffer written as one segment on three berths (R166); at 64 GiB of retained journal the
map-changing commands are held (R168). -/
def Die.writeSegment (d : Die) : Die :=
  if d.te.buf.isEmpty then d
  else
    let rs := segmentRecs d.te.buf
    let rest := d.te.buf.drop rs.length
    { d with te := { d.te with
      writing := d.te.writing ++ [{ seq := d.te.seg, recs := rs, crc := Config.segmentCrc d.te.seg, berths := d.mirrors }], buf := rest
      bufAt := match rest with | [] => d.te.bufAt | r :: _ => r.time
      seg := d.te.seg + 1, retained := d.te.retained + 65536, since := d.te.since + 65536, sinceStart := d.te.sinceStart + 65536
      held := d.te.held || decide (Config.journalHold ≤ d.te.retained + 65536) } }

/-- A checkpoint cycle starts: it writes every page and bucket changed since the start of the previous one, each on three berths (R168). -/
def Die.beginCycle (d : Die) : Die :=
  { d with te := { d.te with ckpt := true, sinceStart := 0, cycle := d.te.dirty.map (fun p => (p, d.mirrors)), dirty := [] } }

/-- A checkpoint cycle ends: its pages stand on their berths, and the segments older than its start are released (R168). -/
def Die.endCycle (d : Die) : Die :=
  { d with te := { d.te with
    ckpt := false, ckptEnd := d.now, since := 0, retained := d.te.sinceStart, held := decide (Config.journalHold ≤ d.te.sinceStart)
    copies := (d.te.cycle.filter (fun p => p.1.1 != 0)).foldl (fun t p => Tbl.set t (p.1.2 * 16384 + (p.1.1 - 1)) p.2) d.te.copies, cycle := [] } }

/-- Segments written until the buffer is empty. -/
def Die.writeSegments (d : Die) : Nat → Die
  | 0 => d
  | n + 1 => d.writeSegment.writeSegments n

/-- Nonce reservations of a durable segment come into force (R325). -/
def Die.nonceDurable (d : Die) (rs : List JRec) : Die :=
  (rs.flatMap (fun r => r.what)).foldl (fun x r => match r with
    | .nonce k b => x.updSlot k (fun s => { s with durable := max s.durable (b + 1), asking := false })
    | _ => x) d

/-- A segment durable: its copies have passed program, and three stand: a berth that has gone since is replaced by the next (R166). -/
def Die.segmentDurable (d : Die) (seg : Nat) : Die :=
  match d.te.writing.find? (fun e => e.seq == seg) with
  | none => d
  | some e =>
    if d.mirrors.length < 3 then d
    else
      let d := { d with te := { d.te with writing := d.te.writing.filter (fun x => x.seq != seg), durable := d.te.durable + recsOf e.recs, durableAt := d.now } }
      d.nonceDurable e.recs

/-- Every record of the journal made durable (P3 entry step 4, dock-down step 5, GC's waits), where three berths take it. -/
def Die.journalFlush (d : Die) : Die :=
  let d := d.writeSegments d.te.buf.length
  d.te.writing.foldl (fun x e => x.segmentDurable e.seq) d

/-! ## Cipher arithmetic (R315 to R318, R325) -/

/-- IV = EPOCH ‖ COUNTER (R316). -/
def ivOf (epoch counter : Nat) : BitVec 96 := BitVec.ofNat 32 epoch ++ BitVec.ofNat 64 counter

/-- Bytes 28 to 47 of the metadata, the additional authenticated data (R315, R316). -/
def SMeta.aad (m : SMeta) : BitVec 160 :=
  BitVec.ofNat 160 (m.kslot % 4096 + 2 ^ 16 + 2 ^ 32 * (m.sect % 2 ^ 40) + 2 ^ 72 * (m.nsx % 2 ^ 14)
    + 2 ^ 88 * m.wgen.toNat + 2 ^ 96 * (m.tenant % 4096))

/-- The 64 bytes of sector metadata (R315). -/
def SMeta.bits (m : SMeta) : BitVec 512 :=
  BitVec.ofNat 512 (m.epoch % 2 ^ 32 + 2 ^ 32 * (m.counter % 2 ^ 64) + 2 ^ 96 * m.tag.toNat + 2 ^ 224 * m.aad.toNat
    + 2 ^ 384 * m.hmeta.toNat)

/-- The 4,160-byte information of a code word (R239). -/
def Sector.info (x : Sector) : BitVec 33280 := x.md.bits ++ x.data

/-- The WRITE slot of a tenant (R319), if it has one. -/
def Die.writeSlot (d : Die) (t : Nat) : Option Nat :=
  if (d.slot (2 * t)).st == .write then some (2 * t)
  else if (d.slot (2 * t + 1)).st == .write then some (2 * t + 1) else none

/-- The derived key of a namespace and slot (R318). -/
def Die.keyOf (d : Die) (nsid k : Nat) : BitVec 256 :=
  Config.derivedKey (d.slot k).key k nsid (d.ns nsid).homeDsn (d.ns nsid).salt

/-- The counter beyond which a WRITE slot has fewer than 2^24 left (R327). -/
def nonceEdge : Nat := 0xFFFFFFFFFF000000

/-- One counter taken; at half of a block the next block's reservation is journalled (R325), and the counter that leaves a WRITE slot with
fewer than 2^24 raises the event of R549. -/
def Die.takeCounter (d : Die) (k : Nat) : Die :=
  let s := d.slot k
  let d' := d.updSlot k (fun s => { s with next := s.next + 1 })
  let d' := if s.next = nonceEdge ∧ s.st = .write then d'.vendorEvent 0x02 0x02 else d'
  let b := s.next / Config.block20 + 1
  if Config.block20 / 2 ≤ s.next % Config.block20 + 1 ∧ s.durable ≤ b ∧ s.asking = false then
    (d'.updSlot k (fun s => { s with asking := true })).journal (.nonce k b)
  else d'

/-- A sector of a host write encrypted under a slot with the slot's next counter (R316). -/
def Die.encryptSector (d : Die) (nsid x k : Nat) (plain : SectorData) (hm : BitVec 128) (wgen : BitVec 8) : Sector :=
  let s := d.slot k
  let key := d.keyOf nsid k
  let iv := ivOf s.epoch s.next
  let c : BitVec 32896 := (hm ++ plain) ^^^ Config.keystream key iv
  let m : SMeta := { epoch := s.epoch, counter := s.next, kslot := k, sect := x, nsx := nsid - 1, wgen := wgen,
                     tenant := (d.ns nsid).owner, hmeta := c.extractLsb' 32768 128 }
  { data := c.extractLsb' 0 32768, md := { m with tag := Config.gcmTag key iv m.aad c } }

/-- The plaintext of a stored sector under the key its metadata names. -/
def Die.decryptSector (d : Die) (nsid : Nat) (x : Sector) : SectorData × BitVec 128 :=
  let p : BitVec 32896 := (x.md.hmeta ++ x.data) ^^^ Config.keystream (d.keyOf nsid x.md.kslot) (ivOf x.md.epoch x.md.counter)
  (p.extractLsb' 0 32768, p.extractLsb' 32768 128)

/-- Whether a stored sector's tag verifies under the key its metadata names (R316). -/
def Die.tagVerifies (d : Die) (nsid : Nat) (x : Sector) : Bool :=
  Config.gcmTag (d.keyOf nsid x.md.kslot) (ivOf x.md.epoch x.md.counter) x.md.aad (x.md.hmeta ++ x.data) == x.md.tag

/-- R316: whether the self-description is the one the map expects. -/
def Die.selfOk (d : Die) (nsid x : Nat) (s : Sector) : Bool :=
  s.md.sect == x && s.md.nsx == nsid - 1 && s.md.tenant == (d.ns nsid).owner

/-! ## GF(2^8) over packed bytes (R247) -/

/-- A byte repeated through the information of a code word. -/
def repByte (b : Nat) : BitVec 33280 := BitVec.ofNat 33280 (b * ((2 ^ 33280 - 1) / 255))

/-- Every byte multiplied by g = 0x02 with the polynomial 0x11D. -/
def gfDouble (x : BitVec 33280) : BitVec 33280 :=
  ((x &&& repByte 0x7F) <<< 1) ^^^ (((x >>> 7) &&& repByte 0x01) * 0x1D#33280)

/-- Every byte multiplied by g^i. -/
def gfPow : Nat → BitVec 33280 → BitVec 33280
  | 0, x => x
  | i + 1, x => gfPow i (gfDouble x)

/-! ## Reclaim units and rows (R170, R246 to R250) -/

/-- The group of a port (R148). -/
def groupOf (port : Nat) : Nat := port / 128
/-- The position that holds P in a row. -/
def posP (k r : Nat) : Nat := r % (k + 2)
/-- The position that holds Q in a row. -/
def posQ (k r : Nat) : Nat := (r + 1) % (k + 2)

/-- A position is a hole from a row on (R250). -/
def Ru.isHole (u : Ru) (r p : Nat) : Bool := u.holes.any (fun h => h.1 == p && decide (h.2 ≤ r))

/-- The data positions of a row in ascending order; with holes they keep their data index (R246). -/
def Ru.dataPos (u : Ru) (r : Nat) : List Nat :=
  (List.range (u.k + 2)).filter (fun p => p != posP u.k r && p != posQ u.k r)
/-- The data positions of a row that are no holes. -/
def Ru.usePos (u : Ru) (r : Nat) : List Nat := (u.dataPos r).filter (fun p => !u.isHole r p)
/-- The data positions of a row to which loaf slots are assigned: a position that fails in the row itself keeps its place. -/
def Ru.slotPos (u : Ru) (r : Nat) : List Nat := (u.dataPos r).filter (fun p => !u.holes.any (fun h => h.1 == p && decide (h.2 < r)))
/-- The data index of a position in a row (R246). -/
def Ru.dataIdx (u : Ru) (r p : Nat) : Nat := ((u.dataPos r).takeWhile (fun q => q != p)).length

/-- Ports of a group whose berth is ONLINE (R148). -/
def Die.members (d : Die) (g : Nat) : List Nat := (List.range' (128 * g) 128).filter (fun p => (d.port p).st == .online)

/-- Good blocks of a berth for user data: the passport's dies and blocks less the system area, less retired blocks. -/
def Die.goodBlocks (d : Die) (p : Nat) : Nat :=
  match (d.port p).passport with
  | none => 0
  | some x => x.dies * (x.blocks - x.sysBlocks)
      - (d.rc.blocks.filter (fun e => e.1 / 8192 / 16 == p && e.2.st == .retired)).length

/-- Free blocks of a berth. -/
def Die.freeBlocks (d : Die) (p : Nat) : Nat :=
  d.goodBlocks p - (d.rc.blocks.filter (fun e => e.1 / 8192 / 16 == p && match e.2.st with | .inRu _ => true | _ => false)).length

/-- FREE RUs of a group (R170; DEDUCED, log entry 15): berth sets that its free blocks can make. -/
def Die.freeRus (d : Die) (g : Nat) : Nat := sumBy d.freeBlocks (d.members g) / ((d.group g).k + 2)
/-- All RUs of a group (log entry 15). -/
def Die.totalRus (d : Die) (g : Nat) : Nat := sumBy d.goodBlocks (d.members g) / ((d.group g).k + 2)

/-- The PU_PER_BLOCK of a group's geometry (R148). -/
def Die.pusPerBlock (d : Die) (g : Nat) : Nat := ((d.group g).geometry).getD 1

/-- The least-worn free block of a berth (R175), the lowest number on a tie: block number of the die. -/
def Die.pickBlock (d : Die) (p : Nat) : Option (Nat × Nat) :=
  match (d.port p).passport with
  | none => none
  | some x =>
    let used := (d.rc.blocks.filter (fun e => e.1 / 8192 / 16 == p)).length
    let cands := ((List.range (used + 1)).filter (fun i => i / x.dies < x.blocks - x.sysBlocks)).map
      (fun i => (i % x.dies, x.sysBlocks + i / x.dies))
    let free := cands.filter (fun c => (d.block (blockKey p c.1 c.2)).st == .free && !Tbl.has d.rc.subst (blockKey p c.1 c.2))
    free.foldl (fun a c => match a with
      | none => some c
      | some b => if (d.block (blockKey p c.1 c.2)).ec < (d.block (blockKey p b.1 b.2)).ec then some c else some b) none

/-- Insertion of a berth by most free blocks, then lowest port (R175). -/
def insertBerth (f : Nat → Nat) (p : Nat) : List Nat → List Nat
  | [] => [p]
  | q :: r => if f q < f p then p :: q :: r else q :: insertBerth f p r

/-- The k + 2 berths of a group with the most free blocks, in ascending port order (R175, R246). -/
def Die.berthSet (d : Die) (g k : Nat) : List Nat :=
  let order := (d.members g).foldl (fun a p => insertBerth d.freeBlocks p a) []
  let top := (order.filter (fun p => 0 < d.freeBlocks p)).take (k + 2)
  (List.range' (128 * g) 128).filter (fun p => top.contains p)

/-- A FREE RU taken for a handle of a group (R170, R175): its berth set chosen, its blocks in use. The time since program of its blocks
(R177) counts from here (DESIGN CHOICE, log entry 196). -/
def Die.openNewRu (d : Die) (g h : Nat) : Option (Nat × Die) :=
  let k := (d.group g).k
  let set := d.berthSet g k
  let ms := set.filterMap (fun p => (d.pickBlock p).map (fun b => ({ port := p, die := b.1, block := b.2 } : Member)))
  if ms.length = k + 2 then
    let r := d.rc.next
    let d := { d with rc := { d.rc with next := r + 1, rus := Tbl.set d.rc.rus r { st := .opened, group := g, handle := h, members := ms, k := k } } }
    let d := ms.foldl (fun x m => x.updBlock (blockKey m.port m.die m.block) (fun b => { b with st := .inRu r, reads := 0, prog := x.now })) d
    some (r, d.updGroup g (fun x => { x with openRu := Tbl.set x.openRu h (some r) }))
  else none

/-- The names that places of a block have in the map: its own, unless another block has taken its place, and those of the blocks whose
place it has taken (R262). -/
def Rc.blockNames (c : Rc) (bk : Nat) : List Nat :=
  (if Tbl.has c.subst bk then [] else [bk]) ++ (c.subst.filter (fun e => e.2 == bk)).map (fun e => e.1)

/-- An RU whose ERASED is durable becomes FREE: its blocks, which hold nothing, join the free pool (R170, R172). -/
def Rc.freeRu (c : Rc) (r : Nat) : Rc :=
  let ms := (Tbl.get {} c.rus r).members.map (fun m => blockKey m.port m.die m.block)
  let names := ms.flatMap c.blockNames
  { c with
    rus := Tbl.del c.rus r, subst := c.subst.filter (fun e => !ms.contains e.2)
    media := c.media.filter (fun e => !names.contains (e.1 / 16 / 8192)), parity := c.parity.filter (fun e => !ms.contains (e.1 / 16 / 8192))
    owner := c.owner.filter (fun e => !names.contains (e.1 / 8192)), crumbSlots := c.crumbSlots.filter (fun e => !names.contains (e.1 / 8192))
    blocks := c.blocks.map (fun (b : Nat × Block) => if ms.contains b.1 && b.2.st == .inRu r then (b.1, { b.2 with st := .free, reads := 0 }) else b) }

/-- What a loaf shipped draws its RU for (R144, R174): a host write or fold; staging or a heel drained; GC, refresh, rebuild. -/
inductive Draw where
  | host | drain | heel | gc
deriving DecidableEq, Repr

/-- FREE RUs of a group that its heel reserve asks for (R144): 64 KiB for every active zone homed in it, in whole RUs (log entry 154). -/
def Die.heelRus (d : Die) (g : Nat) : Nat :=
  let zs := d.nss.foldl (fun a e => a + (e.2.zones.filter (fun z => z.2.group == some g && (z.2.st == .zsio || z.2.st == .zseo || z.2.st == .zsc))).length) 0
  ceilDiv (65536 * zs) (max 1 ((d.group g).k * d.pusPerBlock g * 196608))

/-- FREE RUs that the heels of a group may still draw from its heel reserve. -/
def Die.heelLeft (d : Die) (g : Nat) : Nat := d.heelRus g - (d.group g).heelDrawn

/-- Whether a group has a FREE RU for a draw: the GC reserve is left to GC, refresh and rebuild (R174), and the heel reserve to heels,
which draw on it, and on no more than it, when the group is READ_ONLY (R144). -/
def Die.mayOpen (d : Die) (g : Nat) : Draw → Bool
  | .host | .drain => decide (Config.gcReserve + d.heelRus g < d.freeRus g)
  | .heel => if (d.group g).ro.isSome then decide (0 < d.heelLeft g) && decide (0 < d.freeRus g) else decide (Config.gcReserve < d.freeRus g)
  | .gc => decide (d.heelLeft g < d.freeRus g)

/-- A FREE RU taken for a draw that may open one. -/
def Die.drawRu (d : Die) (g h : Nat) (use : Draw) : Option (Nat × Die) :=
  if d.mayOpen g use then
    (d.openNewRu g h).map (fun q => if use == .heel && (d.group g).ro.isSome
      then (q.1, q.2.updGroup g (fun x => { x with heelDrawn := x.heelDrawn + 1 })) else q)
  else none

/-- R248: the twelve 512-byte trays in which an open RU's metadata accumulators lie, taken where it holds none; without them it waits. -/
def Die.accFor (q : Nat × Die) : Option (Nat × Die) :=
  let x := q.2
  if (x.ru q.1).accTrays.isEmpty then
    (x.takeTrays 6 (x.ru q.1).group 1 none (List.replicate 12 512)).map (fun p => (q.1, p.1.updRu q.1 (fun u => { u with accTrays := p.2 })))
  else some q

/-- The accumulators' trays given back once both parity programs have passed and no loaf slot of a later row is assigned (R248). -/
def Die.accDone (d : Die) (r : Nat) : Die :=
  let u := d.ru r
  if u.accP.isEmpty && u.arow == u.row && u.slots == 0 then (d.giveTrays u.accTrays).updRu r (fun u => { u with accTrays := [] }) else d

/-- The open RU of a handle in a group with a loaf slot left to assign; a new one is opened where there is none. -/
def Die.needRu (d : Die) (g h : Nat) (use : Draw) : Option (Nat × Die) :=
  let q : Option (Nat × Die) := match Tbl.get none (d.group g).openRu h with
    | some r => if (d.ru r).st == .opened && decide ((d.ru r).arow < d.pusPerBlock g) then some (r, d) else d.drawRu g h use
    | none => d.drawRu g h use
  q.bind (fun x => Die.accFor x)

/-- The internal tenants (R274). -/
def tReclaim (g : Nat) : Nat := 2048 + g
def tRebuild : Nat := 2056
def tPatrol : Nat := 2057
def tCheckpoint : Nat := 2058

/-- An operation queued for its die (R278). -/
def Die.queueOp (d : Die) (o : DieOp) : Die := { d with sch := { d.sch with queued := d.sch.queued ++ [o] } }

/-- Opcodes of R212. No rule has the die issue READ_ARRAY, READ_XFER, CACHE_READ or GET_FEATURE. -/
def opRead : Nat := 0x01
def opReadArray : Nat := 0x02
def opReadXfer : Nat := 0x03
def opCacheRead : Nat := 0x04
def opLoad : Nat := 0x10
def opLoadZero : Nat := 0x11
def opProgram : Nat := 0x12
def opErase : Nat := 0x20
def opSuspend : Nat := 0x30
def opResume : Nat := 0x31
def opGetFeature : Nat := 0x38
def opSetFeature : Nat := 0x39
def opStatus : Nat := 0x40
def opDieReset : Nat := 0x41
def opPassport : Nat := 0x50
def opTunnel : Nat := 0x60

/-- The next loaf slot of an RU's row being assigned: consecutive slots of a row lie on different berths (R24;
DESIGN CHOICE, log entry 16). -/
def Ru.slotAt (u : Ru) (i : Nat) : Nat × Nat :=
  let ps := u.slotPos u.arow
  ((ps[i % ps.length]?).getD 0, i / ps.length)

/-- The first slot number of that row, from one on, that filler has not taken (R20, R411 step 3). -/
def Ru.openIdx (u : Ru) (lo : Nat) : Option Nat :=
  (List.range' lo (3 * (u.slotPos u.arow).length - lo)).find? (fun i => !u.passed.contains (u.arow * 64 + (u.slotAt i).1)
    && !u.loaded.contains ((u.arow * 64 + (u.slotAt i).1) * 4 + (u.slotAt i).2)
    && !u.fills.contains ((u.arow * 64 + (u.slotAt i).1) * 4 + (u.slotAt i).2))

/-- The place a position and slot of an RU's row name. -/
def Ru.locOf (u : Ru) (row pos slot : Nat) : Loc :=
  match u.members[pos]? with
  | some m => { port := m.port, die := m.die, block := m.block, pu := row, slot := slot }
  | none => {}

/-- A loaf committed for shipping (R24 step 4): its slot assigned, its sectors placed, its LOAD queued. -/
def Die.ship (d : Die) (g h : Nat) (use : Draw) (tenant cls : Nat) (secs : List (Nat × Sector)) : Option (Loc × Die) :=
  match d.needRu g h use with
  | none => none
  | some (r, d) =>
    let u := d.ru r
    let i := (u.openIdx u.slots).getD u.slots
    let ps := u.slotAt i
    let loc := u.locOf u.arow ps.1 ps.2
    let full := (u.openIdx (i + 1)).isNone
    let d := d.updRu r (fun u => if full then { u with arow := u.arow + 1, slots := 0 } else { u with slots := i + 1 })
    let d := secs.foldl (fun x e => x.mediaPut (secKey loc.key e.1) e.2) d
    let o : DieOp := { port := loc.port, die := loc.die, op := opLoad, block := loc.block, pu := loc.pu, level := loc.slot, mp := true,
                       cwmask := 0xF, tenant := tenant, cls := cls, what := .shipLoaf r ps.1 ps.2
                       urgent := d.te.overLimit && (use == .drain || use == .heel) }
    some (loc, d.queueOp o)

/-- The loaf slots that belong to a row's position. -/
def Ru.slotKeys (u : Ru) (row pos : Nat) : List Nat := (List.range 3).map (fun s => (u.locOf row pos s).key)

/-- The map entry a loaf slot's owner has, if it still names the slot (R164, R172). -/
def Die.stillMapped (d : Die) (slotKey : Nat) : Bool :=
  match d.rc.owner.find? (fun e => e.1 == slotKey) with
  | none => false
  | some e =>
    let x := (d.ns e.2.1).entry e.2.2
    (d.ns e.2.1).alive && (x.typ == .loaf || x.typ == .inflight || x.typ == .part) && x.vmask != 0 && x.loc.key == slotKey

/-- Crumbs of a loaf slot that still live there (R157). -/
def Die.liveCrumbs (d : Die) (slotKey : Nat) : List (Nat × Nat) :=
  (Tbl.get [] d.rc.crumbSlots slotKey).filter (fun c =>
    let x := (d.ns c.1).crumb c.2
    (d.ns c.1).alive && x.st == .media && (x.loc.key) / 4 == slotKey / 4 && x.sslot / 16 == slotKey % 4)

/-- The block that holds a block's place: a replacement block where one has been substituted (R262). -/
def Die.resolveBlock (d : Die) (bk : Nat) : Nat := Tbl.get bk d.rc.subst bk

/-- Valid sectors of an RU (R171). -/
def Die.validCount (d : Die) (r : Nat) : Nat :=
  let blocks := (d.ru r).members.map (fun m => blockKey m.port m.die m.block)
  sumBy (fun e => if blocks.contains (d.resolveBlock (e.1 / 8192)) && d.stillMapped e.1 then popcount ((d.ns e.2.1).entry e.2.2).vmask else 0) d.rc.owner
    + sumBy (fun e => if blocks.contains (d.resolveBlock (e.1 / 8192)) then (d.liveCrumbs e.1).length else 0) d.rc.crumbSlots

/-- A sector's information folded into the accumulators of its row (R247, R248). -/
def Ru.fold (u : Ru) (row idx cw : Nat) (x : BitVec 33280) : Ru :=
  let k := row * 64 + cw
  { u with accP := Tbl.upd 0 u.accP k (fun a => a ^^^ x), accQ := Tbl.upd 0 u.accQ k (fun a => a ^^^ gfPow idx x) }

/-- A LOAD returned OK: the loaf slot is loaded and its sixteen code words are folded in (R248). -/
def Die.loadOk (d : Die) (r row pos slot : Nat) : Die :=
  let u := d.ru r
  let loc := u.locOf row pos slot
  let idx := u.dataIdx row pos
  let xs := (List.range 16).map (fun i => (slot * 16 + i, (d.mediaGet (secKey loc.key i)).info))
  d.updRu r (fun u =>
    xs.foldl (fun u e => u.fold row idx e.1 e.2) { u with loaded := ((row * 64 + pos) * 4 + slot) :: u.loaded })

/-- An entry of the FDP Events log, of which 63 are kept (R63, log entry 147). -/
def Die.fdpEvent (d : Die) (type ruh : Nat) : Die :=
  if d.mc.fdp then { d with mc := { d.mc with fdpEvents := ((type, ruh) :: d.mc.fdpEvents).take 63 } } else d

/-- The handle of the RU that a loaf slot lies in. -/
def Die.handleAt (d : Die) (key : Nat) : Nat := match (d.block (d.resolveBlock (key / 8192))).st with | .inRu r => (d.ru r).handle | _ => 0

/-- R164: the conditional update of a move whose destination has passed program: it applies only if every entry it replaces
still names the place its data was read from. -/
def Die.applyMove (d : Die) (key : Nat) (loc : Loc) (m : Move) : Die :=
  let d := { d with rc := { d.rc with moves := Tbl.del d.rc.moves key } }
  let e := (d.ns m.ns).entry m.loaf
  let same := fun (c : Nat × Nat × Crumb) =>
    let y := (d.ns c.1).crumb c.2.1
    (d.ns c.1).alive && y.st == c.2.2.st && y.loc == c.2.2.loc && y.sslot == c.2.2.sslot && y.prot == c.2.2.prot
  if m.kind = 0 then
    if (d.ns m.ns).alive && (e.typ == .loaf || e.typ == .part) && e.loc == m.was.loc then
      (d.remap m.ns m.loaf [] (fun n => { n with map := Tbl.set n.map m.loaf { e with loc := loc } })).fdpEvent 0x80 (d.handleAt key)
    else d
  else if m.kind = 1 then
    let stored := fun (t : LType) => t == .loaf || t == .inflight || t == .part
    let place := (stored e.typ && stored m.was.typ && e.loc == m.was.loc) || (e.typ == m.was.typ && e.loc == m.was.loc && e.prot == m.was.prot)
    let crumbsNow := ((d.ns m.ns).crumbs.filter (fun c => c.1 / 16 == m.loaf && c.2.st != .free)).length
    if (d.ns m.ns).alive && place && e.vmask == m.was.vmask && m.crumbs.all same && crumbsNow == m.crumbs.length then
      let d := if e.typ == .staged then (List.range 16).foldl (fun (x : Die) i => if e.vmask.getLsbD i then x.proofDel (e.prot + sectorUnits * i) else x) d else d
      let d := m.crumbs.foldl (fun (x : Die) c => if c.2.2.st == .staged then x.proofDel c.2.2.prot else x) d
      let n := d.ns m.ns
      let mask := m.crumbs.foldl (fun a c => a ||| bit16 (c.2.1 % 16)) e.vmask
      let bad := m.crumbs.foldl (fun a c => if (n.crumb c.2.1).poison then a ||| bit16 (c.2.1 % 16) else a) (0 : BitVec 16)
      let d := { d with te := { d.te with folds := (d.te.folds + 1) % 2 ^ 32 } }
      d.remapMark m.ns m.loaf bad (fun n => { n with
        crumbs := n.crumbs.filter (fun c => c.1 / 16 != m.loaf)
        map := Tbl.set n.map m.loaf { e with typ := .loaf, loc := loc, prot := 0, vmask := mask, crb := false } })
    else d
  else if m.crumbs.all same then
    d.grouped (fun d => (m.crumbs.zip (List.range 16)).foldl (fun (x : Die) c =>
      x.remap c.1.1 (c.1.2.1 / 16) [] (fun n =>
        { n with crumbs := Tbl.upd {} n.crumbs c.1.2.1 (fun y => { y with loc := loc, sslot := loc.slot * 16 + c.2 }) })) d)
  else d

/-- Media and host bytes counted, and noted in the second they belong to (R184, R186; seconds: log entry 44). -/
def Die.countBytes (d : Die) (g media host : Nat) : Die :=
  let s := d.now / 1000000
  let hour := match d.rc.hour with
    | (a, m, h) :: r => if a = s then (a, m + media, h + host) :: r else (s, media, host) :: (a, m, h) :: r
    | [] => [(s, media, host)]
  let d := if media = 0 then d else d.updGroup g (fun x => { x with mediaBytes := x.mediaBytes + media })
  { d with rc := { d.rc with hostBytes := d.rc.hostBytes + host, hour := hour.filter (fun e => decide (s < e.1 + 3600)) } }

/-! ## Full groups (R180) -/

/-- Data allocated in a group, bytes (R180). -/
def Die.groupAlloc (d : Die) (g : Nat) : Nat :=
  4096 * (sumBy (fun e => sumBy (fun m => if groupOf m.2.loc.port == g && (m.2.typ == .loaf || m.2.typ == .inflight || m.2.typ == .part)
      then popcount m.2.vmask else 0) e.2.map
    + sumBy (fun c => bit (c.2.st == .media && groupOf c.2.loc.port == g)) e.2.crumbs) d.nss)

/-- A group that can take no new allocation (R180). -/
def Die.isFull (d : Die) (g : Nat) : Bool := decide ((d.group g).userCap ≤ d.groupAlloc g)

/-- R180: a group becomes full, with its WARNING and event, or ceases to be. -/
def Die.checkFull (d : Die) (g : Nat) : Die :=
  let x := d.group g
  if !x.formed then d
  else if d.isFull g && !x.full then
    ((d.updGroup g (fun y => { y with full := true })).record 0x0503 sevWarning g (le 1 g)).vendorEvent 0x01 0x09
  else if !d.isFull g && x.full then d.updGroup g (fun y => { y with full := false })
  else d

/-- Every group looked at after data was allocated or released. -/
def Die.checkFulls (d : Die) : Die := (List.range 8).foldl (fun (x : Die) g => x.checkFull g) d

/-! ## Programs that pass -/

/-- R165, R184: the PU of a position has passed program and is counted: the map entries that were INFLIGHT there become LOAF, or PART
where they hold a settled heel, the crumbs MEDIA, the moves apply, and each change makes its record. -/
def Die.puPassed (d : Die) (r row pos : Nat) : Die :=
  let d := d.updRu r (fun u => { u with passed := (row * 64 + pos) :: u.passed })
  let keys := (d.ru r).slotKeys row pos
  let d := (d.rc.owner.filter (fun e => keys.contains e.1)).foldl (fun x e =>
    let y := (x.ns e.2.1).entry e.2.2
    if y.typ == .inflight && y.loc.key == e.1 then
      x.remap e.2.1 e.2.2 [e.1] (fun n => { n with map := Tbl.set n.map e.2.2 { y with typ := if n.isZoned && y.vmask != 0xFFFF then .part else .loaf } })
    else x) d
  let d := (d.rc.crumbSlots.filter (fun e => keys.contains e.1)).foldl (fun x e =>
    (e.2.zip (List.range 16)).foldl (fun x c =>
      let y := (x.ns c.1.1).crumb c.1.2
      if y.st == .staged && y.sslot == e.1 % 4 * 16 + c.2 && y.loc.key / 4 == e.1 / 4 then
        (x.proofDel y.prot).remap c.1.1 (c.1.2 / 16) [e.1] (fun n => { n with crumbs := Tbl.set n.crumbs c.1.2 { y with st := .media } })
      else x) x) d
  let d := d.countBytes (d.ru r).group (48 * 4096) 0
  ((List.range 3).foldl (fun x s =>
    let loc := (x.ru r).locOf row pos s
    match x.rc.moves.find? (fun e => e.1 == loc.key) with
    | some m => x.applyMove m.1 loc m.2
    | none => x) d).checkFulls

/-- The loaf that holds a zone's write pointer. -/
def Ns.wpLoaf (n : Ns) (z : Nat) : Nat := (z * n.zoneLbas + (n.zone z).wp) / 16

/-! ## Poison (R158, R258) -/

/-- A sector poisoned (R258): mark, journal, record, counter, event. -/
def Die.poison (d : Die) (nsid x port die block : Nat) : Die :=
  let n := d.ns nsid
  let was := d.loafWas nsid (x / 16)
  let crumb := (n.crumb x).st != .free && !(n.entry (x / 16)).vmask.getLsbD (x % 16)
  let whole := !crumb && !Tbl.has n.pmask (x / 16) && decide (pmaskSlots ≤ d.pmaskUsed)
  let d := if crumb then d.updNs nsid (fun n => { n with crumbs := Tbl.upd {} n.crumbs x (fun c => { c with poison := true }) })
    else d.markLoaf nsid (x / 16) (bit16 (x % 16))
  let d := d.journalWith (.poison nsid x) [was] []
  let d := d.record 0x0601 sevWarning noInst (le 4 nsid ++ le 8 (x * n.lbasPerSector) ++ le 2 port ++ le 1 die ++ le 2 block)
  (if whole then d else { d with rc := { d.rc with integrityErrs := d.rc.integrityErrs + 1 } }).smartEvent 0x00 2

/-- A sector poisoned where no block holds it: what the record's place says is open (log entry 17). -/
def Die.poisonHere (d : Die) (nsid x : Nat) : Die :=
  d.poison nsid x (Config.openCode 0x0601 0) (Config.openCode 0x0601 1) (Config.openCode 0x0601 2)

end Sys2Proof.Machine
end

