-- ==== Sys2Proof/Machine/Closing.lean ====
section
/-! DEFINITION. How the rows of an open reclaim unit close (R170, R248, R249, R253, R259): parity loaded and programmed, filler, rows cut
short, and the rows that dock-down, an entry into P3 and a start close at once. -/

namespace Sys2Proof.Machine

/-! ## What a row holds -/

/-- The written mask of a row that was cut short (R249). -/
def Ru.maskOf (u : Ru) (row : Nat) : Option Nat := (u.short.find? (fun e => e.1 == row)).map (fun e => e.2)

/-- Whether a position of a row holds data or parity: every one, but those outside the written mask of a row cut short. -/
def Ru.written (u : Ru) (row p : Nat) : Bool := match u.maskOf row with | some m => m.testBit p | none => true

/-- Whether the close of a row waits for a position to be programmed: not for a hole, one recorded as missing, or, where no row follows, one
that holds nothing (R249, R250, R253). -/
def Ru.waitsFor (u : Ru) (row p : Nat) : Bool := !u.isHole row p && !u.lost.contains (p, row) && (u.written row p || !u.retiring)

/-- Whether every loaf slot is loaded of the data positions that a row waits for (R248). -/
def Ru.rowLoaded (u : Ru) (row : Nat) : Bool :=
  (u.usePos row).all (fun p => !u.waitsFor row p || (List.range 3).all (fun s => u.loaded.contains ((row * 64 + p) * 4 + s)))

/-- The mask of some positions. -/
def maskOfPos (ps : List Nat) : Nat := ps.foldl (fun a p => a ||| 2 ^ p) 0

/-! ## Programs of an open row (R24, R248) -/

/-- An operation of a position of a row queued for its die: internal work of its group. -/
def Die.queueAt (d : Die) (r row pos : Nat) (f : Member → DieOp) : Die :=
  match (d.ru r).members[pos]? with
  | some m => d.queueOp { f m with port := m.port, die := m.die, block := m.block, pu := row, mp := true, tenant := tReclaim (d.ru r).group }
  | none => d

/-- A PROGRAM queued for a position of a row. -/
def Die.queueProgram (d : Die) (r row pos : Nat) (parity : Bool) : Die :=
  d.queueAt r row pos (fun m => { port := m.port, die := m.die, op := opProgram, parity := parity, what := .progPu r pos })

/-- A LOAD_ZERO queued for a loaf slot that takes filler (R249). -/
def Die.queueFill (d : Die) (r row pos slot : Nat) : Die :=
  d.queueAt r row pos (fun m => { port := m.port, die := m.die, op := opLoadZero, level := slot, cwmask := 0xF, what := .fill r pos slot })

/-- The three LOADs of a row's P or Q queued (R248). -/
def Die.queueParity (d : Die) (r row pos : Nat) : Die :=
  (List.range 3).foldl (fun (x : Die) s =>
    x.queueAt r row pos (fun m => { port := m.port, die := m.die, op := opLoad, level := s, cwmask := 0xF, parity := true, what := .shipPar r pos s })) d

/-- Whether the P or Q of a row is on its way to its member. -/
def Die.parityBegun (d : Die) (r row p : Nat) : Bool :=
  let u := d.ru r
  let mine := fun (o : DieOp) => o.pu == row && (o.what == .progPu r p || (List.range 3).any (fun s => o.what == .shipPar r p s))
  u.passed.contains (row * 64 + p) || (List.range 3).any (fun s => u.loaded.contains ((row * 64 + p) * 4 + s)) || d.sch.queued.any mine
    || match u.members[p]? with
       | some m => (d.port m.port).outst.any mine || (d.port m.port).cmds.any mine
       | none => true

/-- P and Q loaded and programmed once every data position of the row is loaded (R248). -/
def Die.parityDue (d : Die) (r row : Nat) : Die :=
  let u := d.ru r
  if u.st == .opened && u.row == row && !u.frozen && u.rowLoaded row && decide (row < u.arow) then
    ([posP u.k row, posQ u.k row].filter (fun p => u.waitsFor row p && !d.parityBegun r row p)).foldl (fun x p => x.queueParity r row p) d
  else d

/-- P and Q of a row stand on their members, the accumulators are released, and the ROW_CLOSE record names what the row holds and which of
its positions are missing (R248, R249, R253). -/
def Die.parityPassed (d : Die) (r row : Nat) : Die :=
  let u := d.ru r
  let put := fun (t : Tbl (BitVec 33280)) (pos : Nat) (acc : Tbl (BitVec 33280)) =>
    (List.range 48).foldl (fun t cw => Tbl.set t (secKey (u.locOf row pos (cw / 16)).key (cw % 16)) (Tbl.get 0 acc (row * 64 + cw))) t
  let par := put (put d.rc.parity (posP u.k row) u.accP) (posQ u.k row) u.accQ
  let d := { d with rc := { d.rc with parity := par } }
  let pq := [posP u.k row, posQ u.k row].filter (fun p => !u.isHole row p && !u.lost.contains (p, row))
  let d := d.updRu r (fun u => { u with
    accP := u.accP.filter (fun e => e.1 / 64 != row), accQ := u.accQ.filter (fun e => e.1 / 64 != row),
    passed := ((pq.map (fun p => row * 64 + p)).filter (fun x => !u.passed.contains x)) ++ u.passed
    row := row + 1, arow := max u.arow (row + 1), slots := if u.arow ≤ row then 0 else u.slots })
  let v := d.ru r
  let ps := (List.range (v.k + 2)).filter (fun p => v.written row p && v.passed.contains (row * 64 + p))
  let gone := (List.range (v.k + 2)).filter (fun p => v.lost.contains (p, row))
  ((d.accDone r).countBytes u.group (pq.length * 48 * 4096) 0).journal (.rowClose r row (maskOfPos ps) (maskOfPos gone))

/-- An RU whose last row is closed moves to CLOSED; its handle opens a new one when it next needs a row (R170). -/
def Die.closeRu (d : Die) (r : Nat) : Die :=
  let u := d.ru r
  let d := (d.giveTrays u.accTrays).updRu r (fun u => { u with st := .closed, closedAt := d.now, retiring := false, accTrays := [] })
  if Tbl.get none (d.group u.group).openRu u.handle == some r then
    d.updGroup u.group (fun x => { x with openRu := Tbl.set x.openRu u.handle none })
  else d

/-- A row whose every position has passed releases its accumulators; with its last row, or the last one of an RU that is to close, the RU is
CLOSED (R170, R248, R259). -/
def Die.rowDone (d : Die) (r row : Nat) : Die :=
  let u := d.ru r
  let ok := fun (p : Nat) => !u.waitsFor row p || u.passed.contains (row * 64 + p)
  if u.st == .opened && u.row == row && decide (row < u.arow) && !u.frozen && (u.usePos row).all ok && ok (posP u.k row) && ok (posQ u.k row) then
    let d := d.parityPassed r row
    if d.pusPerBlock u.group ≤ row + 1 ∨ (u.retiring = true ∧ u.arow ≤ row + 1) then d.closeRu r else d.parityDue r (row + 1)
  else d

/-! ## Rows cut short in service (R182, R222, R249, R259) -/

/-- The row whose loaf slots are being assigned takes no more of them: the slots left of a PU that holds data take filler, and so does every
PU that holds nothing, but not where no row follows (R249). -/
def Die.cutRow (d : Die) (r : Nat) (last : Bool) : Die :=
  let u := d.ru r
  if u.st != .opened || u.slots == 0 then d
  else
    let ps := u.slotPos u.arow
    let holds := ps.filter (fun p => decide (ps.idxOf p < u.slots))
    let key := fun (q : Nat × Nat) => (u.arow * 64 + q.1) * 4 + q.2
    let left := ((List.range' u.slots (3 * ps.length - u.slots)).map u.slotAt).filter (fun q =>
      !u.loaded.contains (key q) && !u.fills.contains (key q) && !u.passed.contains (u.arow * 64 + q.1))
    let fills := left.filter (fun q => !last || holds.contains q.1)
    let d := d.updRu r (fun u => { u with
      arow := u.arow + 1, slots := 0, short := (u.arow, maskOfPos (holds ++ [posP u.k u.arow, posQ u.k u.arow])) :: u.short
      fills := fills.map key ++ u.fills })
    fills.foldl (fun (x : Die) q => x.queueFill r u.arow q.1 q.2) d

/-- An open RU's rows close short, and it goes on with the next row (R182, R222). -/
def Die.shortRow (d : Die) (r : Nat) : Die := let d := d.cutRow r false; d.parityDue r (d.ru r).row

/-- No row of an open RU is opened again: its handle opens a new one when it next needs a row (R170). -/
def Die.leaveRu (d : Die) (r : Nat) : Die :=
  let u := d.ru r
  (d.updGroup u.group (fun x => if Tbl.get none x.openRu u.handle == some r then { x with openRu := Tbl.set x.openRu u.handle none } else x)).updRu r
    (fun u => { u with retiring := true })

/-- An OPEN RU moves to CLOSED (R170, R259): its open rows close short, no row of it is opened again, and its handle opens a new one. -/
def Die.shutRu (d : Die) (r : Nat) : Die :=
  let d := d.cutRow r true
  let u := d.ru r
  if u.st != .opened then d
  else
    let d := d.leaveRu r
    if u.row == u.arow then d.closeRu r else (d.parityDue r u.row).rowDone r u.row

/-! ## Rows closed at once (R28, R253, R411, R515) -/

/-- Every loaf slot of the open row that was assigned and not yet loaded is loaded (closing steps of R249). -/
def Die.loadRest (d : Die) (r row n : Nat) : Die :=
  let u := d.ru r
  let ps := u.slotPos row
  (List.range n).foldl (fun x i =>
    let pos := (ps[i % ps.length]?).getD 0
    let slot := i / ps.length
    if (x.ru r).loaded.contains ((row * 64 + pos) * 4 + slot) || !u.written row pos then x else x.loadOk r row pos slot) d

/-- The failed positions of an RU's open row that are not recovered recorded as missing, their loaves owed to another row. -/
def Die.failingLost (d : Die) (r : Nat) : Die :=
  let u := d.ru r
  if u.failing.isEmpty then d
  else
    let keys := u.failing.flatMap (fun f => u.slotKeys u.row f.1)
    let d := d.updRu r (fun u => { u with lost := u.failing.map (fun f => (f.1, u.row)) ++ u.lost, failing := [], frozen := false })
    { d with rc := { d.rc with owed := keys.filter (fun k => !d.rc.owed.contains k) ++ d.rc.owed } }

/-- R249: the open row of an RU closed short, with parity over the positions loaded; a position that holds nothing gets its filler PU, and
later rows start at the next PU. A position recorded as missing (R253, R259) is left out, and so is one whose failed program the close
finds not recovered, which is recorded as missing with it (R253; log entry 172). -/
def Die.closeRowShort (d : Die) (r : Nat) : Die :=
  let d := d.failingLost r
  let u := d.ru r
  if u.st == .opened then
    let n := if u.arow == u.row then u.slots else 3 * (u.slotPos u.row).length
    if n = 0 then d
    else
      let d := d.loadRest r u.row n
      let d := (u.usePos u.row).foldl (fun x p =>
        if (x.ru r).passed.contains (u.row * 64 + p) || (x.ru r).lost.contains (p, u.row) then x else x.puPassed r u.row p) d
      let ps := u.slotPos u.row
      let holds := ps.filter (fun p => decide (ps.idxOf p < n))
      let d := if n < 3 * ps.length ∧ (u.maskOf u.row).isNone = true then
          d.updRu r (fun u => { u with short := (u.row, maskOfPos (holds ++ [posP u.k u.row, posQ u.k u.row])) :: u.short }) else d
      let d := d.parityPassed r u.row
      let d := { d with sch := { d.sch with queued := d.sch.queued.filter (fun o => match o.what with
        | .shipLoaf x _ _ => !(x == r && o.pu == u.row)
        | .shipPar x _ _ => !(x == r && o.pu == u.row)
        | .fill x _ _ => !(x == r && o.pu == u.row)
        | .progPu x _ => !(x == r && o.pu == u.row)
        | _ => true) } }
      if d.pusPerBlock u.group ≤ u.row + 1 ∨ (u.retiring = true ∧ u.arow ≤ u.row + 1) then d.closeRu r else d
  else d

/-- Every open RU that a condition names. -/
def Die.openRusWith (d : Die) (f : Ru → Bool) : List Nat :=
  (d.rc.rus.filter (fun e => e.2.st == .opened && f e.2)).map (fun e => e.1)

/-- The rows of an RU in which loaf slots have been assigned and that are not closed. -/
def Ru.openRows (u : Ru) : List Nat := List.range' u.row (u.arow + 1 - u.row)

/-- Every row of an RU that has loaf slots assigned closed short, one after another (R28, R249). -/
def Die.closeRows (d : Die) (r : Nat) : Die := (d.ru r).openRows.foldl (fun x _ => x.closeRowShort r) d

/-- Every open row closed short (R28 step 3, R411 step 3 for P3). -/
def Die.closeAllRows (d : Die) : Die := (d.openRusWith (fun _ => true)).foldl (fun x r => x.closeRows r) d

end Sys2Proof.Machine
end

