-- ==== Sys2Proof/Machine/Words.lean ====
section
/-! DEFINITION. Code words of DRAM and what becomes of a lost one (R339 to R342, R351): decoding a word that is stored with flips, the
counters, and the loss of what a word holds. -/

namespace Sys2Proof.Machine

/-! ## Lost words (R340 to R342) -/

/-- Where the map, a crumb or a heel names a place in the proofing area: namespace and sector. -/
def Die.proofOwners (d : Die) (a : Nat) : List (Nat × Nat) :=
  let bits (mask : BitVec 16) (base : Nat) : List Nat := (List.range 16).filter (fun i => mask.getLsbD i && base + sectorUnits * i == a)
  d.nss.flatMap (fun e =>
    (e.2.map.flatMap (fun m => if m.2.typ == .heel || m.2.typ == .staged then (bits m.2.vmask m.2.prot).map (fun i => (e.1, m.1 * 16 + i)) else []))
      ++ (e.2.crumbs.filter (fun c => c.2.st == .staged && c.2.prot == a)).map (fun c => (e.1, c.1))
      ++ (e.2.zones.flatMap (fun z => (bits z.2.heelMask z.2.heelProt).map (fun i => (e.1, e.2.wpLoaf z.1 * 16 + i)))))

/-- A sector of the proofing area lost: poisoned where a namespace maps it, else marked until its write maps it (R342). -/
def Die.loseProof (d : Die) (a : Nat) : Die :=
  match d.proofOwners a with
  | [] => { d with te := { d.te with proof := d.te.proof.map (fun e => if e.1 = a then (a, { e.2 with poison := true }) else e) } }
  | os => os.foldl (fun x o => if (x.ns o.1).isPoisoned o.2 then x else x.poisonHere o.1 o.2) d

/-- The sectors of the proofing area that hold a byte of it. -/
def Die.proofAt (d : Die) (byte : Nat) : List Nat :=
  let size := d.dc.proofGib * Config.gib
  ((d.te.proof.map (fun e => e.1)).filter (fun a => decide (a * 256 % size ≤ byte) && decide (byte < a * 256 % size + 4352)))

/-- REGION_LOSS (R478); the region's number is open (log entry 17). -/
def Die.regionLoss (d : Die) (sev ch line region : Nat) : Die :=
  d.record 0x0B02 sev ch (le 2 ch ++ le 5 line ++ le 1 (Config.openCode 0x0B02 region))

/-- DRAM_UNCORRECTABLE (R342): a lost word handled by its region. Map pages, crumb buckets and valid counts come back as they
were. -/
def Die.lostWord (d : Die) (ch line word : Nat) : Die :=
  match d.dc.byteAt ch line word with
  | none => d
  | some e =>
    if e.1 = 3 then ((d.proofAt e.2).foldl (fun x a => x.loseProof a) d).regionLoss sevError ch line 3
    else d.regionLoss (if e.1 = 2 then sevNotice else sevWarning) ch line e.1

/-- The poison bit of a code word (R341), by line x 8 + word. -/
def Chan.marked (x : Chan) (w : Nat) : Bool := x.pbits.contains w

/-- An uncorrectable word found: counted unless its poison bit was set already, the bit written back (R340, R341). -/
def Die.uncorrectable (d : Die) (ch line word : Nat) (addr : Bool) : Die :=
  (d.updChan ch (fun x => { x with
    ue := satInc 0xFFFFFFFF x.ue, addrErr := if addr then satInc 0xFFFFFFFF x.addrErr else x.addrErr
    flips := Tbl.del x.flips (line * 8 + word)
    pbits := if x.marked (line * 8 + word) then x.pbits else (line * 8 + word) :: x.pbits })).lostWord ch line word

/-- R349: a corrected word counts for its DIMM over 24 h; which DIMM holds a line is log entry 32's. -/
def Die.correctedWord (d : Die) (ch line : Nat) : Die :=
  let x := d.chan ch
  let dimm := if x.cap0 * 16777216 ≤ line then 1 else 0
  let ts := d.now :: (Tbl.get [] x.ceTimes dimm).filter (fun t => decide (d.now < t + 86400000000))
  let d := d.updChan ch (fun y => { y with ce := satInc 0xFFFFFFFF y.ce, ceTimes := Tbl.set y.ceTimes dimm (if 1000 < ts.length then [] else ts) })
  if 1000 < ts.length then d.record 0x0B03 sevWarning ch (le 2 ch ++ le 1 dimm ++ le 4 ts.length) else d

/-- Lines a channel holds. -/
def Chan.lines (x : Chan) : Nat := (x.cap0 + x.cap1) * 16777216

/-! ## Decoding (R340, R351) -/

/-- The bits that a mask sets. -/
def bitsSet {w : Nat} (m : BitVec w) : Nat := ((List.range w).filter (fun i => m.getLsbD i)).length

/-- What the decoder finds of a word stored with flips (R340): up to two errors are located, and one in an address position is an address
fault; three or more are not (that four or more are not: DEDUCED, log entry 181). -/
def flipsFind (f : BitVec 80 × BitVec 36) : DramOutcome :=
  let n := bitsSet f.1 + bitsSet f.2
  if n = 0 then .clean else if 2 < n then .uncorrectable else if f.2 = 0 then .corrected else .addressFault

/-- The outcome of a decode handled (R340, R341): a word whose poison bit is set is lost without a new count, and a corrected one is
written back. -/
def Die.foundWord (d : Die) (ch line word : Nat) (o : DramOutcome) : Die :=
  let x := d.chan ch
  let w := line * 8 + word
  if x.marked w then d.lostWord ch line word
  else match (match Tbl.get none (x.flips.map (fun e => (e.1, some e.2))) w with | some f => flipsFind f | none => o) with
    | .clean => d
    | .corrected => (d.updChan ch (fun y => { y with flips := Tbl.del y.flips w })).correctedWord ch line
    | .addressFault => d.uncorrectable ch line word true
    | .uncorrectable => d.uncorrectable ch line word false
    | .poisoned => d.lostWord ch line word

/-- The words of a channel's lines that are stored with flips, decoded by a read of them. -/
def Die.decodeLine (d : Die) (ch line : Nat) : Die :=
  ((d.chan ch).flips.filter (fun e => e.1 / 8 == line)).foldl (fun (x : Die) e => x.foundWord ch line (e.1 % 8) .clean) d

/-- A sector read from the proofing area: its lines are read and their words decoded (R340, R344). kind: as in DRead. -/
def Die.readProof (d : Die) (a kind : Nat) : Die :=
  let byte := a * 256 % (d.dc.proofGib * Config.gib)
  let d := { d with dc := d.dc.readLines d.now 3 byte kind 68 }
  if d.dc.chans.all (fun c => c.2.flips.isEmpty) then d
  else (List.range 68).foldl (fun (x : Die) i => match x.dc.lineOf 3 (byte + 64 * i) with
    | some p => x.decodeLine p.1 p.2
    | none => x) d

/-- The sectors of some places read that lie in the proofing area (R344). -/
def Die.readPlaces (d : Die) (kind : Nat) (ps : List Place) : Die :=
  ps.foldl (fun (x : Die) p => match p with | .proof a => x.readProof a kind | _ => x) d

end Sys2Proof.Machine
end

