-- ==== Sys2Proof/Machine/Heels.lean ====
section
/-! DEFINITION. Zones and their heels, reclaim groups, retired blocks, and what a discard or a release gives back (files 04 and 05). -/

namespace Sys2Proof.Machine

/-! ## Zones and heels (R132, R136) -/

/-- A zone that holds a heel in the proofing area, not settled; a full one holds none. -/
def Ns.hasHeel (n : Ns) (z : Nat) : Bool :=
  decide ((n.zone z).wp < n.zoneLbas)
    && ((n.zone z).heelMask != 0 || ((n.entry (n.wpLoaf z)).typ == .heel && (n.entry (n.wpLoaf z)).vmask != 0))

/-- The zone's heel settled or drained (R136): programmed as a part loaf with the missing sectors zero, its entry INFLIGHT until the
program passes (R165); it stays in the proofing area where the group gives it no slot. A new heel over a part loaf is merged with it
(R137). Its loaf goes to the handle of the write that last added to it (R149). -/
def Die.settleHeel (d : Die) (nsid z : Nat) : Die :=
  let n := d.ns nsid
  let l := n.wpLoaf z
  let zn := n.zone z
  if n.hasHeel z then
    let d := d.readPlaces 3 ((List.range 16).map (fun i => n.placeOf (l * 16 + i)))
    let n := d.ns nsid
    let e := n.entry l
    let mask := e.vmask ||| zn.heelMask
    let secs := ((List.range 16).filter (fun i => mask.getLsbD i)).map (fun i => (i, d.sectorAt (n.placeOf (l * 16 + i))))
    match d.ship (zn.group.getD 0) zn.heelRuh .heel n.owner 3 secs with
    | none => d
    | some (loc, d') =>
      let d' := (List.range 16).foldl (fun x i =>
        let x := if e.typ == .heel then x.proofDel (e.prot + sectorUnits * i) else x
        if zn.heelMask != 0 then x.proofDel (zn.heelProt + sectorUnits * i) else x) d'
      let d' := { d' with rc := { d'.rc with owner := Tbl.set d'.rc.owner loc.key (nsid, l) } }
      d'.updNs nsid (fun n => ({ n with map := Tbl.set n.map l { e with typ := .inflight, loc := loc, vmask := mask, prot := 0 } }).updZone z
        (fun y => { y with settled := true, heelMask := 0, heelProt := 0 }))
  else d

/-- What a zone holds is released (R139, R179): entries, heel, poison marks; one range record. -/
def Die.releaseZone (d : Die) (nsid z : Nat) : Die :=
  let n := d.ns nsid
  let first := z * n.zoneLbas / 16
  let last := (z + 1) * n.zoneLbas / 16
  let inZone := fun l => decide (first ≤ l) && decide (l < last)
  let addrs := ((n.map.filter (fun e => inZone e.1 && e.2.typ == .heel)).flatMap
      (fun e => (List.range 16).map (fun i => e.2.prot + sectorUnits * i)))
    ++ (if (n.zone z).heelMask != 0 then (List.range 16).map (fun i => (n.zone z).heelProt + sectorUnits * i) else [])
  let was := Undo.zone nsid z (n.zone z) :: ((n.map.map (fun e => e.1)).filter inZone).map (d.loafWas nsid)
  let d := Die.press { d with te := { d.te with proof := d.te.proof.filter (fun e => !addrs.contains e.1) } }
  (d.updNs nsid (fun n => { n with
    map := n.map.filter (fun e => !inZone e.1), pmask := n.pmask.filter (fun e => !inZone e.1) })).journalWith
    (.range nsid (first * 16) ((last - first) * 16)) was []

/-- Open zones and active zones of a namespace (R131). -/
def Ns.openZones (n : Ns) : Nat := (n.zones.filter (fun e => e.2.st == .zsio || e.2.st == .zseo)).length
def Ns.activeZones (n : Ns) : Nat := (n.zones.filter (fun e => e.2.st == .zsio || e.2.st == .zseo || e.2.st == .zsc)).length

/-- Open zones of the namespaces a condition names move to ZSC, or to ZSE where nothing is written (R132). -/
def Die.closeZones (d : Die) (f : Nat → Ns → Bool) (keep : Nat → Nat → Bool) : Die :=
  { d with nss := d.nss.map (fun e => if f e.1 e.2 then
      (e.1, { e.2 with zones := e.2.zones.map (fun z =>
        if keep e.1 z.1 then z
        else if z.2.st == .zsio || z.2.st == .zseo then
          (z.1, if z.2.wp = 0 then { z.2 with st := .zse, group := none, wpNext := 0 }
                else { z.2 with st := .zsc, closedAt := d.now, wpNext := z.2.wp })
        else (z.1, { z.2 with wpNext := z.2.wp })) })
      else e) }

/-! ## Groups (R148, R180, R181) -/

/-- Data capacity of a group's good blocks, bytes: k of every k + 2 PUs hold data. -/
def Die.groupData (d : Die) (g : Nat) : Nat :=
  sumBy d.goodBlocks (d.members g) * d.pusPerBlock g * 192 * 1024 * (d.group g).k / ((d.group g).k + 2)

/-- User capacity of a group as computed at its formation (R148). -/
def Die.computeUserCap (d : Die) (g : Nat) : Nat := d.groupData g * (1000 - (d.group g).spare) / 1000

/-- Spare remaining in units of 0.01 %, rounded down (R180). -/
def Die.spareRemaining (d : Die) (g : Nat) : Nat := (d.groupData g - (d.group g).userCap) * 10000 / d.groupData g

/-- The status that a READ_ONLY group gives a write (R181). -/
def Group.roStatus (g : Group) : Status := if g.ro == some .berths then stDegradedRo else stCapacity

/-- A group becomes READ_ONLY (R181, R182): open rows close, heels drain into the heel reserve, writes not COMMITTED
that need it end when they are placed. -/
def Die.groupReadOnly (d : Die) (g : Nat) (c : RoCause) : Die :=
  let d := d.updGroup g (fun x => { x with ro := some c })
  let d := (d.openRusWith (fun u => u.group == g)).foldl (fun x r => x.shortRow r) d
  let d := d.nss.foldl (fun x e => e.2.zones.foldl (fun y z =>
    if z.2.group == some g && e.2.hasHeel z.1 then y.settleHeel e.1 z.1 else y) x) d
  let code := match c with | .spare => 1 | .gc => 2 | .berths => 3
  let d := d.record 0x0504 sevAlert g (le 1 g ++ le 1 (Config.openCode 0x0504 code))
  let d := d.smartEvent 0x00 3
  if c == .berths then d.smartEvent 0x00 2 else d

/-- R181, R184: the READ_ONLY, full and spare conditions of a group looked at again. -/
def Die.checkGroup (d : Die) (g : Nat) (berthLoss : Bool) : Die :=
  let x := d.group g
  let sp := d.spareRemaining g
  if !x.formed then d
  else match x.ro with
    | none =>
      if sp < 200 then d.groupReadOnly g (if berthLoss then .berths else .spare)
      else d.checkFull g
    | some .gc =>
      if Config.gcReserve ≤ d.freeRus g ∧ 200 ≤ sp then
        (d.updGroup g (fun y => { y with ro := none, heelDrawn := 0 })).record 0x0505 sevNotice g (le 1 g ++ le 2 sp)
      else d
    | some _ =>
      if 400 ≤ sp then (d.updGroup g (fun y => { y with ro := none, heelDrawn := 0 })).record 0x0505 sevNotice g (le 1 g ++ le 2 sp)
      else d

/-- R148: a group that holds no berth and no data clears its geometry and its user capacity. It holds no berth where none of its berths
is ONLINE (DESIGN CHOICE, log entry 162). -/
def Die.clearEmptyGroup (d : Die) (g : Nat) : Die :=
  if (d.members g).isEmpty && !(d.rc.rus.any (fun e => e.2.group == g && e.2.st != .free)) && ((d.group g).geometry).isSome then
    d.updGroup g (fun x => { x with geometry := none, formed := false, userCap := 0, ro := none, full := false })
  else d

/-- Available Spare, % (R184): the lowest over the formed groups of 100 x spare remaining ÷ spare allowance; never above 100, and 100 where
no group is formed (DESIGN CHOICE, log entry 197). -/
def Die.availableSpare (d : Die) : Nat :=
  (d.rc.groups.filter (fun e => e.2.formed)).foldl (fun a e =>
    min a ((d.groupData e.1 - e.2.userCap) * 100000 / (d.groupData e.1 * e.2.spare))) 100

/-- R549: the spare event when Available Spare falls below its threshold. -/
def Die.checkSpare (d : Die) : Die :=
  let low := decide (d.availableSpare < d.rc.spareThresh)
  if low && !d.rc.spareLow then ({ d with rc := { d.rc with spareLow := true } }).smartEvent 0x02 0
  else if !low && d.rc.spareLow then { d with rc := { d.rc with spareLow := false } } else d

/-- A block retired (R178): never used again, logged, and the berth named when more than 5 % of its blocks are. -/
def Die.retireBlock (d : Die) (port die block cause : Nat) : Die :=
  let d := d.updBlock (blockKey port die block) (fun b => { b with st := .retired })
  let d := d.updGroup (groupOf port) (fun x => { x with retired := x.retired + 1 })
  let d := d.record 0x0501 sevNotice port (le 2 port ++ le 1 die ++ le 2 block ++ le 1 (Config.openCode 0x0501 cause))
  let n := (d.rc.blocks.filter (fun e => e.1 / 8192 / 16 == port && e.2.st == .retired)).length
  let all := match (d.port port).passport with | some x => x.dies * x.blocks | none => 0
  let d := if all < 20 * n then d.record 0x0502 sevWarning port (le 2 port ++ le 4 n) else d
  (d.checkGroup (groupOf port) false).checkSpare

/-- A block queued for refresh (R177): priority 0 normal, 1 high, 2 immediate, the higher one kept. -/
def Die.refreshBlock (d : Die) (key prio : Nat) : Die :=
  { d with rc := { d.rc with refresh := Tbl.upd 0 d.rc.refresh key (fun p => max p prio) } }

/-- R158: a sector's poison mark cleared. -/
def Ns.unpoison (n : Ns) (x : Nat) : Ns :=
  let m := n.poisonMask (x / 16) &&& ~~~ (bit16 (x % 16))
  { n with
    pmask := if m = 0 then Tbl.del n.pmask (x / 16) else Tbl.set n.pmask (x / 16) m
    map := if Tbl.has n.map (x / 16) then Tbl.upd {} n.map (x / 16) (fun e => { e with poison := m != 0 }) else n.map
    crumbs := if Tbl.has n.crumbs x then Tbl.upd {} n.crumbs x (fun c => { c with poison := false }) else n.crumbs }

/-- R179: one sector discarded: its VMASK bit, crumb and poison mark go; proofing space is given back. -/
def Die.discard (d : Die) (nsid x : Nat) : Die :=
  let n := d.ns nsid
  let e := n.entry (x / 16)
  let i := x % 16
  let d := if e.vmask.getLsbD i && (e.typ == .staged || e.typ == .heel) then d.proofDel (e.prot + sectorUnits * i) else d
  let c := n.crumb x
  let d := if c.st == .staged then d.proofDel c.prot else d
  d.updNs nsid (fun n =>
    let n := n.unpoison x
    let m := e.vmask &&& ~~~ (bit16 i)
    let cr := Tbl.del n.crumbs x
    let more := cr.any (fun y => y.1 / 16 == x / 16)
    { n with
      crumbs := cr
      map := if m = 0 ∧ more = false then Tbl.del n.map (x / 16)
             else Tbl.set n.map (x / 16) { n.entry (x / 16) with
               vmask := m, crb := more } })

/-- Everything a namespace holds is released (R153): one range record. -/
def Die.releaseNs (d : Die) (nsid : Nat) : Die :=
  let n := d.ns nsid
  let addrs := (n.map.filter (fun e => e.2.typ == .heel || e.2.typ == .staged)).flatMap
      (fun e => (List.range 16).map (fun i => e.2.prot + sectorUnits * i))
    ++ (n.crumbs.filter (fun e => e.2.st == .staged)).map (fun e => e.2.prot)
    ++ (n.zones.filter (fun e => e.2.heelMask != 0)).flatMap (fun e => (List.range 16).map (fun i => e.2.heelProt + sectorUnits * i))
  let d := Die.press { d with te := { d.te with proof := d.te.proof.filter (fun e => !addrs.contains e.1) } }
  let loaves := (n.map.map (fun (e : Nat × LoafEntry) => e.1) ++ n.crumbs.map (fun (c : Nat × Crumb) => c.1 / 16)).eraseDups
  let was := .form nsid n.lbaf n.nsze :: n.zones.map (fun (z : Nat × Zone) => Undo.zone nsid z.1 z.2) ++ loaves.map (d.loafWas nsid)
  (d.updNs nsid (fun n => { n with map := [], crumbs := [], pmask := [], zones := [], rotation := [], foldAt := [] })).journalWith
    (.range nsid 0 n.sectors) was []

end Sys2Proof.Machine
end

