-- ==== Sys2Proof/Machine/Operands.lean ====
section
/-! DEFINITION. The operand forms: the fields of a submission entry (R75 to R78), of the fields of the NVMe commands, and
the payload fields of a Kanex request (R369). -/

namespace Sys2Proof

/-- A field of a word: n bits from bit lo. -/
def bitsOf {w : Nat} (x : BitVec w) (lo n : Nat) : Nat := x.toNat / 2 ^ lo % 2 ^ n

/-! ## The submission entry (R75) -/

def SqEntry.opc (e : SqEntry) : Nat := bitsOf e.dw0 0 8
def SqEntry.fuse (e : SqEntry) : Nat := bitsOf e.dw0 8 2
def SqEntry.psdt (e : SqEntry) : Nat := bitsOf e.dw0 14 2
def SqEntry.cid (e : SqEntry) : Nat := bitsOf e.dw0 16 16
def SqEntry.ns (e : SqEntry) : Nat := e.nsid.toNat

/-- Reserved bits 13:10 of dword 0. -/
def SqEntry.dw0Rsv (e : SqEntry) : Bool := bitsOf e.dw0 10 4 != 0
/-- PSDT 0b01: the data pointer is an SGL descriptor (R75). -/
def SqEntry.sgl (e : SqEntry) : Bool := e.psdt == 1
/-- The data pointer as PRP1 and PRP2 (R75). -/
def SqEntry.prp1 (e : SqEntry) : Nat := bitsOf e.dptr 0 64
def SqEntry.prp2 (e : SqEntry) : Nat := bitsOf e.dptr 64 64
/-- The data pointer as one SGL descriptor (R75): its length, and its type in bits 127:124 (places PRESUMED, log entry 10). -/
def SqEntry.sglLen (e : SqEntry) : Nat := bitsOf e.dptr 64 32
def SqEntry.sglType (e : SqEntry) : Nat := bitsOf e.dptr 124 4

/-- Every namespace (R75). -/
def nsidAll : Nat := 0xFFFFFFFF

/-! ## Read, Write, Write Zeroes, Verify, Zone Append (R76) -/

/-- Dwords 10 and 11. -/
def SqEntry.slba (e : SqEntry) : Nat := e.cdw10.toNat + 2 ^ 32 * e.cdw11.toNat
/-- The number of LBAs. -/
def SqEntry.nlb (e : SqEntry) : Nat := bitsOf e.cdw12 0 16 + 1
def SqEntry.dtype (e : SqEntry) : Nat := bitsOf e.cdw12 20 4
def SqEntry.stc (e : SqEntry) : Nat := bitsOf e.cdw12 24 1
def SqEntry.prinfo (e : SqEntry) : Nat := bitsOf e.cdw12 26 4
/-- LR: the ladder skips soft-decision re-reads (R76). -/
def SqEntry.lr (e : SqEntry) : Bool := bitsOf e.cdw12 31 1 == 1
def SqEntry.dspec (e : SqEntry) : Nat := bitsOf e.cdw13 16 16

/-! ## The hint dword (R77) -/

def SqEntry.plh (e : SqEntry) : Nat := bitsOf e.vhd 0 4
def SqEntry.plhV (e : SqEntry) : Bool := bitsOf e.vhd 4 1 == 1
def SqEntry.hot (e : SqEntry) : Nat := bitsOf e.vhd 5 2
def SqEntry.lco (e : SqEntry) : Nat := bitsOf e.vhd 8 2
def SqEntry.lcoV (e : SqEntry) : Bool := bitsOf e.vhd 10 1 == 1
def SqEntry.ff (e : SqEntry) : Bool := bitsOf e.vhd 11 1 == 1
def SqEntry.ffd (e : SqEntry) : Nat := bitsOf e.vhd 16 16
/-- The RSV bits of the hint dword, 7 and 15:12. -/
def SqEntry.vhdRsv (e : SqEntry) : Bool := bitsOf e.vhd 7 1 != 0 || bitsOf e.vhd 12 4 != 0

/-! ## Zone management and the admin commands (fields PRESUMED from the NVMe specifications, log entry 10) -/

/-- Zone Send or Receive action, dword 13 bits 7:0. -/
def SqEntry.zsa (e : SqEntry) : Nat := bitsOf e.cdw13 0 8
/-- Select All, dword 13 bit 8. -/
def SqEntry.selectAll (e : SqEntry) : Bool := bitsOf e.cdw13 8 1 == 1
/-- Report Zones: reporting option, dword 13 bits 15:8, and Partial Report, bit 16. -/
def SqEntry.zrasf (e : SqEntry) : Nat := bitsOf e.cdw13 8 8
def SqEntry.partialReport (e : SqEntry) : Bool := bitsOf e.cdw13 16 1 == 1
/-- Bytes of the host's buffer of a Zone Management Receive: dword 12 holds dwords minus 1. -/
def SqEntry.zoneBuf (e : SqEntry) : Nat := (e.cdw12.toNat + 1) * 4
/-- Queue identifier and size of the queue commands, dword 10. -/
def SqEntry.qid (e : SqEntry) : Nat := bitsOf e.cdw10 0 16
def SqEntry.qsize (e : SqEntry) : Nat := bitsOf e.cdw10 16 16 + 1
/-- Feature identifier and Save bit of Set Features and Get Features. -/
def SqEntry.fid (e : SqEntry) : Nat := bitsOf e.cdw10 0 8
def SqEntry.sv (e : SqEntry) : Bool := bitsOf e.cdw10 31 1 == 1
/-- Log identifier and Retain Asynchronous Event of Get Log Page. -/
def SqEntry.lid (e : SqEntry) : Nat := bitsOf e.cdw10 0 8
def SqEntry.rae (e : SqEntry) : Bool := bitsOf e.cdw10 15 1 == 1

/-- Dwords 10 to 15 of an entry. -/
def SqEntry.cdws (e : SqEntry) : List Word := [e.cdw10, e.cdw11, e.cdw12, e.cdw13, e.cdw14, e.cdw15]

/-- Whether dwords 10 to 15 have a bit set outside those a command uses: a reserved field (R13). -/
def SqEntry.outside (e : SqEntry) (used : List Word) : Bool := (List.zipWith (fun w u => w &&& ~~~u != 0) e.cdws used).any id

/-! ## Kanex payload fields (R369): n bytes at an offset, little-endian -/

def KReq.get (q : KReq) (off n : Nat) : Nat := Machine.leAt q.payload off n
/-- Whether a range of payload bytes is zero. -/
def KReq.zeroed (q : KReq) (off n : Nat) : Bool := ((q.payload.drop off).take n).all (fun b => b == 0)
/-- The payload as LEN bounds it (R369). -/
def KReq.body (q : KReq) : List Byte := Machine.padTo q.len q.payload

end Sys2Proof
end

