-- ==== Sys2Proof/Machine/Sched.lean ====
section
/-! DEFINITION. The scheduler's arithmetic (file 08): costs, stamps, weights, deadlines, profiles, the admission limit and
the latency histograms. -/

namespace Sys2Proof.Machine

/-! ## Profiles (R183, R287) -/

/-- The parameters of a service profile. -/
structure Profile where
  suspClasses : List Nat
  suspMax : Nat
  suspTime : Nat
  suspReads : Nat
  guard : Nat
  reconClasses : List Nat
  /-- Reconstruct cap in units of 0.1 % of the group's host reads. -/
  reconCap : Nat
  queueMax : Nat
  wStart : Nat
  wUrgent : Nat
  cap : Nat
  /-- GC start and GC urgent in units of 0.1 % of the group's RUs. -/
  gcStart : Nat
  gcUrgent : Nat
  costBenefit : Bool
  foldPeriod : Nat
  wearSpread : Nat
deriving DecidableEq, Repr

/-- R183, R287: 0 TIGHT, 1 BULK, 2 LONG, 3 LEAN. -/
def profile : Nat → Profile
  | 0 => ⟨[0, 1, 2], 8, 2000, 4, 10, [0, 1], 20, 1, 64, 1024, 190, 50, 20, false, 120, 200⟩
  | 2 => ⟨[0, 1], 3, 600, 2, 5, [0], 5, 2, 32, 512, 190, 40, 20, true, 600, 100⟩
  | 3 => ⟨[0], 2, 300, 1, 5, [], 0, 1, 128, 2048, 120, 30, 15, false, 120, 200⟩
  | _ => ⟨[0, 1], 3, 600, 2, 5, [0], 5, 2, 128, 2048, 190, 30, 15, false, 120, 200⟩

/-- The profile in force. -/
def Die.prof (d : Die) : Profile := profile d.sch.profile

/-- The profile that reclaim decides by: the one last set, from the next GC decision on (R183). -/
def Die.gcProf (d : Die) : Profile := profile d.sch.profileNext

/-- The power cap in force, W: the LEAN cap is the owner's (R287). -/
def Die.powerCap (d : Die) : Nat := if d.sch.profile = 3 then d.sch.leanCap else d.prof.cap

/-! ## Weights, deadlines, stamps (R274 to R282) -/


/-- The weight of a host or internal tenant (R275, R300): an inactive host tenant takes its SHARE. -/
def Die.weight (d : Die) (t : Nat) : Nat :=
  if t < 2048 then (match Tbl.get 0 d.sch.w t with | 0 => max 1 (d.tenant t).force.share | w => w)
  else match Tbl.get 0 d.sch.wInt t with
    | 0 => if t = tPatrol ∨ t = tRebuild then 1 else 4
    | w => w

/-- Read deadline of a class, µs (R282). -/
def readDeadline : Nat → Option Nat
  | 0 => some 150
  | 1 => some 500
  | 2 => some 5000
  | _ => none

/-- Write acknowledgement target of a class, µs (R282). -/
def writeTarget : Nat → Option Nat
  | 0 => some 50
  | 1 => some 200
  | 2 => some 2000
  | _ => none

/-- Deadline of a class and KIND (R282): 0 read or Verify, 1 write; others carry none. -/
def deadlineOf (cls kind : Nat) : Option Nat :=
  if kind = 0 then readDeadline cls else if kind = 1 then writeTarget cls else none

/-- KIND of a command (R276): 0 read or Verify, 1 write, 2 zone or admin action. Write Zeroes counts as a write and the
other commands without data as actions (DEDUCED, log entry 19). -/
def kindOf (admin : Bool) (opc : Nat) : Nat :=
  if admin then 2
  else if opc = 0x02 ∨ opc = 0x0C then 0
  else if opc = 0x01 ∨ opc = 0x7D ∨ opc = 0x08 then 1 else 2

/-- Loaves an LBA range touches. -/
def Ns.loavesTouched (n : Ns) (slba nlb : Nat) : Nat :=
  (slba + nlb - 1) / n.lbasPerSector / 16 - slba / n.lbasPerSector / 16 + 1

/-- Internal sectors an LBA range touches. -/
def Ns.sectorsTouched (n : Ns) (slba nlb : Nat) : Nat :=
  (slba + nlb - 1) / n.lbasPerSector - slba / n.lbasPerSector + 1

/-- R274: the intake estimate of an I/O command, die µs. A command the table does not name costs a value the spec leaves
open (log entry 19). -/
def Die.cost0 (d : Die) (admin : Bool) (e : SqEntry) : Nat :=
  let n := d.ns e.ns
  if admin then d.freeVal % 65536
  else if e.opc = 0x02 ∨ e.opc = 0x0C then 45 * n.loavesTouched e.slba e.nlb
  else if e.opc = 0x01 ∨ e.opc = 0x7D then ceilDiv (544 * n.sectorsTouched e.slba e.nlb) 16
  else if e.opc = 0x08 ∨ e.opc = 0x09 ∨ e.opc = 0x79 ∨ e.opc = 0x7A ∨ e.opc = 0x00 then 1
  else d.freeVal % 65536

/-- Whether the estimate of a command is the open value. -/
def costOpen (admin : Bool) (opc : Nat) : Bool :=
  admin || !([0x00, 0x01, 0x02, 0x08, 0x09, 0x0C, 0x79, 0x7A, 0x7D].contains opc)

/-- The key by which intake compares functions (R277). -/
def Die.intakeKey (d : Die) (t : Nat) : Nat := max d.sch.v0 (Tbl.get 0 d.sch.f0 t)

/-- R277: the stamp of a command at its fetch, and the intake tags moved on. -/
def Die.stampFor (d : Die) (t cls kind cost rung : Nat) : Stamp × Die :=
  let s0 := d.intakeKey t
  let dl := deadlineOf cls kind
  ({ tenant := t, cls := cls, kind := kind, s0 := s0, deadline := (rung + dl.getD 0) % 2 ^ 32, dlv := dl.isSome, cost0 := cost },
   { d with sch := { d.sch with v0 := s0, f0 := Tbl.set d.sch.f0 t (s0 + cost * 1024 / d.weight t) } })

/-! ## Admission (R289, R302) -/

/-- The throttle factor H in units of 1/100 (R289). -/
def throttleFactor : Nat → Nat
  | 0 => 100
  | 1 => 75
  | 2 => 50
  | 3 => 35
  | _ => 25

/-- The 4 KiB random-read ceiling of m active modules at 32 GT/s, M IOPS (R44). -/
def moduleCeiling : Nat → Nat
  | 0 => 0
  | 1 => 53
  | 2 => 106
  | 3 => 160
  | 4 => 213
  | 5 => 267
  | 6 => 320
  | 7 => 373
  | _ => 400

/-- Active modules of the host link. -/
def Die.modules (d : Die) : Nat := (List.range 8).foldl (fun a i => a + bit (d.link.mask.getLsbD i)) 0

/-- The admission limit A of R289: A_rated x 500 ps ÷ pace_max x H x M. R44 gives the ceilings of M at 32 GT/s only; the model takes them at
every data rate (DESIGN CHOICE, log entry 174). -/
def Die.admissionLimit (d : Die) : Nat :=
  400000 * 500 * throttleFactor d.aon.step * moduleCeiling d.modules / (max 1 d.aon.paceMax * 100 * 400)

/-- Whether a tenant is held by a budget (R302): a budgeted credit is zero or below. -/
def Tenant.heldByBudget (t : Tenant) : Bool :=
  (t.force.rd != 0 && decide (t.crRd ≤ 0)) || (t.force.wr != 0 && decide (t.crWr ≤ 0)) || (t.force.kiops != 0 && decide (t.crCmd ≤ 0))

/-- The charge of a command at admission (R302): read bytes, write bytes, commands. -/
def Die.chargeOf (d : Die) (e : SqEntry) : Nat × Nat × Nat :=
  let b := e.nlb * (d.ns e.ns).lbaBytes
  if e.opc = 0x02 ∨ e.opc = 0x0C then (b, 0, 1)
  else if e.opc = 0x01 ∨ e.opc = 0x7D then (0, b, 1) else (0, 0, 1)

/-- A tenant charged (R302): only quantities that have a budget. -/
def Tenant.charge (t : Tenant) (c : Nat × Nat × Nat) : Tenant :=
  { t with
    crRd := if t.force.rd = 0 then t.crRd else t.crRd - Int.ofNat c.1
    crWr := if t.force.wr = 0 then t.crWr else t.crWr - Int.ofNat c.2.1
    crCmd := if t.force.kiops = 0 then t.crCmd else t.crCmd - Int.ofNat c.2.2 }

/-! ## Histograms (R290, R291) -/

/-- Bin of a latency, µs (R290): bin b counts from 2^((b-1)/4) up to 2^(b/4), compared as fourth powers. -/
def histBin (us : Nat) : Nat :=
  if us = 0 then 0
  else ((List.range' 1 63).find? (fun b => decide (us ^ 4 < 2 ^ b))).getD 63

/-- KIND of the histograms (R290): 0 read and Verify, 1 write, 2 Zone Append, 3 other. -/
def histKind (admin : Bool) (opc : Nat) : Nat :=
  if admin then 3 else if opc = 0x02 ∨ opc = 0x0C then 0 else if opc = 0x01 ∨ opc = 0x08 then 1 else if opc = 0x7D then 2 else 3

/-- The number of a histogram. -/
def histKey (fn kind cls : Nat) : Nat := (fn * 4 + kind) * 4 + cls

/-- One completion counted (R290). report: DW1 bits of R82. -/
def Hist.count (h : Hist) (lat : Nat) (missed : Bool) (report : BitVec 6) : Hist :=
  { h with
    samples := h.samples + 1
    sum := h.sum + lat
    max := min 0xFFFFFFFF (Nat.max h.max lat)
    missed := h.missed + bit missed
    suspends := h.suspends + bit (report.getLsbD 1)
    recons := h.recons + bit (report.getLsbD 0)
    held := h.held + bit (report.getLsbD 4)
    bins := Tbl.upd 0 h.bins (histBin lat) (· + 1) }

/-- A completion of a tag counted in its histogram. -/
def Die.countLatency (d : Die) (t : Nat) : Die :=
  let x := d.tag t
  match x.entry with
  | none => d
  | some e =>
    let admin := x.sq == 0
    let lat := d.now - x.rung
    let missed := x.stamp.dlv && (match deadlineOf x.stamp.cls x.stamp.kind with | some l => decide (l < lat) | none => false)
    let k := histKey x.fn (histKind admin e.opc) x.stamp.cls
    { d with sch := { d.sch with hists := Tbl.upd { since := d.sch.histFrom } d.sch.hists k (fun h => h.count lat missed x.report) } }

end Sys2Proof.Machine
end

