-- ==== Sys2Proof/Machine/Lanes.lean ====
section
/-! DEFINITION. The cipher lane pairs (R279, R311 to R314): which pair a sector of a read runs on, a sector set aside for a more
urgent one, and how a sector's job moves between the stages of the read path. -/

namespace Sys2Proof.Machine

/-- The 16-byte blocks of a sector: 4,096 data bytes and 16 of HMETA (R311, R316). -/
def laneBlocks : Nat := 257

/-- The stamp of the command that a sector's job works for. -/
def Die.jobStamp (d : Die) (jn : Nat) : Stamp :=
  match Tbl.get none d.se.jobs jn with
  | some j => (d.tag j.tag).stamp
  | none => {}

/-- One stamp before another at the decode and cipher level: DEADLINE, then S0 (R279). -/
def Stamp.ahead (a b : Stamp) : Bool :=
  if a.dlv && b.dlv then timeBefore a.deadline b.deadline else if a.dlv then true else if b.dlv then false else decide (a.s0 < b.s0)

/-- What a pair runs. -/
def Die.laneRun (d : Die) (pair : Nat) : Option LaneRun := Tbl.get none d.cl.run pair

/-- Whether a pair runs a sector or holds it in a context register. -/
def Die.onLanes (d : Die) (jn : Nat) : Bool :=
  d.cl.run.any (fun e => match e.2 with | some r => r.job == jn | none => false) || d.cl.ctx.any (fun e => e.2.any (fun c => c.job == jn))

/-- An idle pair in service, another than some one: the lowest number (DESIGN CHOICE, log entry 180). -/
def Die.idlePair (d : Die) (but : Nat) : Option Nat :=
  (List.range 104).find? (fun p => p != but && d.unit 1 p == .inService && (d.laneRun p).isNone)

def Die.setRun (d : Die) (pair : Nat) (r : Option LaneRun) : Die := { d with cl := { d.cl with run := Tbl.set d.cl.run pair r } }
def Die.setCtx (d : Die) (pair : Nat) (l : List LaneCtx) : Die := { d with cl := { d.cl with ctx := Tbl.set d.cl.ctx pair l } }

/-- What a context register saves of a sector at a block (R314): the counter block, the GHASH state and the position. -/
def Die.laneCtx (d : Die) (jn pos : Nat) : LaneCtx :=
  match Tbl.get none d.se.jobs jn with
  | some j =>
    let m := j.sec.md
    let iv := ivOf m.epoch m.counter
    { job := jn, counter := iv ++ BitVec.ofNat 32 (pos + 2), pos := pos
      ghash := Config.ghashState (d.keyOf j.ns m.kslot) iv m.aad (m.hmeta ++ j.sec.data) pos }
  | none => { job := jn, counter := 0, ghash := 0, pos := pos }

/-- R314: every pair is busy and a sector with a deadline is ready: the pair whose sector has the latest deadline, or none, sets it aside
where the incoming one is earlier, more than 64 blocks remain and a context register is free; an urgent sector is not set aside itself,
and none a second time. The block that a pair has reached is a free value. -/
def Die.setAside (d : Die) (jn but : Nat) : Die :=
  let s := d.jobStamp jn
  let later := fun (a b : LaneRun) => (d.jobStamp b.job).ahead (d.jobStamp a.job)
  let pick := (List.range 104).foldl (fun (a : Option (Nat × LaneRun)) p =>
    match (if p != but && d.unit 1 p == .inService then d.laneRun p else none), a with
    | some r, none => some (p, r)
    | some r, some b => if later r b.2 then some (p, r) else some b
    | none, _ => a) none
  match pick with
  | some (p, r) =>
    let t := d.jobStamp r.job
    let pos := r.start + d.freeVal % (laneBlocks - r.start)
    if s.dlv && (!t.dlv || timeBefore s.deadline t.deadline) && !r.urgent && !r.aside && decide (pos + 64 < laneBlocks)
        && decide ((Tbl.get [] d.cl.ctx p).length < 4) then
      ((d.drawn.setCtx p (Tbl.get [] d.cl.ctx p ++ [d.laneCtx r.job pos])).setRun p (some { job := jn, start := 0, urgent := true, aside := false }))
    else d
  | none => d

/-- A sector ready for a lane pair: it takes an idle one, or another sector is set aside for it, or it waits. -/
def Die.toLane (d : Die) (jn but : Nat) : Die :=
  if d.onLanes jn then d
  else match d.idlePair but with
    | some p => d.setRun p (some { job := jn, start := 0, urgent := false, aside := false })
    | none => d.setAside jn but

/-- The first of the sectors that wait for a pair. -/
def Die.nextForLane (d : Die) : Option Nat :=
  (d.se.jobs.filter (fun e => match e.2 with | some j => j.stage == .cipher && !d.onLanes e.1 | none => false)).foldl
    (fun a e => match a with | none => some e.1 | some b => if (d.jobStamp e.1).ahead (d.jobStamp b) then some e.1 else some b) none

/-- A pair done with its sector: it resumes the one it set aside, or takes the first that waits. -/
def Die.laneFree (d : Die) (pair : Nat) : Die :=
  match Tbl.get [] d.cl.ctx pair with
  | c :: r => (d.setCtx pair r).setRun pair (some { job := c.job, start := c.pos, urgent := false, aside := true })
  | [] =>
    let d := d.setRun pair none
    match d.nextForLane with
    | some jn => d.toLane jn 104
    | none => d

/-- A sector off the pairs: it has left the cipher, or its command has gone. -/
def Die.offLane (d : Die) (jn : Nat) : Die :=
  let d := if d.cl.ctx.any (fun e => e.2.any (fun c => c.job == jn)) then
      { d with cl := { d.cl with ctx := d.cl.ctx.map (fun e => (e.1, e.2.filter (fun c => c.job != jn))) } } else d
  match d.cl.run.find? (fun e => match e.2 with | some r => r.job == jn | none => false) with
  | some e => d.laneFree e.1
  | none => d

/-- R313, R333: what a pair that disagreed ran, and what it had set aside, is computed anew on other pairs. -/
def Die.emptyPair (d : Die) (pair : Nat) : Die :=
  let js := (match d.laneRun pair with | some r => [r.job] | none => []) ++ (Tbl.get [] d.cl.ctx pair).map (fun c => c.job)
  js.foldl (fun (x : Die) jn => x.toLane jn pair) ((d.setCtx pair []).setRun pair none)

/-! ## The job of a sector -/

/-- A job moved on: its trays' holders follow it (R361), and at the cipher it comes to a lane pair. -/
def Die.setJob (d : Die) (jn : Nat) (j : Job) : Die :=
  let d := ({ d with se := { d.se with jobs := Tbl.set d.se.jobs jn (some j) } } : Die).remask j.trays
  if j.stage == .cipher then d.toLane jn 104 else d.offLane jn

/-- A job ended; its trays go back where no other job lies in them. -/
def Die.endJob (d : Die) (jn : Nat) : Die :=
  let ts := match Tbl.get none d.se.jobs jn with | some j => j.trays | none => []
  (({ d with se := { d.se with jobs := Tbl.del d.se.jobs jn } } : Die).remask ts).offLane jn

/-- The sector jobs of a handle forgotten (R83): what arrives for them later is stale, and their trays are given back (R105). -/
def Die.dropJobs (d : Die) (t : Nat) (gen : BitVec 8) : Die :=
  let mine := fun (e : Nat × Option Job) => match e.2 with
    | some j => j.tag == t && j.gen == gen
    | none => true
  let gone := d.se.jobs.filter mine
  let ts := (gone.flatMap (fun e => match e.2 with | some j => j.trays | none => [])).eraseDups
  gone.foldl (fun (x : Die) e => x.offLane e.1) (({ d with se := { d.se with jobs := d.se.jobs.filter (fun e => !mine e) } } : Die).remask ts)

end Sys2Proof.Machine
end

