-- ==== Sys2Proof/Machine/Checks.lean ====
section
/-! DEFINITION. The checks a fetched command passes, in the order of R121: fields, CID, namespace, range, ANA state, zone,
atomic boundary, key slot, and for writes read-only group, capacity, quota and nonce space. -/

namespace Sys2Proof.Machine

/-! ## Kinds of commands (R60, R61) -/

def opcFlush : Nat := 0x00
def opcWrite : Nat := 0x01
def opcRead : Nat := 0x02
def opcWriteZeroes : Nat := 0x08
def opcDsm : Nat := 0x09
def opcVerify : Nat := 0x0C
def opcIoReceive : Nat := 0x12
def opcIoSend : Nat := 0x1D
def opcZoneSend : Nat := 0x79
def opcZoneReceive : Nat := 0x7A
def opcAppend : Nat := 0x7D

/-- The I/O commands of R61. -/
def ioOpcodes : List Nat := [0x00, 0x01, 0x02, 0x08, 0x09, 0x0C, 0x12, 0x1D, 0x79, 0x7A, 0x7D]
/-- The admin commands of R60 that every function takes. -/
def adminOpcodes : List Nat := [0x00, 0x01, 0x02, 0x04, 0x05, 0x06, 0x08, 0x09, 0x0A, 0x0C, 0x0D, 0x15, 0x80]
/-- The admin commands of R60 that only the PF takes. -/
def adminPfOpcodes : List Nat := [0x10, 0x11, 0x14]
/-- The commands whose dwords 3 and 10 to 15 have the form of R76 and R77. -/
def rwOpcodes : List Nat := [0x01, 0x02, 0x08, 0x0C, 0x7D]
/-- The write-class commands of R119. -/
def writeClass : List Nat := [0x01, 0x08, 0x09, 0x79, 0x7D]

/-- Whether a tag works: in flight and without a fixed status. -/
def Tag.live (t : Tag) : Bool := t.st != .free && t.st != .posting
/-- The opcode of an I/O tag, or 0x100 where it has none. -/
def Tag.ioOpc (t : Tag) : Nat := match t.entry with | some e => if t.sq = 0 then 0x100 else e.opc | none => 0x100
/-- The NSID of a tag. -/
def Tag.nsid (t : Tag) : Nat := match t.entry with | some e => e.ns | none => 0
/-- The opcode of an admin tag, or 0x100 where it has none. -/
def Tag.adminOpc (t : Tag) : Nat := match t.entry with | some e => if t.sq = 0 then e.opc else 0x100 | none => 0x100

/-- CC.CSS of a function (R59). -/
def Func.css (f : Func) : Nat := bitsOf f.cc 4 3

/-- A Kanex delete of the namespace is under way, or a Namespace Management delete whose tag is older than a tag order (R153). -/
def Die.deletingAt (d : Die) (nsid order : Nat) : Bool :=
  (d.ns nsid).busy || d.qe.tags.any (fun e => e.2.live && e.2.adminOpc == 0x0D && decide (e.2.order < order) &&
    (d.ns nsid).owner == e.2.fn &&
    (match e.2.entry with | some x => (x.ns == nsid || x.ns == nsidAll) && bitsOf x.cdw10 0 4 == 1 | none => false))

/-- A delete of the namespace is under way for a command fetched now (R153). -/
def Die.deleting (d : Die) (nsid : Nat) : Bool := d.deletingAt nsid d.qe.order

/-- A namespace active on a function's controller: it exists, is attached, and its command set is one of those CC.CSS selects (R59,
R124). -/
def Die.activeOn (d : Die) (fn : Nat) (n : Ns) : Bool := n.alive && n.attached.contains fn && (!n.isZoned || (d.fn fn).css == 6)

/-- A namespace that a command of a function with a tag order reaches (R309): active, and no delete fetched before it (R153). -/
def Die.reachesAt (d : Die) (fn nsid order : Nat) : Bool := d.activeOn fn (d.ns nsid) && !d.deletingAt nsid order

/-- A namespace that a command fetched now reaches. -/
def Die.reaches (d : Die) (fn nsid : Nat) : Bool := d.reachesAt fn nsid d.qe.order

/-! ## Step 1: opcode and fields (R75 to R78) -/

/-- An opcode that its namespace's kind does not take (R61). -/
def Ns.opcodeBad (n : Ns) (opc : Nat) : Bool :=
  if opc = 0x08 ∨ opc = 0x09 then n.isZoned
  else if opc = 0x79 ∨ opc = 0x7A ∨ opc = 0x7D then !n.isZoned
  else if opc = 0x12 ∨ opc = 0x1D then n.phndls.isEmpty else false

/-- R78: a misuse of the hint dword, or a nonzero RSV bit of it (R13). -/
def hintBad (n : Ns) (cls : Nat) (e : SqEntry) : Bool :=
  e.vhdRsv
    || (e.plhV && (decide (n.handles ≤ e.plh) || !n.phndls.isEmpty || !([0x01, 0x08, 0x7D].contains e.opc)))
    || (e.ff && !([0x02, 0x0C].contains e.opc))
    || (e.ff && e.ffd == 0 && effClass cls e.vhd == 3)

/-- R13, R76, R152: a wrong or reserved field of a read, write, Write Zeroes, Verify or Zone Append. -/
def rwBad (n : Ns) (e : SqEntry) : Bool :=
  e.stc != 0 || e.prinfo != 0 || e.cdw14 != 0 || e.cdw15 != 0 || bitsOf e.cdw12 16 4 != 0 || bitsOf e.cdw12 25 1 != 0
    || bitsOf e.cdw13 8 8 != 0
    || !(e.dtype == 0 || e.dtype == 2)
    || (e.dtype == 2 && (e.opc != 0x01 || n.phndls.isEmpty || decide (n.handles ≤ e.dspec % 8192)
        || !(n.rgset.getLsbD (e.dspec / 8192))))

/-- The bits of dwords 10 to 15 that the I/O commands without the form of R76 use (PRESUMED, log entry 10). -/
def ioUsed (opc : Nat) : List Word :=
  match opc with
  | 0x09 => [0xFF, 0x7, 0, 0, 0, 0]
  | 0x12 | 0x1D => [0xFFFF00FF, 0xFFFFFFFF, 0, 0, 0, 0]
  | 0x79 => [0xFFFFFFFF, 0xFFFFFFFF, 0, 0x1FF, 0, 0]
  | 0x7A => [0xFFFFFFFF, 0xFFFFFFFF, 0xFFFFFFFF, 0x1FFFF, 0, 0]
  | _ => [0, 0, 0, 0, 0, 0]

/-- The bits of dwords 11 to 13 that Set Features and Get Features use of a feature (R62; places PRESUMED, log entry 10). -/
def featUsed (set : Bool) (fid : Nat) : List Word :=
  match fid with
  | 0x01 => if set then [0xFFFFFF07, 0, 0] else [0, 0, 0]
  | 0x02 => if set then [0xFF, 0, 0] else [0, 0, 0]
  | 0x04 => if set then [0x3FFFFF, 0, 0] else [0x3F0000, 0, 0]
  | 0x05 => if set then [0x1FFFF, 0, 0] else [0, 0, 0]
  | 0x07 => if set then [0xFFFFFFFF, 0, 0] else [0, 0, 0]
  | 0x08 => if set then [0xFFFF, 0, 0] else [0, 0, 0]
  | 0x09 => if set then [0x1FFFF, 0, 0] else [0xFFFF, 0, 0]
  | 0x0A => if set then [0x1, 0, 0] else [0, 0, 0]
  | 0x0B => if set then [0x8800FFFF, 0, 0] else [0, 0, 0]
  | 0x19 => if set then [0x1FF, 0, 0] else [0, 0, 0]
  | 0x1D => if set then [0xFFFF, 0xFF01, 0] else [0xFFFF, 0, 0]
  | 0x1E => if set then [0xFFFFFF, 0x1, 0] else [0xFFFFFF, 0, 0]
  | _ => [0, 0, 0]

/-- The bits of dwords 10 to 15 that each admin command uses (PRESUMED, log entry 10). -/
def adminUsed (opc fid : Nat) : List Word :=
  match opc with
  | 0x00 | 0x04 => [0xFFFF, 0, 0, 0, 0, 0]
  | 0x01 => [0xFFFFFFFF, 0xFFFF0007, 0xFFFF, 0, 0, 0]
  | 0x05 => [0xFFFFFFFF, 0xFFFF0003, 0, 0, 0, 0]
  | 0x02 => [0xFFFFFFFF, 0xFFFFFFFF, 0xFFFFFFFF, 0xFFFFFFFF, 0xFF80007F, 0]
  | 0x06 => [0xFFFF00FF, 0xFF00FFFF, 0, 0, 0x7F, 0]
  | 0x08 => [0xFFFFFFFF, 0, 0, 0, 0, 0]
  | 0x09 => 0x800000FF :: (featUsed true fid ++ [0x7F, 0])
  | 0x0A => 0x7FF :: (featUsed false fid ++ [0x7F, 0])
  | 0x0D => [0xF, 0xFF000000, 0, 0, 0, 0]
  | 0x15 | 0x14 => [0xF, 0, 0, 0, 0, 0]
  | 0x10 => [0x8000003F, 0, 0, 0, 0x7F, 0]
  | 0x11 => [0xFFFFFFFF, 0xFFFFFFFF, 0, 0, 0, 0]
  | 0x80 => [0x3FFF, 0, 0, 0, 0, 0]
  | _ => [0, 0, 0, 0, 0, 0]

/-- Step 1 of R121 for the fields of an admin command: FUSE, PSDT, reserved bits, and the Self-test Code of Device Self-test (R60). -/
def adminBad (e : SqEntry) : Bool :=
  e.fuse != 0 || e.dw0Rsv || decide (2 ≤ e.psdt) || e.outside (adminUsed e.opc e.fid)
    || (e.opc == 0x14 && !([0x1, 0x2, 0xF] : List Nat).contains (bitsOf e.cdw10 0 4))

/-- The fields of the other commands that R121 step 1 looks at. -/
def otherBad (e : SqEntry) : Bool :=
  if !rwOpcodes.contains e.opc ∧ e.outside (ioUsed e.opc) = true then true
  else if e.opc = 0x79 then !(decide (1 ≤ e.zsa) && decide (e.zsa ≤ 5) || e.zsa == 0x10)
  else if e.opc = 0x7A then e.zsa != 0 || decide (7 < e.zrasf)
  else if e.opc = 0x09 then bitsOf e.cdw11 2 1 == 0
  else if e.opc = 0x12 ∨ e.opc = 0x1D then bitsOf e.cdw10 0 8 != 1
  else false

/-- Step 1 of R121 for an I/O command. -/
def Die.checkFields (d : Die) (fn : Nat) (e : SqEntry) : Option Status :=
  let n := d.ns e.ns
  let known := n.alive && n.attached.contains fn
  if !ioOpcodes.contains e.opc || (known && n.opcodeBad e.opc) then some stInvalidOpcode
  else if e.fuse != 0 || e.dw0Rsv || decide (2 ≤ e.psdt) || e.dw2 != 0 || otherBad e
      || (rwOpcodes.contains e.opc && (hintBad n (d.tenant fn).force.cls e || rwBad n e)) then some stInvalidField
  else none

/-! ## Steps 2 to 5 -/

/-- Step 2: a CID that a command in flight from the same SQ carries (R86). -/
def Die.cidBusy (d : Die) (fn sq cid : Nat) : Bool :=
  d.qe.tags.any (fun e => e.2.st != .free && e.2.fn == fn && e.2.sq == sq &&
    (match e.2.entry with | some x => x.cid == cid | none => false))

/-- Step 4: LBA range, MDTS, ZASL and zone starts. -/
def checkRange (n : Ns) (e : SqEntry) : Option Status :=
  if rwOpcodes.contains e.opc then
    let m := if e.opc = 0x7D then 0 else e.nlb
    if n.nsze < e.slba + m ∨ n.nsze ≤ e.slba then some stLbaRange
    else if (e.opc = 0x01 ∨ e.opc = 0x02) ∧ 1048576 < e.nlb * n.lbaBytes then some stInvalidField
    else if e.opc = 0x7D ∧ (e.slba % n.zoneLbas ≠ 0 ∨ 262144 < e.nlb * n.lbaBytes) then some stInvalidField
    else none
  else if e.opc = 0x79 then
    if e.selectAll then none
    else if n.nsze ≤ e.slba then some stLbaRange
    else if e.slba % n.zoneLbas ≠ 0 then some stInvalidField else none
  else if e.opc = 0x7A then (if n.nsze ≤ e.slba then some stLbaRange else none)
  else none

/-- States of an ANA group (R65). -/
inductive Ana where
  | optimized | change | inaccessible
deriving DecidableEq, Repr

/-- How the ANA group of a die stands (R65): this die's own group, or a position of the hierarchy. -/
def Die.ana (d : Die) (g : Nat) : Ana :=
  if g = d.anaGroup then .optimized
  else if g = 1 then .optimized
  else match (if (d.qpos (g - 2)).st = .refused then (d.qpos (g - 2)).refusedFrom else (d.qpos (g - 2)).st) with
    | .serving => .optimized
    | .joining | .leaving => .change
    | _ => .inaccessible

/-- Step 5 (R129). -/
def Die.checkAna (d : Die) (n : Ns) : Option Status :=
  match d.ana n.home with
  | .optimized => none
  | .change => some stAnaTransition
  | .inaccessible => some stAnaInaccessible

/-! ## Step 6: zones (R132, R133, R138, R143, R150) -/

/-- The zone of an LBA. -/
def Ns.zoneOf (n : Ns) (lba : Nat) : Nat := lba / n.zoneLbas

/-- R150: the group a zone takes: of the formed groups of RGSET that are not READ_ONLY the one with the most FREE RUs,
the lowest on a tie; with none, the status. A write to which every one of them is full gets the status of a READ_ONLY one where there is
one (R148). -/
def Die.chooseGroup (d : Die) (n : Ns) (write : Bool) : Except Status Nat :=
  let gs := (List.range 8).filter (fun g => n.rgset.getLsbD g && (d.group g).formed)
  let ok := gs.filter (fun g => (d.group g).ro.isNone)
  match (if write && ok.all d.isFull && gs.any (fun g => (d.group g).ro.isSome) then [] else ok).foldl (fun a g => match a with
      | none => some g
      | some b => if d.freeRus b < d.freeRus g then some g else some b) none with
  | some g => .ok g
  | none => match gs.find? (fun g => (d.group g).ro.isSome) with
    | some g => .error (d.group g).roStatus
    | none => .error stCapacity

/-- Whether a zone has a write, an append or a zone action in flight (R133). -/
def Die.zoneBusy (d : Die) (nsid z : Nat) : Bool :=
  let n := d.ns nsid
  d.qe.tags.any (fun e => e.2.st != .free && match e.2.entry with
    | some x => e.2.sq != 0 && x.ns == nsid && ((x.opc == 0x01 || x.opc == 0x7D) && n.zoneOf x.slba == z
        || x.opc == 0x79 && (x.selectAll || n.zoneOf x.slba == z))
    | none => false)

/-- R133: the ZSIO zone written least recently that has no write, append or zone action in flight; of two written at the same time the one
that stands first in the zone table (DESIGN CHOICE, log entry 189). -/
def Die.implicitVictim (d : Die) (nsid : Nat) : Option Nat :=
  ((d.ns nsid).zones.filter (fun e => e.2.st == .zsio && !d.zoneBusy nsid e.1)).foldl (fun a e => match a with
    | none => some e
    | some b => if e.2.written < b.2.written then some e else some b) none |>.map (fun e => e.1)

/-- The checks before a zone opens (R132): active check, group choice, open check with an implicit close where allowed. The
answer is the group and the zone to be closed. -/
def Die.openCheck (d : Die) (nsid z : Nat) (implicit : Bool) : Except Status (Option Nat × Option Nat) :=
  let n := d.ns nsid
  let zn := n.zone z
  if zn.st == .zsio || zn.st == .zseo then .ok (zn.group, none)
  else if zn.st == .zse && decide (n.zactive ≤ n.activeZones) then .error stTooManyActive
  else
    let g : Except Status (Option Nat) := if zn.st == .zse then (d.chooseGroup n implicit).map some else .ok zn.group
    match g with
    | .error st => .error st
    | .ok g =>
      if n.openZones < n.zopen then .ok (g, none)
      else if implicit then
        match d.implicitVictim nsid with
        | some v => .ok (g, some v)
        | none => .error stTooManyOpen
      else .error stTooManyOpen

/-- One zone moved to ZSC, or to ZSE where nothing is written (R132). -/
def Zone.close (z : Zone) (now : Nat) : Zone :=
  if z.wp = 0 then { z with st := .zse, group := none } else { z with st := .zsc, closedAt := now }

/-- A zone opened after its checks: implicitly by a write, or by the Open action. -/
def Die.openZone (d : Die) (nsid z : Nat) (r : Option Nat × Option Nat) (st : ZState) : Die :=
  let d := match r.2 with
    | some v => d.updZone nsid v (fun y => y.close d.now)
    | none => d
  d.updZone nsid z (fun y => if y.st == .zse then { y with st := st, group := r.1, wp := 0, wpNext := 0, heelMask := 0, settled := false }
    else if st == .zseo || y.st == .zsc then { y with st := st } else y)

/-- Step 6 for a read or Verify (R143). -/
def checkZoneRead (n : Ns) (e : SqEntry) : Option Status :=
  let z := n.zoneOf e.slba
  let zn := n.zone z
  let off := e.slba % n.zoneLbas
  if n.zoneLbas < off + e.nlb then some stZoneBoundary
  else if zn.st == .zso then some stZoneOffline
  else if zn.st == .zsro || zn.st == .zsf then none
  else if !n.rbwp && decide (zn.wp < off + e.nlb) then some stZoneInvalidWrite else none

/-- Step 6 for a write or Zone Append (R88, R132, R138), before the checks of opening. A zone that the commands checked before will fill
answers Zone Is Full though it is not in ZSF yet (DESIGN CHOICE, log entry 188). -/
def checkZoneWrite (n : Ns) (e : SqEntry) : Option Status :=
  let z := n.zoneOf e.slba
  let zn := n.zone z
  let off := if e.opc = 0x7D then zn.wpNext else e.slba % n.zoneLbas
  if zn.st == .zsf then some stZoneFull
  else if zn.st == .zsro then some stZoneRo
  else if zn.st == .zso then some stZoneOffline
  else if zn.wpNext = n.zoneLbas then some stZoneFull
  else if n.zoneLbas < off + e.nlb then some stZoneBoundary
  else if off ≠ zn.wpNext then some stZoneInvalidWrite else none

/-! ## Steps 7 to 9 -/

/-- LBAs of an atomic unit of a forerunner namespace (R94). -/
def Ns.unitLbas (n : Ns) : Nat := 16 * n.lbasPerSector

/-- Step 7 (R95). -/
def checkAtomic (n : Ns) (e : SqEntry) : Option Status :=
  if e.opc = 0x01 ∧ n.isForerunner = true ∧ n.strict = true ∧ e.slba / n.unitLbas ≠ (e.slba + e.nlb - 1) / n.unitLbas then
    some stAtomicCrossed else none

/-- Step 8 (R118, R324): the owner's slots are locked, or hold no key for the command. -/
def Die.checkKey (d : Die) (n : Ns) (e : SqEntry) : Option Status :=
  let a := (d.slot (2 * n.owner)).st
  let b := (d.slot (2 * n.owner + 1)).st
  if [0x01, 0x02, 0x0C, 0x7D].contains e.opc then
    if a == .locked || b == .locked then some stKeyLocked
    else if e.opc = 0x01 ∨ e.opc = 0x7D then (if (d.writeSlot n.owner).isSome then none else some stKeyLocked)
    else if a == .empty && b == .empty then some stKeyLocked else none
  else none

/-- Whether a sector of a namespace is allocated (R298). -/
def Ns.isAllocated (n : Ns) (x : Nat) : Bool :=
  (n.entry (x / 16)).vmask.getLsbD (x % 16) || (n.crumb x).st != .free
    || (n.isZoned && (n.zone (n.zoneOf x)).heelMask.getLsbD (x % 16) && n.wpLoaf (n.zoneOf x) == x / 16)

/-- The sectors of an LBA range. -/
def Ns.sectorsOf (n : Ns) (slba nlb : Nat) : List Nat :=
  List.range' (slba / n.lbasPerSector) (n.sectorsTouched slba nlb)

/-- Sectors a write newly allocates (R298): all of them in a zone, the unallocated ones elsewhere. -/
def Ns.newSectors (n : Ns) (slba nlb : Nat) : Nat :=
  if n.isZoned then n.sectorsTouched slba nlb
  else ((n.sectorsOf slba nlb).filter (fun x => !n.isAllocated x)).length

/-- Map pages in use (R154): those with an entry that is not UNMAPPED. -/
def Ns.mapPages (n : Ns) : List Nat :=
  n.map.foldl (fun a e => if (e.2.typ != .unmapped || e.2.crb) && !a.contains (e.1 / 512) then (e.1 / 512) :: a else a) []
/-- The pages of the die's map-page pool (R154): 2 % more than the user capacity needs. -/
def Die.mapPool (d : Die) : Nat := sumBy (fun e => e.2.userCap) d.rc.groups / 65536 * 102 / 100 / 512
/-- Map pages in use on the die. -/
def Die.mapPagesUsed (d : Die) : Nat := sumBy (fun e => e.2.mapPages.length) d.nss

/-- The pages of 512 loaf entries that a write of LBAs maps into and that its namespace does not use yet (R154). -/
def Ns.pagesNeeded (n : Ns) (lba nlb : Nat) : List Nat :=
  let pages := n.mapPages
  ((n.sectorsOf lba nlb).map (fun x => x / 8192)).eraseDups.filter (fun p => !pages.contains p)

/-- Where a write begins: an append at the write pointer that the earlier writes of its zone will leave (R138). -/
def Ns.writeAt (n : Ns) (e : SqEntry) : Nat :=
  if e.opc = 0x7D then n.zoneOf e.slba * n.zoneLbas + (n.zone (n.zoneOf e.slba)).wpNext else e.slba

/-- The map pages that the other writes which have passed their checks will take when they are mapped, by namespace and page. -/
def Die.pagesPledged (d : Die) (t : Nat) : List (Nat × Nat) :=
  (d.qe.tags.flatMap (fun u => match u.2.entry with
    | some y => if u.1 != t && u.2.live && u.2.sq != 0 && !u.2.forwarded && !u.2.gated && (y.opc == 0x01 || y.opc == 0x7D)
        then ((d.ns y.ns).pagesNeeded u.2.wlba y.nlb).map (fun p => (y.ns, p)) else []
    | none => [])).eraseDups

/-- Whether the map-page pool cannot take a write (R154): the pages in use, those that admitted writes will take, and its own. -/
def Die.pagesShort (d : Die) (t : Nat) (e : SqEntry) : Bool :=
  let n := d.ns e.ns
  let need := (n.pagesNeeded (n.writeAt e) e.nlb).filter (fun p => !(d.pagesPledged t).contains (e.ns, p))
  !need.isEmpty && decide (d.mapPool < d.mapPagesUsed + (d.pagesPledged t).length + need.length)

/-- The user capacity of the hierarchy, bytes: this die's groups and the summaries of the workers that serve. -/
def Die.hierCap (d : Die) : Nat :=
  sumBy (fun e => e.2.userCap) d.rc.groups + sumBy (fun e => if e.2.st == .serving then e.2.userCap else 0) d.ql.pos

/-- CAP_QUOTA of a tenant (R295): tenant 0's follows the user capacity of the hierarchy until the owner sets it. -/
def Die.quota (d : Die) (t : Nat) : Nat :=
  if t = 0 ∧ (d.tenant 0).quotaSet = false then d.hierCap / Config.gib * Config.gib else (d.tenant t).quota

/-- The formed groups a conventional write may use: not READ_ONLY, and not full where it needs new allocation (R148, R180). -/
def Die.convGroups (d : Die) (n : Ns) (fresh : Bool) : List Nat :=
  (List.range 8).filter (fun g => n.rgset.getLsbD g && (d.group g).formed && (d.group g).ro.isNone && !(fresh && d.isFull g))

/-- The group that an FDP write names in DSPEC (R152). -/
def fdpGroup (e : SqEntry) : Option Nat := if e.dtype = 2 then some (e.dspec / 8192) else none

/-- Step 9 for a write (R121, R148, R154, R180, R181, R298, R327). g: the zone's group. An overwrite of allocated sectors passes
the quota whatever the use (R299). -/
def Die.checkSpace (d : Die) (t : Nat) (n : Ns) (e : SqEntry) (g : Option Nat) : Option Status :=
  let fresh := n.newSectors e.slba e.nlb
  let groupSt : Option Status :=
    if n.isZoned then
      match g with
      | none => some stCapacity
      | some g => if (d.group g).ro.isSome then some (d.group g).roStatus else if d.isFull g then some stCapacity else none
    else match fdpGroup e with
      | some g => if (d.group g).ro.isSome then some (d.group g).roStatus
          else if !(d.group g).formed || (decide (0 < fresh) && d.isFull g) then some stCapacity else none
      | none =>
        if !(d.convGroups n (decide (0 < fresh))).isEmpty then none
        else match (List.range 8).find? (fun g => n.rgset.getLsbD g && (d.group g).ro.isSome) with
          | some g => some (d.group g).roStatus
          | none => some stCapacity
  if groupSt.isSome then groupSt
  else if d.pagesShort t e then some stCapacity
  else if 0 < fresh ∧ d.quota n.owner < d.capUsed n.owner + 4096 * fresh then some stOverQuota
  else match d.writeSlot n.owner with
    | some k => if nonceEdge < (d.slot k).next then some stNonce else none
    | none => none

/-- The records and events that a failed check of step 9 makes: MAP_POOL_EMPTY (R154), NONCE_LOW (R327). -/
def Die.spaceRecords (d : Die) (t nsid : Nat) (e : SqEntry) (st : Status) : Die :=
  let n := d.ns nsid
  if st == stNonce then
    match d.writeSlot n.owner with
    | some k => (d.record 0x0903 sevAlert k (le 2 k ++ le 8 (d.slot k).next)).vendorEvent 0x02 0x02
    | none => d
  else if st == stCapacity && d.pagesShort t e then
    d.record 0x0401 sevError noInst (le 4 nsid ++ le 8 e.slba)
  else d

/-! ## Step 10: the data pointer (R75, R118), checked during the transfer -/

/-- The host's memory page size in bytes (CC.MPS). -/
def Func.pageSize (f : Func) : Nat := 4096 * 2 ^ bitsOf f.cc 7 4

/-- R118: what is wrong with the data pointer of a command that transfers a number of bytes: a PRP entry not aligned to 4 bytes, or a
second entry with an offset where it names a page; an SGL descriptor of a type that is not supported, a data block of another length
than the transfer, a segment of no or a broken number of descriptors. What the lists hold that it points to, the host's memory shows
(HOST_READ_FAILURE). -/
def dptrBad (f : Func) (e : SqEntry) (bytes : Nat) : Option Status :=
  if e.sgl then
    if e.sglType = 0 then (if e.sglLen = bytes then none else some (0x0, 0x0F))
    else if e.sglType = 2 ∨ e.sglType = 3 then (if e.sglLen = 0 ∨ e.sglLen % 16 ≠ 0 then some (0x0, 0x0D) else none)
    else some (0x0, 0x11)
  else if e.prp1 % 4 ≠ 0 then some stPrpOffset
  else
    let first := f.pageSize - e.prp1 % f.pageSize
    if bytes ≤ first then none
    else if bytes ≤ first + f.pageSize then (if e.prp2 % f.pageSize ≠ 0 then some stPrpOffset else none)
    else if e.prp2 % 4 ≠ 0 then some stPrpOffset else none

/-- Step 10 for a command with its host's page size; the data of a command that a worker runs has passed on its manager (R494). -/
def Die.pointerBad (d : Die) (x : Tag) (e : SqEntry) (bytes : Nat) : Option Status :=
  if d.life.manager then dptrBad (d.fn x.fn) e bytes else none

/-! ## The zone gate (R135, R145, R153) -/

/-- The zones a command of a zoned namespace names: one, or all of them (none). -/
def Ns.zoneNamed (n : Ns) (e : SqEntry) : Option Nat :=
  if e.opc = 0x79 ∧ e.selectAll = true then none else some (n.zoneOf e.slba)

/-- Whether two commands of a namespace meet in a zone. -/
def Ns.zonesMeet (n : Ns) (a b : SqEntry) : Bool :=
  match n.zoneNamed a, n.zoneNamed b with
  | some x, some y => x == y
  | _, _ => true

/-- The commands that target a zone: reads, writes, appends, Verify and zone actions. -/
def targetsZone (opc : Nat) : Bool := [0x01, 0x02, 0x0C, 0x79, 0x7D].contains opc

/-- A write or an append, which the write pointer is checked for. -/
def zoneWrite (opc : Nat) : Bool := opc == 0x01 || opc == 0x7D

/-- Whether a command with a tag order must wait: an earlier zone action on its zone, an earlier ZONE_SET_RO, or a Format
or crypto-erase of its namespace has not reached POSTING (R135, R145, R153, R329); and a write or append behind an earlier one of its
zone that waits to be checked itself, so that they are checked in order (R88). -/
def Die.gateShut (d : Die) (e : SqEntry) (order : Nat) : Bool :=
  let n := d.ns e.ns
  d.qe.tags.any (fun u => u.2.live && decide (u.2.order < order) && match u.2.entry with
    | some x => x.ns == e.ns && (u.2.sq == 0 && x.opc == 0x80
        || u.2.sq != 0 && n.isZoned && x.opc == 0x79 && targetsZone e.opc && n.zonesMeet x e
        || u.2.sq != 0 && n.isZoned && u.2.gated && zoneWrite x.opc && zoneWrite e.opc && n.zonesMeet x e)
    | none => false)
    || (match n.hold with | some o => decide (o ≤ order) | none => false)
    || (n.isZoned && targetsZone e.opc && n.zones.any (fun z =>
      (match z.2.roWait with | some o => decide (o ≤ order) | none => false) &&
        (match n.zoneNamed e with | some y => y == z.1 | none => true)))

/-! ## The whole check -/

/-- Steps 1 and 3 to 5 of R121 for an I/O command that a zone gate does not concern. -/
def Die.checkEarly (d : Die) (fn sq : Nat) (e : SqEntry) : Option Status :=
  match d.checkFields fn e with
  | some st => some st
  | none =>
    if d.cidBusy fn sq e.cid then some stCidConflict
    else if e.opc = 0x00 ∧ e.ns = nsidAll then none
    else if !d.reaches fn e.ns then some stInvalidNamespace
    else match checkRange (d.ns e.ns) e with
      | some st => some st
      | none => d.checkAna (d.ns e.ns)

/-- The tags whose commands target a zone of a namespace as writes or appends, not yet COMMITTED, in tag order. -/
def Die.pendingZone (d : Die) (nsid z : Nat) : List (Nat × Tag) :=
  d.qe.tags.filter (fun u => match u.2.entry with
    | some x => u.2.sq != 0 && !u.2.gated && (u.2.st == .bound || u.2.st == .admitted || u.2.st == .pull)
        && x.ns == nsid && (x.opc == 0x01 || x.opc == 0x7D) && (d.ns nsid).zoneOf x.slba == z
    | none => false)

/-- R88: the write pointer that the commands still pending will leave. -/
def Die.recomputeNext (d : Die) (nsid z : Nat) : Die :=
  let n := sumBy (fun u => match u.2.entry with | some x => x.nlb | none => 0) (d.pendingZone nsid z)
  d.updZone nsid z (fun y => { y with wpNext := y.wp + n })

/-- Number of a zone state, kept with the write pointer by a command that opened the zone (R132). -/
def zstNum : ZState → Nat
  | .zse => 0
  | .zsc => 1
  | _ => 2

/-- Steps 6 to 9 of R121, and what passing them does: a zone opened (R132, R133) and the write pointer that later writes
are checked against (R88). -/
def Die.checkLate (d : Die) (t : Nat) (e : SqEntry) : Die :=
  let n := d.ns e.ns
  let z := n.zoneOf e.slba
  let zoned := n.isZoned && rwOpcodes.contains e.opc
  let isW := e.opc = 0x01 ∨ e.opc = 0x7D
  let zst : Option Status := if !zoned then none else if isW then checkZoneWrite n e else checkZoneRead n e
  match zst with
  | some st => d.finish t st
  | none =>
    let oc : Except Status (Option Nat × Option Nat) := if zoned && decide isW then d.openCheck e.ns z true else .ok (none, none)
    match oc with
    | .error st => d.finish t st
    | .ok r =>
      match checkAtomic n e with
      | some st => d.finish t st
      | none =>
        match d.checkKey n e with
        | some st => d.finish t st
        | none =>
          if isW then
            match d.checkSpace t n e r.1 with
            | some st => (d.spaceRecords t e.ns e st).finish t st
            | none =>
              if zoned then
                let zn := n.zone z
                let d := d.openZone e.ns z r .zsio
                let d := d.updTag t (fun x => { x with
                  opened := if zstNum zn.st < 2 then some (zstNum zn.st, zn.wp) else none
                  wlba := z * n.zoneLbas + zn.wpNext, gated := false })
                d.updZone e.ns z (fun y => { y with wpNext := y.wpNext + e.nlb })
              else d.updTag t (fun x => { x with wlba := e.slba, gated := false })
          else d.updTag t (fun x => { x with wlba := e.slba, gated := false })

/-- The trays of a write given back (R359). -/
def Die.dropTrays (d : Die) (t : Nat) : Die := (d.giveTrays (d.tag t).trays).updTag t (fun y => { y with trays := [] })

/-- R88, R132: a write or append that ends without being applied: every later ordinary write of the zone that was checked
behind it and has not reached COMMITTED ends with Zone Invalid Write, and a zone that it opened returns; while an append behind it may
still be applied, the return is left to that one. -/
def Die.unchain (d : Die) (t : Nat) : Die :=
  let x := d.tag t
  match x.entry with
  | none => d
  | some e =>
    let n := d.ns e.ns
    if x.sq != 0 && !x.gated && n.isZoned && (e.opc == 0x01 || e.opc == 0x7D)
        && (x.st == .bound || x.st == .admitted || x.st == .pull) then
      let z := n.zoneOf e.slba
      let later := (d.pendingZone e.ns z).filter (fun u => decide (x.order < u.2.order) &&
        (match u.2.entry with | some y => y.opc == 0x01 | none => false))
      let d := later.foldl (fun y u => (y.dropTrays u.1).finish u.1 stZoneInvalidWrite) d
      let d := d.updTag t (fun y => { y with gated := true })
      let d := d.recomputeNext e.ns z
      match x.opened with
      | some (s, wp) =>
        let zn := d.zone e.ns z
        if zn.st != .zsio || zn.wp != wp then d
        else match d.pendingZone e.ns z with
        | u :: _ => d.updTag u.1 (fun y => { y with opened := if y.opened.isSome then y.opened else some (s, wp) })
        | [] => d.updZone e.ns z (fun y => if s = 0 then { y with st := .zse, group := none } else { y with st := .zsc, closedAt := d.now })
      | none => d
    else d

/-- The staged sectors of a tag thrown away (R85). -/
def Die.dropStaged (d : Die) (x : Tag) : Die :=
  if x.st == TagState.staged then
    Die.press { d with te := { d.te with proof := d.te.proof.filter (fun e => !x.staged.any (fun s => s.2 == e.1)) } }
  else d

/-- The position that a command has been forwarded to, where its link is up (R494). -/
def Die.sentTo (d : Die) (x : Tag) : Option Nat :=
  match x.entry with
  | some e => if x.forwarded && x.live && x.st != .bound && (d.qpos ((d.ns e.ns).home - 2)).lanes != 0 then some ((d.ns e.ns).home - 2) else none
  | none => none

/-- A command that a worker runs given up there under its handle (R83, R87, R104, R107, R109). -/
def Die.giveUp (d : Die) (t : Nat) (status : Option Status) : Die :=
  match d.sentTo (d.tag t) with
  | some q => d.quayMgmtSend q (.giveUp t (d.tag t).gen status)
  | none => d

/-- The Aborts that act on a handle end as its command does (R102, R104). -/
def Die.abortsEnd (d : Die) (t : Nat) (gen : BitVec 8) (st : Status) : Die :=
  (d.qe.tags.filter (fun u => u.2.target == some (t, gen))).foldl (fun (y : Die) u =>
    (y.updTag u.1 (fun v => { v with target := none })).finishDw0 u.1 stOk (if st = stAbortRequested then 0 else 1)) d

/-- A command that ends with a failing status before its point of no return: its zone chain is cut, its work and staged
data are dropped, its jobs forgotten (R83, R85, R88, R119); a worker that runs it gives it up. -/
def Die.failTag (d : Die) (t : Nat) (st : Status) : Die :=
  let x := d.tag t
  let d := (d.giveUp t none).abortsEnd t x.gen st
  let d := ((((d.unchain t).dropStaged x).dropJobs t x.gen).dropTrays t).unlock t
  (d.updTag t (fun y => { y with staged := [], ranges := [], work := 0 })).finish t st

end Sys2Proof.Machine
end

