-- ==== Sys2Proof/Machine/Command.lean ====
section
/-! DEFINITION. The life of a command under its tag (file 03): doorbells, fetch, the zone gate, admission, posting, the
timers, and the commands that end other commands. -/

namespace Sys2Proof.Machine

/-! ## Doorbells (R68, R69) -/

/-- An Error event of R69 on the controller; the log page is Error Information (log entry 10). On a controller that is not ready there is
no request to post it to, and it is not held (DESIGN CHOICE, log entry 190). -/
def Die.doorbellError (d : Die) (fn info : Nat) : Die :=
  if (d.fn fn).st == .ready then d.post fn { etype := 0, info := info, page := 0x01 } else d

/-- R69: an SQ tail doorbell: taken, or dropped with its event. -/
def Die.sqDoorbell (d : Die) (fn y : Nat) (value : Word) (aligned : Bool) : Die :=
  let q := (d.fn fn).sq y
  let v := bitsOf value 0 16
  if q.size = 0 then d.doorbellError fn 0x00
  else if aligned = false ∨ q.size ≤ v then d.doorbellError fn 0x01
  else d.updFn fn (fun f => f.updSq y (fun q => { q with
      tail := v, rungs := if v = q.tail then q.rungs else q.rungs ++ [((v + q.size - q.tail) % q.size, d.now)] }))

/-- The doorbell write that rang the entry at the head of a queue (R9, R116). -/
def Sq.rungAt (q : Sq) : Nat := match q.rungs with | (_, at_) :: _ => at_ | [] => 0

/-- The queue with the entry at its head taken. -/
def Sq.take (q : Sq) : Sq :=
  { q with head := (q.head + 1) % q.size, rungs := match q.rungs with | (n, t) :: r => if n ≤ 1 then r else (n - 1, t) :: r | [] => [] }

/-- R69, R73: a CQ head doorbell. -/
def Die.cqDoorbell (d : Die) (fn y : Nat) (value : Word) (aligned : Bool) : Die :=
  let q := (d.fn fn).cq y
  let v := bitsOf value 0 16
  if q.size = 0 then d.doorbellError fn 0x00
  else if aligned = false ∨ q.size ≤ v then d.doorbellError fn 0x01
  else d.updFn fn (fun f => f.updCq y (fun q => { q with head := v }))

/-! ## Fetch (R71, R72, R84, R277) -/

/-- Admin tags in flight of the die, and I/O tags in flight of the die (R84). -/
def Die.adminTags (d : Die) : Nat := (d.qe.tags.filter (fun e => e.2.st != .free && e.2.sq == 0)).length
def Die.ioTags (d : Die) : Nat := (d.qe.tags.filter (fun e => e.2.st != .free && e.2.sq != 0)).length
/-- I/O tags in flight of a function (R84). -/
def Die.ioTagsOf (d : Die) (fn : Nat) : Nat :=
  (d.qe.tags.filter (fun e => e.2.st != .free && e.2.sq != 0 && e.2.fn == fn)).length

/-- Whether a submission queue has an entry that could be fetched now (R72, R84, R302): a tag of its pool free, the function
below its ceiling, its tenant not held by a budget. -/
def Die.sqReady (d : Die) (fn q : Nat) : Bool :=
  let f := d.fn fn
  let s := f.sq q
  f.st == .ready && !f.fetchStopped && !f.cfs && s.size != 0 && !s.deleting && s.head != s.tail
    && (if q = 0 then decide (d.adminTags < 256)
        else decide (d.ioTags < Config.ioTags) && decide (d.ioTagsOf fn < (d.tenant fn).tagCeil) && !(d.tenant fn).heldByBudget)

/-- The queues of a function that could be fetched from, in ascending order. -/
def Die.readyQueues (d : Die) (fn : Nat) : List Nat :=
  ((d.fn fn).sqs.filter (fun e => d.sqReady fn e.1)).map (fun e => e.1)

/-- R71: the next queue in round robin after the one served last. -/
def Die.nextQueue (d : Die) (fn : Nat) : Option Nat :=
  let qs := d.readyQueues fn
  let last := Tbl.get 0 d.qe.rr fn
  let least := fun (l : List Nat) => l.foldl (fun a q => match a with | none => some q | some b => some (min b q)) none
  match least (qs.filter (fun q => decide (last < q))) with
  | some q => some q
  | none => least qs

/-- R277: the candidate with the lowest key, the lowest function number on a tie. -/
def Die.bestFn (d : Die) : Option Nat :=
  (d.funcs.filter (fun e => !(d.readyQueues e.1).isEmpty)).foldl (fun a e => match a with
    | none => some e.1
    | some b => if d.intakeKey e.1 < d.intakeKey b ∨ (d.intakeKey e.1 = d.intakeKey b ∧ e.1 < b) then some e.1 else some b) none

/-- Whether the entry at the head of a queue is the one intake fetches now: within the turn under way, of up to 4 entries
(R71), or as the next turn of the best candidate. -/
def Die.fetchDue (d : Die) (fn sq : Nat) : Bool :=
  d.sqReady fn sq && d.aon.pstate == 0 && !d.aon.committed &&
    ((d.qe.turn.1 == fn && d.qe.turn.2.1 == sq && decide (0 < d.qe.turn.2.2) && decide (d.qe.turn.2.2 < 4))
      || (d.bestFn == some fn && d.nextQueue fn == some sq))

/-- A turn ends as soon as its queue has no entry that could be fetched (R71): the queue empty or being deleted, its function stopped, at
its tag ceiling or held by a budget, the tag pool used up. -/
def Die.cutTurn (d : Die) : Die :=
  if 0 < d.qe.turn.2.2 ∧ d.sqReady d.qe.turn.1 d.qe.turn.2.1 = false then { d with qe := { d.qe with turn := (d.qe.turn.1, d.qe.turn.2.1, 0) } } else d

/-- R71, R83, R277: an entry taken from its queue and bound to a tag with its stamp. -/
def Die.bindTag (d : Die) (fn sq t : Nat) (e : SqEntry) : Die :=
  let q := (d.fn fn).sq sq
  let admin := sq == 0
  let tcls := (d.tenant fn).force.cls
  let hinted := !admin && rwOpcodes.contains e.opc
  let cls := if hinted then effClass tcls e.vhd else tcls
  let cost := d.cost0 admin e
  let d := if costOpen admin e.opc then d.drawn else d
  let r := d.stampFor fn cls (kindOf admin e.opc) cost q.rungAt
  let d := r.2
  let cont := d.qe.turn.1 == fn && d.qe.turn.2.1 == sq && decide (0 < d.qe.turn.2.2) && decide (d.qe.turn.2.2 < 4)
  let x : Tag := { st := .bound, gen := (d.tag t).gen, fn := fn, sq := sq, entry := some e, fetched := d.now, rung := q.rungAt,
                   order := d.qe.order, stamp := r.1, errLba := e.slba,
                   report := if hinted && clamped tcls e.vhd then 0b000100 else 0 }
  let d := { d with qe := { d.qe with tags := Tbl.set d.qe.tags t x, order := d.qe.order + 1, rr := Tbl.set d.qe.rr fn sq
                                      turn := (fn, sq, if cont then d.qe.turn.2.2 + 1 else 1) } }
  ((d.updFn fn (fun f => f.updSq sq Sq.take)).updTenant fn (fun y => { y with touched := true })).cutTurn

/-- R121 for a command just bound. Set Zone Descriptor Extension keeps its answer for its own step (log entry 20), and Dataset
Management its steps 4 and 5 for the step that brings its ranges. -/
def Die.checkEntry (d : Die) (fn sq t : Nat) (e : SqEntry) : Die :=
  if sq = 0 then
    if !(adminOpcodes.contains e.opc || (fn == 0 && adminPfOpcodes.contains e.opc)) then d.finish t stInvalidOpcode
    else if adminBad e then d.finish t stInvalidField else d
  else
    match d.checkFields fn e with
    | some st => (if e.opc == 0x01 && e.dtype == 2 then d.fdpEvent 0x03 (e.dspec % 8192) else d).finish t st
    | none =>
      if e.opc = 0x79 ∧ e.zsa = 0x10 then d
      else if e.opc = 0x00 ∧ e.ns = nsidAll then d
      else if !d.reaches fn e.ns then d.finish t stInvalidNamespace
      else match checkRange (d.ns e.ns) e with
        | some st => d.finish t st
        | none => match (if e.opc = 0x09 then none else d.checkAna (d.ns e.ns)) with
          | some st => d.finish t st
          | none =>
            if (d.ns e.ns).home != d.anaGroup then d.updTag t (fun x => { x with forwarded := true, wlba := e.slba })
            else if d.gateShut e (d.tag t).order then d.updTag t (fun x => { x with gated := true })
            else if rwOpcodes.contains e.opc then d.checkLate t e else d

/-- SQ_ENTRY_FETCH: the entry at the head of a queue fetched, bound to a free tag, stamped and checked. -/
def Die.fetch (d : Die) (fn sq t : Nat) (e : SqEntry) : Die :=
  if d.qe.hold = false ∧ d.qe.stopped = false ∧ t < Config.tags ∧ (d.tag t).st = .free ∧ d.fetchDue fn sq = true then
    let busy := d.cidBusy fn sq e.cid
    let d := d.hostWake.bindTag fn sq t e
    let io := sq != 0
    let step1 := if io then (d.checkFields fn e).isSome || (e.opc == 0x79 && e.zsa == 0x10)
      else !(adminOpcodes.contains e.opc || (fn == 0 && adminPfOpcodes.contains e.opc)) || adminBad e
    if busy && !step1 then d.finish t stCidConflict else d.checkEntry fn sq t e
  else d

/-! ## The zone gate and admission (R135, R85, R286, R289) -/

/-- Whether every earlier command that targets the zones of a zone action, or the namespace of a Format, has reached POSTING. -/
def Die.earlierDone (d : Die) (e : SqEntry) (admin : Bool) (order : Nat) : Bool :=
  let n := d.ns e.ns
  !d.qe.tags.any (fun u => u.2.live && decide (u.2.order < order) && match u.2.entry with
    | some x => u.2.sq != 0 && x.ns == e.ns && (admin || (targetsZone x.opc && n.zonesMeet x e))
    | none => false)

/-- ZONE_GATE_OPEN: for a zone action its gate opens once the earlier commands to its zones have posted; a command that
waited behind an action is checked against the state the action left (R135). -/
def Die.gateOpen (d : Die) (t : Nat) : Die :=
  let x := d.tag t
  match x.entry with
  | none => d
  | some e =>
    if x.live = true ∧ x.sq ≠ 0 ∧ x.forwarded = false then
      if d.gateShut e x.order then d
      else
        let d := if x.gated && rwOpcodes.contains e.opc then d.checkLate t e else d.updTag t (fun y => { y with gated := false })
        if e.opc = 0x79 ∧ d.earlierDone e false x.order = true then d.updTag t (fun y => { y with gateOpen := true }) else d
    else d

/-- The groups whose host reads a Read or Verify counts for (R285): those that sectors of it are stored in. -/
def Die.readGroups (d : Die) (e : SqEntry) : List Nat :=
  if e.opc = 0x02 ∨ e.opc = 0x0C then
    (((d.ns e.ns).sectorsOf e.slba e.nlb).filterMap (fun x => match (d.ns e.ns).locate x with
      | .media l _ => some (groupOf l.port)
      | _ => none)).eraseDups
  else []

/-- The group that new media of a write comes from (R150): the zone's, the DSPEC group, or the next of the rotation. -/
def Die.nextGroup (d : Die) (n : Ns) (ruh : Nat) (fresh : Bool) : Option Nat :=
  let gs := d.convGroups n fresh
  gs[Tbl.get 0 n.rotation ruh % gs.length]?

/-- The placement handle's reclaim unit handle for a write (R149, R152). -/
def Ns.ruhFor (n : Ns) (e : SqEntry) : Nat :=
  if n.phndls.isEmpty then n.ruh (if e.plhV then e.plh else 0) else n.ruh (if e.dtype = 2 then e.dspec % 8192 else 0)

def Die.writeGroup (d : Die) (e : SqEntry) : Option Nat :=
  let n := d.ns e.ns
  if n.isZoned then (n.zone (n.zoneOf e.slba)).group
  else match fdpGroup e with
    | some g => some g
    | none => d.nextGroup n (n.ruhFor e) (decide (0 < n.newSectors e.slba e.nlb))

/-- A command that changes nothing and that no order of R88, R97 or R135 concerns. -/
def plainRead (opc : Nat) : Bool := [0x02, 0x0C, 0x12, 0x7A].contains opc

/-- A command for a worker that waits for an earlier one of its namespace to be forwarded, so that the worker gets them in tag order (R88,
R91, R97), or behind a zone action, a Format or a ZONE_SET_RO (R135, R145, R153). -/
def Die.forwardHeld (d : Die) (x : Tag) (e : SqEntry) : Bool :=
  x.forwarded && (d.gateShut e x.order || d.qe.tags.any (fun u => u.2.forwarded && u.2.st == .bound && decide (u.2.order < x.order) &&
    match u.2.entry with | some y => y.ns == e.ns && !(plainRead y.opc && plainRead e.opc) | none => false))

/-- Whether intake holds a command in BOUND now: the window's limit is used (R289), an earlier one has to be forwarded first, the journal or its 5 MiB buffer
is full or granules are short and it changes the map (R165, R168, R356), or its group is below GC urgent and its window's share is used (R286). -/
def Die.admitHeld (d : Die) (x : Tag) (e : SqEntry) : Bool :=
  decide (d.sch.limit ≤ d.sch.admitted)
    || d.forwardHeld x e
    || (x.sq != 0 && writeClass.contains e.opc && (d.te.held || d.te.heldDram || decide (bufRecords ≤ recsOf d.te.buf)))
    || (x.sq != 0 && (e.opc == 0x01 || e.opc == 0x7D) && match d.writeGroup e with
        | some g => Tbl.get none d.sch.gcLimit g == some 0
        | none => false)

/-- COMMAND_ADMIT: a bound command admitted within the limit of the window and charged to its tenant's budgets; Write Zeroes requests
its range lock with it (R90). -/
def Die.admitCmd (d : Die) (t : Nat) : Die :=
  let x := d.tag t
  match x.entry with
  | none => d
  | some e =>
    if x.st = .bound ∧ d.qe.hold = false ∧ d.qe.stopped = false ∧ d.admitHeld x e = false then
      let d := d.updTag t (fun y => { y with st := .admitted, ranges := if y.ioOpc = 0x08 then [(e.slba, e.nlb)] else y.ranges })
      let d := { d with sch := { d.sch with admitted := d.sch.admitted + 1 } }
      if x.sq = 0 then d
      else
        let d := (d.updTenant x.fn (fun y => y.charge (d.chargeOf e))).cutTurn
        let d := { d with sch := { d.sch with readsNow := (d.readGroups e).foldl (fun t g => Tbl.upd 0 t g (· + 1)) d.sch.readsNow } }
        let d := match d.writeGroup e with
          | some g => if e.opc = 0x01 ∨ e.opc = 0x7D then
              { d with sch := { d.sch with gcLimit := Tbl.upd none d.sch.gcLimit g (fun l => l.map (· - (d.ns e.ns).sectorsTouched e.slba e.nlb)) } } else d
          | none => d
        if x.forwarded then
          let q := (d.ns e.ns).home - 2
          d.quayOut q (.wireCmd q x.fn t x.gen e x.stamp)
        else d
    else d

/-! ## Posting (R73, R81 to R85, R122, R290) -/

/-- DW0 and DW1 of a completion (R81, R82): the service report of a read, write, Write Zeroes or Verify, the assigned LBA of
a Zone Append, otherwise 0. -/
def Die.reportOf (d : Die) (x : Tag) (e : SqEntry) : Word :=
  if x.sq ≠ 0 ∧ [0x01, 0x02, 0x08, 0x0C].contains e.opc = true then
    BitVec.ofNat 32 (x.report.toNat + 65536 * min 0xFFFF (d.now - x.fetched))
  else x.dw1

/-- A target that an Abort has ended and that has not been posted yet (R102). -/
def Die.abortWaits (d : Die) (x : Tag) (e : SqEntry) : Bool :=
  x.adminOpc == 0x08 && d.qe.tags.any (fun u => u.2.st == .posting && u.2.fn == x.fn && u.2.sq == bitsOf e.cdw10 0 16 && u.2.sq != 0
    && match u.2.entry with | some y => y.cid == bitsOf e.cdw10 16 16 | none => false)

/-- R106: the shutdown status set once every command in flight has gone. -/
def Die.checkShutdown (d : Die) (fn : Nat) : Die :=
  if (d.fn fn).shst = 0b01 ∧ (d.tagsOf fn).isEmpty = true then d.updFn fn (fun f => { f with shst := 0b10 }) else d

/-- COMPLETION_POST: the entry of a finished command written into a free slot of its CQ, then the tag freed; a worker returns it to
the manager instead (R494). -/
def Die.postCompletion (d : Die) (t : Nat) : Die :=
  let x := d.tag t
  match x.entry with
  | none => d
  | some e =>
    let f := d.fn x.fn
    let cqn := (f.sq x.sq).cq
    let cq := f.cq cqn
    if x.st = .posting ∧ d.life.manager = false then
      (d.quayOut d.life.quayId (.wireCpl d.life.quayId t x.gen
        { sct := x.sct, sc := x.sc, dnr := dnr false (x.sct, x.sc), dw0 := x.dw0, dw1 := d.reportOf x e, errLba := x.errLba })).freeTag t
    else if x.st = .posting ∧ cq.size ≠ 0 ∧ (cq.tail + 1) % cq.size ≠ cq.head ∧ d.abortWaits x e = false then
      let st : Status := (x.sct, x.sc)
      let m := entersErrorLog st
      let d := d.countLatency t
      let d := d.emit (.cqe x.fn cqn x.sq e.cid cq.tail x.dw0 (d.reportOf x e) (f.sq x.sq).head cq.phase x.sct x.sc m (dnr (x.sq == 0) st))
      let d := d.updFn x.fn (fun f => { f.updCq cqn (fun q => { q with
          tail := (q.tail + 1) % q.size, phase := if (q.tail + 1) % q.size = 0 then !q.phase else q.phase }) with
        errLog := if m then ({ sqid := x.sq, cid := e.cid, sct := x.sct, sc := x.sc, lba := x.errLba, nsid := e.ns } :: f.errLog).take 256
                  else f.errLog })
      let d := if cq.ien then d.countVec x.fn (d.vecOf x.fn cq.vector) (x.stamp.cls == 0) (cqn == 0) else d
      (d.freeTag t).checkShutdown x.fn
    else d

/-- MODERATION_TIMER_DUE (R401, R403). -/
def Die.moderationDue (d : Die) (fn v : Nat) : Die :=
  match ((d.fn fn).vec v).due with
  | some due => if due ≤ d.now ∧ (d.fn fn).msixEn = true then d.sendVec fn v else d
  | none => d

/-! ## Timers of a command (R87, R113, R116) -/

/-- Number of a tag state in an INTERNAL_TIMEOUT record (R550). -/
def TagState.num : TagState → Nat
  | .free => 0
  | .bound => 1
  | .admitted => 2
  | .media => 3
  | .pull => 4
  | .staged => 5
  | .ret => 6
  | .committed => 7
  | .posting => 8

/-- The ERROR record of INTERNAL_TIMEOUT, which names the stage at which the command was abandoned (R122). -/
def Die.timeoutRecord (d : Die) (t : Nat) : Die :=
  let x := d.tag t
  d.record 0x0202 sevError x.fn (le 2 x.fn ++ le 2 x.sq ++ le 2 ((x.entry.map SqEntry.cid).getD 0) ++ le 1 x.st.num)

/-- INTERNAL_TIMEOUT: a command not in POSTING 8 s after its fetch ends; an Asynchronous Event Request waits without end
(log entry 21). A zone action or a write that has begun keeps what it has applied (R119). -/
def Die.timeout (d : Die) (t : Nat) : Die :=
  let x := d.tag t
  match x.entry with
  | none => d
  | some _ =>
    if x.live = true ∧ x.fetched + Config.ceilingUs ≤ d.now ∧ x.adminOpc ≠ 0x0C then
      let d := d.timeoutRecord t
      let d := d.ladderTake 7 t 2 (d.ladderStep 7 t false) true
      d.failTag t stInternalTimeout
    else d

/-- The fail-fast deadline of a Read or Verify with FF = 1 (R116). -/
def ffDeadline (x : Tag) (e : SqEntry) : Option Nat :=
  if x.sq ≠ 0 ∧ (e.opc = 0x02 ∨ e.opc = 0x0C) ∧ e.ff = true then
    some (x.rung + if e.ffd = 0 then (readDeadline x.stamp.cls).getD 0 else e.ffd)
  else none

/-- FAIL_FAST_DEADLINE: the command ends with DEADLINE_MISSED, unless a hold of an activation is in force, at whose end it
ends with HELD_BY_ACTIVATION_EXPIRED (R113). -/
def Die.failFast (d : Die) (t : Nat) : Die :=
  let x := d.tag t
  match x.entry with
  | none => d
  | some e =>
    match ffDeadline x e with
    | none => d
    | some dl =>
      if dl < d.now ∧ (x.st = .bound ∨ x.st = .admitted ∨ x.st = .media) ∧ d.qe.hold = false then d.failTag t stDeadline else d

/-- R112, R113: the hold of an activation begins: every command in flight is held. -/
def Die.beginHold (d : Die) : Die :=
  { d with fw := { d.fw with holdAt := d.now }, qe := { d.qe with hold := true, tags := d.qe.tags.map (fun e =>
      (e.1, if e.2.live then { e.2 with report := e.2.report ||| 0b010000 } else e.2)) } }

/-- A hold's duration left out of a teardown's 2 s and of a running command's class limit (R306, R379). -/
def Func.pausedBy (f : Func) (us : Nat) : Func :=
  { f with since := f.since + us, mbx := { f.mbx with classFrom := if f.mbx.st == .running then f.mbx.classFrom + us else f.mbx.classFrom } }

/-! ## Abandoning without completion (R109, R306) -/

/-- A command in flight abandoned without completion: what it has not applied is dropped and its tag freed. -/
def Die.abandonTag (d : Die) (t : Nat) : Die :=
  let x := d.tag t
  let d := (d.giveUp t none).abortsEnd t x.gen stInternalTimeout
  ((((if x.live then d.unchain t else d).dropStaged x).dropJobs t x.gen).dropTrays t).freeTag t

/-- Every command in flight of a function abandoned (R109). -/
def Die.abandonAll (d : Die) (fn : Nat) : Die := (d.tagsOf fn).foldl (fun y t => y.abandonTag t) d

/-! ## The meanings -/

/-- SQ_TAIL_DOORBELL (R69). -/
def execSqTailDoorbell (fn y : Nat) (value : Word) (aligned : Bool) (s : State) : Host.Outcome State Fault Refusal :=
  s.run (·.sqDoorbell fn y value aligned)
/-- CQ_HEAD_DOORBELL (R69, R73). -/
def execCqHeadDoorbell (fn y : Nat) (value : Word) (aligned : Bool) (s : State) : Host.Outcome State Fault Refusal :=
  s.run (·.cqDoorbell fn y value aligned)
/-- SQ_ENTRY_FETCH (R72, R121). -/
def execSqEntryFetch (fn sq tag : Nat) (entry : SqEntry) (s : State) : Host.Outcome State Fault Refusal :=
  s.run (·.fetch fn sq tag entry)
/-- COMMAND_ADMIT (R85, R289, R302). -/
def execCommandAdmit (tag : Nat) (s : State) : Host.Outcome State Fault Refusal := s.run (·.admitCmd tag)
/-- COMPLETION_POST (R73). -/
def execCompletionPost (tag : Nat) (s : State) : Host.Outcome State Fault Refusal := s.run (·.postCompletion tag)
/-- MODERATION_TIMER_DUE (R401). -/
def execModerationTimerDue (fn v : Nat) (s : State) : Host.Outcome State Fault Refusal := s.run (·.moderationDue fn v)
/-- INTERNAL_TIMEOUT (R87). -/
def execInternalTimeout (tag : Nat) (s : State) : Host.Outcome State Fault Refusal := s.run (·.timeout tag)
/-- FAIL_FAST_DEADLINE (R116). -/
def execFailFastDeadline (tag : Nat) (s : State) : Host.Outcome State Fault Refusal := s.run (·.failFast tag)
/-- ZONE_GATE_OPEN (R135). -/
def execZoneGateOpen (tag : Nat) (s : State) : Host.Outcome State Fault Refusal := s.run (·.gateOpen tag)

end Sys2Proof.Machine
end

