-- ==== Sys2Proof/Machine/Read.lean ====
section
/-! DEFINITION. The read path (R22, R120, R239 to R244, R254 to R258, R270, R312, R313, R330): how a Read or Verify finds its
sectors, the decode ladder, reconstruction, the cipher lanes and delivery. -/

namespace Sys2Proof.Machine

/-! ## Where blocks are now -/

/-- A location with a substituted block resolved. -/
def Die.resolve (d : Die) (l : Loc) : Loc :=
  let b := d.resolveBlock (blockKey l.port l.die l.block)
  { l with port := b / 8192 / 16, die := b / 8192 % 16, block := b % 8192 }

/-- The RU that a block is a member of, and its position. -/
def Die.ruOfBlock (d : Die) (bk : Nat) : Option (Nat × Nat) :=
  let ix := fun (u : Ru) => u.members.findIdx? (fun m => blockKey m.port m.die m.block == bk)
  match d.rc.rus.find? (fun e => (ix e.2).isSome) with
  | some e => (ix e.2).map (fun p => (e.1, p))
  | none => none

/-- The RU, row and position of a loaf slot (R170, R246). -/
def Die.slotRu (d : Die) (key : Nat) : Option (Nat × Nat × Nat × Nat) :=
  (d.ruOfBlock (d.resolveBlock (key / 8192))).map (fun x => (x.1, key / 4 % 2048, x.2, key % 4))

/-- Whether a loaf slot's LOAD has returned OK, or its PU has passed (R20, R24). -/
def Die.slotLoaded (d : Die) (key : Nat) : Bool :=
  match d.slotRu key with
  | some (r, row, p, s) => (d.ru r).loaded.contains ((row * 64 + p) * 4 + s) || (d.ru r).passed.contains (row * 64 + p)
  | none => true

/-- Whether the PU of a loaf slot has passed program. -/
def Die.slotPassed (d : Die) (key : Nat) : Bool :=
  match d.slotRu key with
  | some (r, row, p, _) => (d.ru r).passed.contains (row * 64 + p)
  | none => true

/-- Whether a loaf slot's data is served from its tray (R156, R252, R257): its PU has not passed program, and no stop has left its position
recorded as missing. -/
def Die.slotTray (d : Die) (key : Nat) : Bool :=
  match d.slotRu key with
  | some (r, row, p, _) => !(d.ru r).passed.contains (row * 64 + p) && (!(d.ru r).lost.contains (p, row) || d.rc.owed.contains key)
  | none => false

/-- A berth that serves reads: its port is ONLINE or DRAINING (R259). -/
def Die.portServes (d : Die) (p : Nat) : Bool := (d.port p).st == .online || (d.port p).st == .draining

/-- A location that can be read directly: the berth serves and the die is not fenced (R254 T1). -/
def Die.readable (d : Die) (l : Loc) : Bool := d.portServes l.port && !(d.port l.port).dfence.getLsbD l.die

/-- A member of an RU whose berth is missing, or that a rebuild has still to replace, whatever berth its port now holds
(R259, R260, R262). -/
def Die.memberGone (d : Die) (r : Nat) (m : Member) : Bool :=
  (Tbl.get none d.se.missing m.port).isSome || (d.se.rebuild.contains (r, m.port) && (d.port m.port).st != .draining)

/-- A loaf slot that can be read directly: its die serves, its member is there, and its PU is not recorded as missing. -/
def Die.slotReadable (d : Die) (l : Loc) : Bool :=
  d.readable (d.resolve l) && match d.slotRu l.key with
    | some (r, row, p, _) => !(d.ru r).lost.contains (p, row) &&
        (match (d.ru r).members[p]? with | some m => !d.memberGone r m | none => true)
    | none => true

/-- A page read of a block counted; at the read-disturb limit the block is refreshed (R177). -/
def Die.countPage (d : Die) (port die block : Nat) : Die :=
  let key := blockKey port die block
  let lim := match (d.port port).passport with | some x => if x.readDisturb = 0 then 100000 else x.readDisturb | none => 100000
  let d := d.updBlock key (fun b => { b with reads := b.reads + 1 })
  if lim ≤ (d.block key).reads ∧ (d.ruOfBlock key).isSome = true then d.refreshBlock key 0 else d

/-! ## Delivery (R120, R270) -/

/-- The LBAs of an internal sector that a command addresses. -/
def lbasIn (n : Ns) (e : SqEntry) (x : Nat) : List Nat :=
  (List.range' (x * n.lbasPerSector) n.lbasPerSector).filter (fun l => decide (e.slba ≤ l) && decide (l < e.slba + e.nlb))

/-- The data and host metadata of one LBA of an internal sector (R127). -/
def lbaData (n : Ns) (l : Nat) (p : SectorData × BitVec 128) : SectorData × BitVec 128 :=
  if n.lbasPerSector = 1 then p
  else let i := l % 8
       ((p.1.extractLsb' (i * 4096) 4096).zeroExtend 32768, (p.2.extractLsb' (i * 16) 16).zeroExtend 128)

/-- Bytes of host metadata for each LBA (R127). -/
def Ns.metaBytes (n : Ns) : Nat := if n.lbaf = 1 then 16 else if n.lbaf = 3 then 2 else 0

/-- Where the host metadata of an LBA of a command goes: the separate buffer that MPTR names, LBA after LBA (R75, R127). -/
def Ns.hostMeta (n : Ns) (e : SqEntry) (lba : Nat) (m : BitVec 128) : Option (Nat × BitVec 128) :=
  if n.metaBytes = 0 then none else some (e.mptr.toNat + (lba - e.slba) * n.metaBytes, m)

/-- One sector's LBAs sent to the host: the data, or zeros for a sector that failed, poisoned where the function forwards
poison (R270); a worker sends them to its manager with the poison mark (R494, R496). A Verify sends nothing. The first byte moves the tag to RETURN. -/
def Die.deliver (d : Die) (t x : Nat) (p : SectorData × BitVec 128) (unrec : Bool) : Die :=
  let y := d.tag t
  match y.entry with
  | none => d
  | some e =>
    if e.opc = 0x02 then
      let n := d.ns e.ns
      let f := d.fn y.fn
      let pois := unrec && f.poisonFwd && d.life.manager
      let d := (lbasIn n e x).foldl (fun d l =>
        let q := lbaData n l p
        if d.life.manager then d.emit (.dataOut y.fn t l q.1 (n.hostMeta e l q.2) pois f.relaxed)
        else d.quayOut d.life.quayId (.wireData d.life.quayId t y.gen l q.1 q.2 unrec)) d
      let d := d.updTag t (fun z => { z with st := .ret })
      if pois then (d.record 0x0107 sevError y.fn (le 2 y.fn ++ le 4 e.ns ++ le 8 ((lbasIn n e x).headD 0))).ferr y.fn 3 else d
    else d

/-- R120: the status of a Read or Verify once every sector is done, and the first failing LBA. -/
def Die.readFinish (d : Die) (t : Nat) : Die :=
  let y := d.tag t
  match y.entry with
  | none => d
  | some e =>
    let n := d.ns e.ns
    let first := y.bad.foldl (fun a b => match a with | none => some b.1 | some m => some (min m b.1)) none
    let d := match first with
      | some x => d.updTag t (fun z => { z with errLba := max e.slba (x * n.lbasPerSector) })
      | none => d
    d.finish t (if y.bad.isEmpty then stOk else if y.bad.any (fun b => !b.2) then stUnrecovered else stIntegrity)

/-- What ends a Read or Verify that has not reached RETURN before a sector of it goes on: its fail-fast deadline has passed (R116), or
the transfer's first look at the data pointer of a Read finds it malformed (R121 step 10). -/
def Die.stopsHere (d : Die) (t : Nat) : Option Status :=
  let y := d.tag t
  match y.entry with
  | none => none
  | some e =>
    let pointer := if e.opc = 0x02 then d.pointerBad y e (e.nlb * (d.ns e.ns).lbaBytes) else none
    if y.st == .ret then none
    else match ffDeadline y e with
      | some dl => if dl < d.now then some stDeadline else pointer
      | none => pointer

/-- One sector of a command done: delivered, or failed by integrity (some true) or beyond recovery (some false). In an activation hold
the command goes no further than the end of its stage (R112). -/
def Die.sectorDone (d : Die) (t x : Nat) (p : SectorData × BitVec 128) (bad : Option Bool) : Die :=
  match d.stopsHere t with
  | some st => d.failTag t st
  | none =>
    let d := match bad with
      | none => d.deliver t x p false
      | some i => (d.deliver t x (0, 0) (!i)).updTag t (fun z => { z with bad := (x, i) :: z.bad })
    let d := d.updTag t (fun z => { z with work := z.work - 1 })
    if (d.tag t).work = 0 ∧ d.qe.hold = false then d.readFinish t else d

/-! ## Reconstruction (R254, R255) -/

/-- Jobs under reconstruction (R255). -/
def Die.reconCount (d : Die) : Nat := (d.se.jobs.filter (fun e => match e.2 with | some j => j.stage == .recon | none => false)).length

/-- The positions of a row that cannot be read: missing berths, fenced dies and positions recorded as lost, holes excepted. -/
def Die.rowLost (d : Die) (r row : Nat) : List Nat :=
  let u := d.ru r
  (List.range (u.k + 2)).filter (fun p => !u.isHole row p && match u.members[p]? with
    | some m => !d.readable { port := m.port, die := m.die, block := m.block, pu := row, slot := 0 } || u.lost.contains (p, row)
        || d.memberGone r m
    | none => true)

/-- A row of an open RU that is not closed yet: its accumulators stand for P and Q (R255). -/
def Ru.openRow (u : Ru) (row : Nat) : Bool := u.st == .opened && decide (u.row ≤ row)

/-- Whether a position of a row holds data at a loaf slot, which filler and holes do not; in an open row only what is loaded (R255). -/
def Ru.holdsAt (u : Ru) (row p s : Nat) : Bool :=
  !u.isHole row p && u.written row p
    && (if u.openRow row then u.loaded.contains ((row * 64 + p) * 4 + s) else u.passed.contains (row * 64 + p) || u.lost.contains (p, row))

/-- The source positions of a reconstruction of a code word (R255): the other data positions that hold something there, and P, or Q where P
is an erasure, or both; in an open row the accumulators stand for P and Q. gone: positions that are erasures besides those that cannot be
read. None where more is unknown than P and Q solve. -/
def Die.reconSources (d : Die) (r row pos slot : Nat) (gone : List Nat) : Option (List Nat) :=
  let u := d.ru r
  let lost := d.rowLost r row
  let out := fun (p : Nat) => gone.contains p || lost.contains p
  let data := (u.dataPos row).filter (fun p => p != pos && u.holdsAt row p slot)
  let par := if u.openRow row then [] else [posP u.k row, posQ u.k row].filter (fun p => p != pos && !out p && !u.isHole row p)
  let unknown := (data.filter out).length + bit ((u.dataPos row).contains pos)
  if unknown ≤ (if u.openRow row then 2 else par.length) then some (data.filter (fun p => !out p) ++ par.take unknown) else none

/-- Whether a position of a row is busy with a program or erase, or cannot be read. -/
def Die.posBusy (d : Die) (r row p : Nat) : Bool :=
  match (d.ru r).members[p]? with
  | some m => let s := d.dsch (dieKey m.port m.die); (s.running.isSome && !s.suspended) || (d.rowLost r row).contains p
  | none => true

/-- The positions that hold something at a loaf slot of a row, its parity among them, and are busy. -/
def Die.busyAt (d : Die) (r row pos slot : Nat) : List Nat :=
  let u := d.ru r
  (List.range (u.k + 2)).filter (fun p => p != pos && !u.isHole row p && (u.holdsAt row p slot || !(u.dataPos row).contains p) && d.posBusy r row p)

/-- R258, R265: a sector that nothing brings back is poisoned; where three or more positions of its row are lost, with an ALERT. -/
def Die.poisonLost (d : Die) (nsid x : Nat) (loc : Loc) : Die :=
  let l := d.resolve loc
  let d := match d.slotRu loc.key with
    | some (r, row, _, _) => if 3 ≤ (d.rowLost r row).length then
        d.record 0x0602 sevAlert r (le 1 (d.ru r).group ++ le 4 r ++ le 2 row) else d
    | none => d
  d.poison nsid x l.port l.die l.block

/-! ## Reads of stored sectors by the device's own work (R27, R96, R172, R258) -/

/-- What the decode of a code word asks for its block (R177): above 96 corrected bits, or a soft decode, it is refreshed. -/
def Die.noteDecode (d : Die) (unread : Decodes) (bk key : Nat) : Die :=
  if unread.soft.contains key then d.refreshBlock bk 1 else if unread.high.contains key then d.refreshBlock bk 0 else d

/-- The positions of a row at which a code word fails its whole decode ladder. -/
def Die.failedAt (d : Die) (unread : Decodes) (r row slot i : Nat) : List Nat :=
  let u := d.ru r
  (List.range (u.k + 2)).filter (fun p => unread.failed.contains (secKey (u.locOf row p slot).key i))

/-- A code word reconstructed for the device's own work (R254 T5): its sources are read through the full ladder, and one that fails is an
erasure. None where they do not bring it back. -/
def Die.reconOwn (d : Die) (unread : Decodes) (r row pos slot i : Nat) : Option Die :=
  let u := d.ru r
  (d.reconSources r row pos slot (d.failedAt unread r row slot i)).map (fun ps => ps.foldl (fun (x : Die) p => match u.members[p]? with
    | some m => (x.countPage m.port m.die m.block).noteDecode unread (blockKey m.port m.die m.block) (secKey (u.locOf row p slot).key i)
    | none => x) d)

/-- A stored sector read for a merge, a GC copy, a fold, a refresh or a rebuild; what is INFLIGHT comes from its tray (R257). unread: the
code words whose decode ladder fails. Such a sector, or one whose berth is missing, is reconstructed where its row allows it, and its block
refreshed at once (R177, R254 T5); one that nothing brings back is poisoned (R258, R265). -/
def Die.readStored (d : Die) (unread : Decodes) (nsid x : Nat) (loc : Loc) (i : Nat) : Die :=
  if d.slotTray loc.key then d
  else
    let l := d.resolve loc
    let bk := blockKey l.port l.die l.block
    let direct := d.slotReadable loc
    let d := if direct then d.countPage l.port l.die l.block else d
    if direct && !unread.failed.contains (secKey l.key i) then d.noteDecode unread bk (secKey l.key i)
    else match (d.slotRu loc.key).bind (fun q => d.reconOwn unread q.1 q.2.1 q.2.2.1 q.2.2.2 i) with
      | some d => if direct then d.refreshBlock bk 2 else d
      | none => d.poisonLost nsid x loc

/-- The stored sectors of a namespace that a piece of work needs, read one after another; what stands in the proofing area, is zero or
is poisoned already needs no read. -/
def Die.readAll (d : Die) (unread : Decodes) (nsid : Nat) (xs : List Nat) : Die :=
  xs.foldl (fun (d : Die) x => match (d.ns nsid).locate x with
    | .media loc i => d.readStored unread nsid x loc i
    | .proof a => d.readProof a 3
    | _ => d) d

/-! ## Jobs -/

/-- A job for one sector. -/
def Die.addJob (d : Die) (j : Job) : Die :=
  ({ d with se := { d.se with nextJob := d.se.nextJob + 1 } } : Die).setJob d.se.nextJob j

/-- The array reads of the jobs that wait: one operation for each loaf slot, of one plane or of all four (R211, R273). -/
def Die.queueReads (d : Die) (t : Nat) (js : List (Nat × Job)) : Die :=
  let x := d.tag t
  let keys := (js.map (fun e => e.2.loc.key)).eraseDups
  keys.foldl (fun y k =>
    let mine := js.filter (fun e => e.2.loc.key == k)
    match mine with
    | [] => y
    | e :: _ =>
      let l := y.resolve e.2.loc
      let planes := (mine.map (fun f => f.2.idx / 4)).eraseDups
      let mask := (mine.map (fun f => f.2.idx % 4)).eraseDups.foldl (fun a c => a + 2 ^ c) 0
      y.queueOp { port := l.port, die := l.die, op := opRead, block := l.block, pu := l.pu, level := l.slot, plane := e.2.idx / 4,
                  mp := decide (1 < planes.length), cwmask := mask, tenant := x.stamp.tenant, cls := x.stamp.cls, s0 := x.stamp.s0,
                  deadline := x.stamp.deadline, dlv := x.stamp.dlv, what := .readSec (mine.map (fun f => (f.2.idx, f.1))) }) d

/-- A job whose sector is good, or failed by integrity or beyond recovery: the sector is done, or in an activation hold waits where its
command has not reached RETURN (R112). A sector beyond recovery has its poison mark set in its trays (R23). -/
def Die.jobDone (d : Die) (jn : Nat) (j : Job) (bad : Option Bool) : Die :=
  let d := if bad == some false then d.markTrays j.trays j.sect else d
  if d.qe.hold && (d.tag j.tag).st != .ret then d.setJob jn { j with stage := .ended bad }
  else (d.endJob jn).sectorDone j.tag j.sect (if bad.isNone then d.decryptSector j.ns j.sec else (0, 0)) bad
/-- R83: a report under an outdated handle discarded and counted. -/
def Die.staleReport (d : Die) : Die := { d with qe := { d.qe with stale := d.qe.stale + 1 } }

/-- The job of a number whose handle is still current. -/
def Die.job (d : Die) (jn : Nat) : Option Job :=
  match Tbl.get none d.se.jobs jn with
  | some j => if (d.tag j.tag).gen = j.gen ∧ (d.tag j.tag).st ≠ .free then some j else none
  | none => none

/-- A bit of the service report set (R82). -/
def Die.reportBit (d : Die) (t i : Nat) : Die := d.updTag t (fun y => { y with report := y.report ||| BitVec.ofNat 6 (2 ^ i) })

/-- The block number of a job. -/
def Die.jobBlock (d : Die) (j : Job) : Nat := let l := d.resolve j.loc; blockKey l.port l.die l.block

/-! ## A host read reconstructed (R254, R255) -/

/-- The reads of one source queued: its code word, at the same plane and page level, with some offset sets (R220, R242, R255). -/
def Die.queueSrc (d : Die) (jn : Nat) (j : Job) (r row slot : Nat) (offs : List Nat) (p : Nat) : Die :=
  let x := d.tag j.tag
  match (d.ru r).members[p]? with
  | some m => offs.foldl (fun (y : Die) o => y.queueOp {
      port := m.port, die := m.die, op := opRead, block := m.block, pu := row, level := slot, plane := j.idx / 4
      cwmask := 2 ^ (j.idx % 4), tenant := x.stamp.tenant, cls := x.stamp.cls, s0 := x.stamp.s0, deadline := x.stamp.deadline
      dlv := x.stamp.dlv, offset := o, what := .recon jn p }) d
  | none => d

/-- The sources of a job chosen, for a first time or anew: those that have been read or asked for stay, and the reads of the others are queued
(R255). For a deadline (T4) a busy position is an erasure. -/
def Die.chooseSources (d : Die) (jn : Nat) (j : Job) : Option (Die × Job) :=
  match d.slotRu j.loc.key with
  | none => none
  | some (r, row, pos, slot) =>
    (d.reconSources r row pos slot (j.gone ++ if j.trig = 4 then d.busyAt r row pos slot else [])).map (fun ps =>
      let had := fun (p : Nat) => j.srcs.find? (fun s => s.pos == p)
      let j := { j with stage := .recon, srcs := ps.map (fun p => (had p).getD { pos := p }) }
      ((ps.filter (fun p => (had p).isNone)).foldl (fun (y : Die) p => y.queueSrc jn j r row slot [0] p) (d.setJob jn j), j))

/-- A reconstruction that has brought its code word back: it goes to the cipher lanes; after an uncorrectable read (T2) or a tag that failed (T3)
the block is refreshed (R177, R244, R254). -/
def Die.reconGood (d : Die) (jn : Nat) (j : Job) : Die :=
  let d := d.reportBit j.tag 0
  let d := if j.trig = 2 ∨ j.trig = 3 then d.refreshBlock (d.jobBlock j) 2 else d
  d.setJob jn { j with stage := .cipher, srcs := [] }

/-- R316: the record of a sector whose tag fails. -/
def Die.tagFailed (d : Die) (j : Job) (laneOk : Bool) : Die :=
  let n := d.ns j.ns
  d.record 0x0902 sevError noInst (le 4 j.ns ++ le 8 (j.sect * n.lbasPerSector) ++ le 2 j.sec.md.kslot ++ le 4 j.sec.md.epoch
    ++ le 1 (bit (d.tagVerifies j.ns j.sec && laneOk)))

/-- A reconstruction for T1 to T3 that nothing solves: after a tag that failed the sector fails by integrity (R256), else it is poisoned (R258). -/
def Die.reconLost (d : Die) (jn : Nat) (j : Job) : Die :=
  if j.trig = 3 then (d.tagFailed j true).jobDone jn j (some true)
  else (d.poisonLost j.ns j.sect j.loc).jobDone jn j (some false)

/-- The sources chosen, or, where nothing is to be read for them, the reconstruction ended. -/
def Die.reconTry (d : Die) (jn : Nat) (j : Job) : Die :=
  match d.chooseSources jn j with
  | none => d.reconLost jn j
  | some q => if q.2.srcs.all (fun s => s.good) then q.1.reconGood jn q.2 else q.1

/-- A job that goes back to an ordinary read: a reconstruct-read whose source fails (R255), or that no row solves. -/
def Die.readDirect (d : Die) (jn : Nat) (j : Job) : Die :=
  let d := { d with sch := { d.sch with queued := d.sch.queued.filter (fun o => match o.what with | .recon k _ => k != jn | _ => true) } }
  let j := { j with trig := 0, srcs := [], gone := [], step := 1, left := 1 }
  if d.slotReadable j.loc then (d.setJob jn { j with stage := .wait }).queueReads j.tag [(jn, { j with stage := .wait })]
  else d.reconTry jn { j with trig := 1 }

/-- The sources of a job chosen anew; a reconstruct-read (T4) that no choice solves goes back to the ordinary read (R255, R272). -/
def Die.reconAnew (d : Die) (jn : Nat) (j : Job) : Die :=
  if j.trig = 4 ∧ (d.chooseSources jn j).isNone = true then d.readDirect jn j else d.reconTry jn j

/-- A job set to reconstruction by a trigger. With 4,096 under way one for T1 to T3 waits and one for T4 goes back at once (R255). -/
def Die.startRecon (d : Die) (jn : Nat) (j : Job) (trig : Nat) : Die :=
  let j := { j with trig := trig, srcs := [], gone := [] }
  if Config.maxRecon ≤ d.reconCount then (if trig = 4 then d.readDirect jn j else d.setJob jn { j with stage := .reconWait })
  else d.reconAnew jn j

/-- The first reconstruction that waits for its turn begins when there is room (R255). -/
def Die.reconNext (d : Die) : Die :=
  if d.reconCount < Config.maxRecon then
    match d.se.jobs.find? (fun e => match e.2 with | some j => j.stage == .reconWait | none => false) with
    | some (jn, some j) => match d.job jn with
      | some _ => d.startRecon jn j j.trig
      | none => d.endJob jn
    | _ => d
  else d

/-! ## READ and VERIFY -/

/-- R252: a loaf slot whose PU failed to program and is not recovered yet. -/
def Die.underRecovery (d : Die) (key : Nat) : Bool :=
  match d.slotRu key with
  | some (r, row, pos, _) => (d.ru r).row == row && (d.ru r).failing.any (fun f => f.1 == pos)
  | none => false

/-- READ and VERIFY (R22 steps 3 to 5, R120, R143, R156): each sector of the range is looked up in the map, a read of 1 MiB or
more without allocating lines (R161), and is served from where the map says; it waits for a sector under recovery (R252). The command
enters MEDIA when the first operation for it is issued to a die (R85), and at once where none is needed (DEDUCED, log entry 148). -/
def Die.startRead (d : Die) (t opc : Nat) : Die :=
  let x := d.tag t
  match x.entry with
  | none => d
  | some e =>
    if x.st = .admitted ∧ x.ioOpc = opc ∧ x.gated = false ∧ x.forwarded = false ∧ d.qe.hold = false ∧ x.work = 0 then
      let n := d.ns e.ns
      let secs := n.sectorsOf e.slba e.nlb
      if secs.any (fun s => match n.locate s with | .media l _ => d.underRecovery l.key | _ => false) then d
      else
      let waits := secs.any (fun s => match n.locate s with | .media l _ => !d.slotTray l.key | _ => false)
      let d := secs.foldl (fun d s => d.lookUp e.ns (decide (e.nlb * n.lbaBytes < 1048576)) x.stamp s) d
      let d := secs.foldl (fun d s => match n.locate s with | .proof a => d.readProof a 3 | _ => d) d
      let n := d.ns e.ns
      let d := d.updTag t (fun y => { y with st := if waits then .admitted else .media, work := secs.length })
      let first := d.se.nextJob
      let d := secs.foldl (fun d s =>
        let mk := fun (loc : Loc) (i : Nat) (st : SecState) (sec : Sector) =>
          d.addJob { tag := t, gen := x.gen, ns := e.ns, sect := s, loc := loc, idx := i, lr := e.lr, stage := st, step := 1,
                     left := 0, trig := 0, sec := sec }
        match n.locate s with
        | .zeros => d.sectorDone t s (0, 0) none
        | .poisoned => d.sectorDone t s (0, 0) (some false)
        | .proof a => mk {} 0 .cipher (d.proofGet a)
        | .media loc i =>
          let sec := d.mediaGet (secKey loc.key i)
          if d.slotTray loc.key then mk loc i .cipher sec else mk loc i .wait sec) d
      let js := (d.se.jobs.filterMap (fun e => match e.2 with
        | some j => if first ≤ e.1 ∧ j.stage = .wait then some (e.1, j) else none
        | none => none))
      let direct := js.filter (fun e => d.slotReadable e.2.loc)
      let gone := js.filter (fun e => !d.slotReadable e.2.loc)
      gone.foldl (fun y e => y.startRecon e.1 e.2 1) (d.queueReads t direct)
    else d

/-! ## The ladder (R241 to R244) and the lanes (R312, R313, R330) -/

/-- Offset sets a berth supports (RO_SETS of its passport). -/
def Die.roSets (d : Die) (port : Nat) : Nat := match (d.port port).passport with | some p => p.roSets | none => 0

/-- The step after one that failed: soft re-reads where the berth and the command allow them, else reconstruction. -/
def Die.nextDecode (d : Die) (j : Job) : Nat :=
  let ro := d.roSets (d.resolve j.loc).port
  if j.step = 1 ∧ j.lr = false ∧ 3 ≤ ro then 2
  else if j.step ≤ 2 ∧ j.lr = false ∧ 7 ≤ ro then 3 else 4

/-- Re-reads of a soft step (R242): offset sets 1 and 2, or 3 to 6. -/
def Die.queueRereads (d : Die) (jn : Nat) (j : Job) (step : Nat) : Die :=
  let x := d.tag j.tag
  let l := d.resolve j.loc
  let offs := if step = 2 then [1, 2] else [3, 4, 5, 6]
  let d := d.setJob jn { j with stage := .wait, step := step, left := offs.length }
  offs.foldl (fun y o => y.queueOp { port := l.port, die := l.die, op := opRead, block := l.block, pu := l.pu, level := l.slot,
                                     plane := j.idx / 4, cwmask := 2 ^ (j.idx % 4), tenant := x.stamp.tenant, cls := x.stamp.cls, s0 := x.stamp.s0,
                                     deadline := x.stamp.deadline, dlv := x.stamp.dlv, offset := o, what := .readSec [(j.idx, jn)] }) d

/-- The step of the ladder after one that failed for a source: the full ladder, as far as its berth supports it (R242, R254). -/
def Die.nextSrc (d : Die) (m : Member) (step : Nat) : Nat :=
  let ro := d.roSets m.port
  if step = 1 ∧ 3 ≤ ro then 2 else if step ≤ 2 ∧ 7 ≤ ro then 3 else 4

/-- A source that fails a step: a reconstruct-read (T4) goes back to the ordinary read; else the source climbs its ladder, and at its end is an
erasure and the sources are chosen anew (R254, R255). -/
def Die.sourceFailed (d : Die) (jn : Nat) (j : Job) (s : ReconSrc) : Die :=
  if j.trig = 4 then d.readDirect jn j
  else match d.slotRu j.loc.key with
    | none => d.reconLost jn j
    | some (r, row, _, slot) => match (d.ru r).members[s.pos]? with
      | none => d
      | some m =>
        let others := j.srcs.filter (fun y => y.pos != s.pos)
        match d.nextSrc m s.step with
        | 4 => d.reconTry jn { j with gone := s.pos :: j.gone, srcs := others }
        | st =>
          let offs := if st = 2 then [1, 2] else [3, 4, 5, 6]
          (d.setJob jn { j with srcs := { s with step := st, left := offs.length } :: others }).queueSrc jn j r row slot offs s.pos

/-- A source decoded: its block is refreshed as its decode asks (R177), and with the last one the code word is brought back. -/
def Die.sourceDone (d : Die) (jn : Nat) (j : Job) (s : ReconSrc) (o : DecodeOutcome) : Die :=
  match o with
  | .failed => d.sourceFailed jn j s
  | .converged bits =>
    if s.step = 1 ∧ 160 < bits then d.sourceFailed jn j s
    else
      let d := match (d.slotRu j.loc.key).bind (fun q => (d.ru q.1).members[s.pos]?) with
        | some m =>
          let bk := blockKey m.port m.die m.block
          if s.step ≠ 1 then d.refreshBlock bk 1 else if 96 < bits then d.refreshBlock bk 0 else d
        | none => d
      let j := { j with srcs := j.srcs.map (fun y => if y.pos == s.pos then { y with good := true } else y) }
      if j.srcs.all (fun y => y.good) then d.reconGood jn j else d.setJob jn j

/-- DECODE_DONE: a decode of a code word ends (R241, R242): a sector's own, or that of the first source of its reconstruction that has arrived
and is not decoded (R254; log entry 214). -/
def Die.decodeDone (d : Die) (jn : Nat) (o : DecodeOutcome) : Die :=
  match d.job jn with
  | none => (d.endJob jn).staleReport
  | some j =>
    let d := if j.stage = .arrived ∧ j.step ≠ 1 then d.reportBit j.tag 5 else d
    if j.stage = .arrived then
      match o with
      | .converged bits =>
        if j.step = 1 ∧ 160 < bits then
          (match d.nextDecode j with
            | 4 => d.startRecon jn j 2
            | st => d.queueRereads jn j st)
        else
          let d := if j.step = 1 then (if 96 < bits then d.refreshBlock (d.jobBlock j) 0 else d) else d.refreshBlock (d.jobBlock j) 1
          d.setJob jn { j with stage := .cipher }
      | .failed =>
        if !d.slotReadable j.loc then d.startRecon jn j 1
        else match d.nextDecode j with
          | 4 => d.startRecon jn j 2
          | st => d.queueRereads jn j st
    else if j.stage = .recon then
      match j.srcs.find? (fun s => s.left == 0 && !s.good) with
      | some s => (d.sourceDone jn j s o).reconNext
      | none => d
    else d

/-- R313: a lane pair that disagreed leaves service for its slice: it comes back as a spare (R481), or it is fenced when the slice
fails or the pair disagreed within the last 24 h. What it ran or had set aside is computed anew on other pairs (R333). -/
def Die.pairMismatch (d : Die) (pair : Nat) (slicePass : Bool) : Die :=
  let again := match Tbl.get none d.cl.disagree pair with
    | some t => decide (d.now < t + 86400000000)
    | none => false
  let d := { d with cl := { d.cl with disagree := Tbl.set d.cl.disagree pair (some d.now) } }
  if slicePass = true ∧ again = false then
    let d := (match d.freeSpare 1 pair with
      | some _ => d.takeOut 1 pair .spare
      | none => d).emptyPair pair
    d.record 0x0901 sevWarning pair (le 1 pair ++ le 1 (Config.openCode 0x0901 0))
  else ((d.takeOut 1 pair .fenced).emptyPair pair).record 0x0901 sevError pair (le 1 pair ++ le 1 (Config.openCode 0x0901 (if slicePass then 2 else 1)))

/-- CIPHER_SECTOR_DONE for a sector of a Read or Verify (R312, R313, R316, R330). -/
def Die.cipherDone (d : Die) (jn pair : Nat) (o : LaneOutcome) (slicePass : Bool) : Die :=
  match o with
  | .disagree => d.pairMismatch pair slicePass
  | _ =>
    match d.job jn with
    | none => (d.endJob jn).staleReport
    | some j =>
      if j.stage = .cipher then
        let good := o == .agreeTagOk && d.tagVerifies j.ns j.sec && d.selfOk j.ns j.sect j.sec
        if good then d.jobDone jn j none
        else if j.trig = 0 ∧ (d.slotRu j.loc.key).isSome = true ∧ d.slotTray j.loc.key = false then d.startRecon jn j 3
        else (d.tagFailed j (o == .agreeTagOk)).jobDone jn j (some true)
      else d

/-- READ (R22, R24, R156). -/
def execRead (tag : Nat) (s : State) : Host.Outcome State Fault Refusal := s.run (·.startRead tag 0x02)
/-- VERIFY (R22, R120). -/
def execVerify (tag : Nat) (s : State) : Host.Outcome State Fault Refusal := s.run (·.startRead tag 0x0C)
/-- DECODE_DONE (R242). -/
def execDecodeDone (job : Nat) (outcome : DecodeOutcome) (s : State) : Host.Outcome State Fault Refusal := s.run (·.decodeDone job outcome)
/-- CIPHER_SECTOR_DONE (R312). -/
def execCipherSectorDone (job pair : Nat) (outcome : LaneOutcome) (slicePass : Bool) (s : State) : Host.Outcome State Fault Refusal :=
  s.run (·.cipherDone job pair outcome slicePass)

end Sys2Proof.Machine
end

