-- ==== Sys2Proof/Machine/Write.lean ====
section
/-! DEFINITION. The write paths (R20, R21, R24 to R26, R88 to R98, R136 to R138, R162, R179): data pulled and encrypted, heels
and full loaves of zones, staging and range locks of conventional writes, draining, Write Zeroes, Deallocate, Flush. -/

namespace Sys2Proof.Machine

/-! ## Acknowledgement (R20, R434) -/

/-- The sectors that a command has written: the range of a write, or those that Write Zeroes or Deallocate staged again because they
are named only in part. -/
def Die.writeSectors (d : Die) (x : Tag) (e : SqEntry) : List Nat :=
  if e.opc = 0x01 ∨ e.opc = 0x7D then (d.ns e.ns).sectorsOf x.wlba e.nlb else x.staged.map (fun s => s.1)

/-- R20: whether every sector of a write is where its completion needs it: protected, or programmed under write-through. A
sector that a later write has replaced asks for nothing. -/
def Die.sectorsReady (d : Die) (x : Tag) (e : SqEntry) : Bool :=
  let n := d.ns e.ns
  (d.writeSectors x e).all (fun s => match n.locate s with
    | .media l _ => if d.writeThrough then d.slotPassed l.key else d.slotLoaded l.key
    | .proof a => !d.writeThrough || (!n.isZoned && !x.staged.any (fun y => y.2 == a))
    | _ => true)

/-- The loaf slot that a sector lies in or is on its way to. -/
def Ns.slotOf (n : Ns) (s : Nat) : Option Loc :=
  match n.locate s with
  | .media l _ => some l
  | .proof _ => if (n.crumb s).st == .staged && (n.crumb s).loc != {} then some (n.crumb s).loc else none
  | _ => none

/-- A partly loaded PU of an open row whose other slots nothing was assigned to: filled with filler and queued for its program
(log entry 132). -/
def Die.fillPu (d : Die) (r row pos : Nat) : Die :=
  let u := d.ru r
  let ps := u.slotPos row
  let key := fun (s : Nat) => (row * 64 + pos) * 4 + s
  let free := (List.range 3).filter (fun s => !u.loaded.contains (key s))
  if u.st == .opened && u.row == row && u.arow == row && ps.contains pos && !free.isEmpty && decide (free.length < 3)
      && free.all (fun s => decide (u.slots ≤ s * ps.length + ps.idxOf pos)) then
    let free := free.filter (fun s => !u.fills.contains (key s))
    let d := d.updRu r (fun u => { u with fills := free.map key ++ u.fills })
    let d := free.foldl (fun (x : Die) s => x.queueFill r row pos s) d
    let v := d.ru r
    if (v.openIdx v.slots).isNone then d.updRu r (fun w => { w with arow := w.arow + 1, slots := 0 }) else d
  else d

/-- A write that waits for programming under write-through: the heel it left in the proofing area is settled (R434), and the PUs it
waits for are filled up where its own loaf is loaded and no other comes (R20). -/
def Die.fillFor (d : Die) (x : Tag) (e : SqEntry) : Die :=
  let n := d.ns e.ns
  let d := if n.isZoned && (d.writeSectors x e).any (fun s => match n.locate s with | .proof _ => true | _ => false)
    then d.settleHeel e.ns (n.zoneOf e.slba) else d
  ((d.writeSectors x e).filterMap (d.ns e.ns).slotOf).eraseDups.foldl (fun (y : Die) l => match y.slotRu l.key with
    | some (r, row, p, s) => if (y.ru r).loaded.contains ((row * 64 + p) * 4 + s) then y.fillPu r row p else y
    | none => y) d

/-- Segments that a buffer's record groups fill. -/
def segmentsFor : Nat → List JRec → Nat
  | 0, _ => 0
  | _, [] => 0
  | n + 1, l => 1 + segmentsFor n (l.drop (segmentRecs l).length)

/-- The segment number before which the journal holds every record made so far, plus 1. -/
def Die.journalMark (d : Die) : Nat := d.te.seg + segmentsFor d.te.buf.length d.te.buf + 1

/-- Whether every record before a mark is durable (R166). -/
def Die.durableTo (d : Die) (mark : Nat) : Bool := decide (mark ≤ d.te.seg + 1) && d.te.writing.all (fun w => decide (mark ≤ w.1 + 1))

/-- One committed command looked at again: it ends once R20 and, under write-through, R434 let it; its trays and its range-lock entries
are given back. -/
def Die.tryComplete (d : Die) (t : Nat) : Die :=
  let x := d.tag t
  match x.entry with
  | none => d
  | some e =>
    if x.st = .committed ∧ d.qe.hold = false then
      if !d.sectorsReady x e then (if d.writeThrough then d.fillFor x e else d)
      else if d.writeThrough then
        let d := if x.waitDurable = 0 then d.updTag t (fun y => { y with waitDurable := d.journalMark }) else d
        if d.durableTo (d.tag t).waitDurable then ((d.dropTrays t).unlock t |>.reportBit t 3).finish t stOk else d
      else ((d.dropTrays t).unlock t).finish t stOk
    else d

/-- Every committed command looked at again. -/
def Die.progress (d : Die) : Die :=
  (d.qe.tags.filter (fun e => e.2.st == .committed)).foldl (fun y e => y.tryComplete e.1) d

/-! ## Admission to the pull (R21, R85, R182) -/

/-- Raw bytes of the die's good blocks, and the crumb pool limit (R159). -/
def Die.rawBytes (d : Die) : Nat :=
  sumBy (fun g => sumBy d.goodBlocks (d.members g) * d.pusPerBlock g * 192 * 1024) (List.range 8)
def Die.crumbLimit (d : Die) : Nat := min (2 ^ 32) (d.rawBytes / 1048576)

/-- Crumbs whose entries lie in a bucket, which has four (R159). -/
def Die.bucketLoad (d : Die) (b : Nat) : Nat :=
  sumBy (fun e => (e.2.crumbs.filter (fun c => c.2.st != .free && c.2.bucketOf e.1 c.1 == b)).length) d.nss

/-- The bucket of a new crumb, the second one or not: the first of its two with a free entry (R159; log entry 195). -/
def Die.bucketFor (d : Die) (nsid x : Nat) : Option Bool :=
  let room := fun (i : Nat) => decide (d.crumbCount < 4) || decide (d.bucketLoad (Config.crumbBucket i (nsid - 1) x) < 4)
  if room 0 then some false else if room 1 then some true else none

/-- The buckets of crumbs made one after another; a sector that has a crumb keeps its entry. -/
def Die.placeCrumbs (d : Die) (nsid : Nat) : List Nat → Option (List (Nat × Bool))
  | [] => some []
  | x :: r =>
    let old := (d.ns nsid).crumb x
    match (if old.st != .free then some old.second else d.bucketFor nsid x) with
    | none => none
    | some b => ((d.updNs nsid (fun n => { n with crumbs := Tbl.set n.crumbs x { st := .staged, second := b } })).placeCrumbs nsid r).map (fun l => (x, b) :: l)

/-- The sectors of a list that cover their loaf only in part. -/
def partLoaves (xs : List Nat) : List Nat := xs.filter (fun x => decide ((xs.filter (fun y => y / 16 == x / 16)).length < 16))

/-- Whether no crumb can be made of the sectors of a write that cover a loaf in part: the pool is at its limit, or both buckets of one are
full (R159, R162; log entry 195). -/
def Die.noCrumbs (d : Die) (nsid : Nat) (xs : List Nat) : Bool :=
  decide (d.crumbLimit ≤ d.crumbCount) || (d.placeCrumbs nsid (partLoaves xs)).isNone

/-- What a conventional write that merges into whole loaves stages beside its own sectors, bytes (R21, R162). crumbs: no crumb can be
made. -/
def mergeAdded (n : Ns) (e : SqEntry) (crumbs : Bool) : Nat :=
  let xs := n.sectorsOf e.slba e.nlb
  let more := fun (l : Nat) =>
    let mine := (xs.filter (fun x => x / 16 == l)).length
    if decide (mine < 16) && ((n.entry l).typ != .unmapped || (n.entry l).crb) && (e.hot == 1 || crumbs) then 16 - mine else 0
  4096 * sumBy more (xs.map (fun x => x / 16)).eraseDups

/-- Unsettled content that a write would add, bytes (R21): all of a conventional write with what a merge into a whole loaf stages
beside it (R162), the new heel of a zoned one. crumbs: no crumb can be made. -/
def heelAdded (n : Ns) (e : SqEntry) (off : Nat) (crumbs : Bool) : Nat :=
  if n.isZoned then
    let stop := off + e.nlb
    if stop % 16 = 0 then 0 else 4096 * (if stop / 16 = off / 16 then e.nlb else stop % 16)
  else 4096 * (n.sectorsTouched e.slba e.nlb) + mergeAdded n e crumbs

/-- Unsettled content that the writes under way will add (R21): the data of those being pulled, and of those staged what their merges
will stage beside it. -/
def Die.pulling (d : Die) : Nat :=
  sumBy (fun u => match u.2.entry with
    | some e =>
      let full := d.noCrumbs e.ns ((d.ns e.ns).sectorsOf e.slba e.nlb)
      if u.2.forwarded then 0
      else if u.2.st == .pull then heelAdded (d.ns e.ns) e (u.2.wlba % (d.ns e.ns).zoneLbas) full
      else if u.2.st == .staged then mergeAdded (d.ns e.ns) e full
      else 0
    | none => 0) d.qe.tags

/-- Whether a number of bytes more would raise unsettled content above the rescue limit, or writes are held already (R21). -/
def Die.rescueHolds (d : Die) (add : Nat) : Bool :=
  !d.writeThrough && decide (0 < add) && (d.qe.writeHold || decide (d.rescueLimit < d.unsettled + d.pulling + add))

/-- The trays of a write: a data tray for each loaf piece and one for its metadata fields (R359). -/
def Die.writeTrays (d : Die) (x : Tag) (e : SqEntry) : List Nat :=
  let n := d.ns e.ns
  let xs := n.sectorsOf x.wlba e.nlb
  (xs.map (fun s => s / 16)).eraseDups.map (fun l => 4096 * (xs.filter (fun s => s / 16 == l)).length) ++ [64 * xs.length]

/-- The status that a READ_ONLY change gives a write that is not COMMITTED (R182). -/
def Die.roNow (d : Die) (e : SqEntry) : Option Status :=
  let n := d.ns e.ns
  if n.isZoned then
    match (n.zone (n.zoneOf e.slba)).group with
    | some g => if (d.group g).ro.isSome then some (d.group g).roStatus else none
    | none => none
  else match fdpGroup e with
    | some g => if (d.group g).ro.isSome then some (d.group g).roStatus else none
    | none => if (d.convGroups n false).isEmpty then
        match (List.range 8).find? (fun g => n.rgset.getLsbD g && (d.group g).ro.isSome) with
        | some g => some (d.group g).roStatus
        | none => none
      else none

/-- WRITE and ZONE_APPEND (R24, R25, R85): the pull of the data into trays begins, unless the rescue limit holds the write (R21) or it
finds no trays (R362): it stays in ADMITTED. The limit holds none that runs in write-through (R518; log entry 133). A link in L1 wakes
for the pull (R45), and a malformed data pointer ends the command (R121 step 10). -/
def Die.startWrite (d : Die) (t opc : Nat) : Die :=
  let x := d.tag t
  match x.entry with
  | none => d
  | some e =>
    if x.st = .admitted ∧ x.ioOpc = opc ∧ x.gated = false ∧ x.forwarded = false ∧ d.qe.hold = false then
      match d.roNow e with
      | some st => d.failTag t st
      | none =>
        let n := d.ns e.ns
        let add := heelAdded n e (x.wlba % n.zoneLbas) (d.noCrumbs e.ns (n.sectorsOf e.slba e.nlb))
        if d.rescueHolds add then { d with qe := { d.qe with writeHold := true } }
        else match d.pointerBad x e (e.nlb * n.lbaBytes) with
          | some st => d.failTag t st
          | none => match d.takeTrays 1 x.fn 5 (some (t, x.gen)) (d.writeTrays x e) with
            | none => d
            | some (d, ts) => d.hostWake.updTag t (fun y => { y with st := .pull, trays := ts })
    else d

/-- HELD_WRITES_RELEASE (R21). -/
def Die.releaseHeld (d : Die) : Die :=
  if d.unsettled + Config.limitUnit ≤ d.rescueLimit then { d with qe := { d.qe with writeHold := false } } else d

/-! ## Encryption -/

/-- Whether a slot has counters durably reserved for a number of sectors (R325). -/
def Die.countersLeft (d : Die) (k n : Nat) : Bool := decide ((d.slot k).next + n ≤ (d.slot k).durable * Config.block20)

/-- The next block's reservation requested where it is not (R325). -/
def Die.askCounters (d : Die) (k : Nat) : Die :=
  let s := d.slot k
  if s.asking then d else (d.updSlot k (fun s => { s with asking := true })).journal (.nonce k s.durable)

/-- Sectors of a write encrypted one after another under the WRITE slot (R316). -/
def Die.encryptAll (d : Die) (nsid k : Nat) (wgen : BitVec 8) : List (Nat × SectorData × BitVec 128) → Die × List (Nat × Sector)
  | [] => (d, [])
  | p :: r =>
    let y := d.encryptSector nsid p.1 k p.2.1 p.2.2 wgen
    let q := (d.takeCounter k).encryptAll nsid k wgen r
    (q.1, (p.1, y) :: q.2)

/-! ## Zoned writes (R24, R136, R137) -/

/-- The sectors of a loaf on their way: those stored and not replaced, the poisoned ones among them, and the new ones. -/
def Die.loafSectors (d : Die) (n : Ns) (l : Nat) (new : List (Nat × Sector)) : List (Nat × Sector) :=
  (List.range 16).filterMap (fun i =>
    match new.find? (fun s => s.1 == l * 16 + i) with
    | some s => some (i, s.2)
    | none => match n.placeOf (l * 16 + i) with
      | .media loc j => some (i, d.mediaGet (secKey loc.key j))
      | .proof a => some (i, d.proofGet a)
      | _ => none)

/-- The proofing space of a loaf's heel given back (R24). -/
def Die.freeHeel (d : Die) (nsid z l : Nat) : Die :=
  let n := d.ns nsid
  let e := n.entry l
  let zn := n.zone z
  let d := (List.range 16).foldl (fun y i =>
    (if e.typ == .heel then y.proofDel (e.prot + sectorUnits * i) else y).proofDel
      (if zn.heelMask != 0 then zn.heelProt + sectorUnits * i else e.prot + sectorUnits * i)) d
  d.updZone nsid z (fun y => { y with heelMask := 0, heelProt := 0, settled := false })

/-- New sectors joined to a zone's loaf: shipped when the loaf is full, else kept as the heel. -/
def Die.joinLoaf (d : Die) (nsid z l g ruh tenant cls : Nat) (new : List (Nat × Sector)) : Option Die :=
  let whole := decide ((d.loafSectors (d.ns nsid) l new).length = 16)
  let d := d.lookUp nsid true {} (l * 16)
  let d := if whole then d.readPlaces 3 ((List.range 16).map (fun i => (d.ns nsid).placeOf (l * 16 + i))) else d
  let n := d.ns nsid
  let e := n.entry l
  let secs := d.loafSectors n l new
  if whole then
    match d.ship g ruh .host tenant cls secs with
    | none => none
    | some (loc, d) =>
      let d := if e.typ != .unmapped then d.freeHeel nsid z l else d
      let d := { d with rc := { d.rc with owner := Tbl.set d.rc.owner loc.key (nsid, l) } }
      some (d.updNs nsid (fun n => { n with map := Tbl.set n.map l { typ := .inflight, loc := loc, vmask := 0xFFFF, poison := e.poison } }))
  else
    let mine := new.filter (fun s => s.1 / 16 == l)
    let mask := mine.foldl (fun a s => a ||| bit16 (s.1 % 16)) (0 : BitVec 16)
    let zn := n.zone z
    let old := e.typ == .part || e.typ == .inflight || e.typ == .loaf
    let fresh := if old then zn.heelMask == 0 else e.typ != .heel
    let a := if fresh then d.proofAlloc else (if old then zn.heelProt else e.prot, d)
    let d := mine.foldl (fun y s => y.proofPut (a.1 + sectorUnits * (s.1 % 16)) s.2) a.2
    let d := d.updZone nsid z (fun y => { y with heelAt := if fresh then d.now else y.heelAt, heelRuh := ruh })
    if old then some (d.updZone nsid z (fun y => { y with heelMask := y.heelMask ||| mask, heelProt := a.1 }))
    else some (d.updNs nsid (fun n => { n with map := Tbl.set n.map l { typ := .heel, prot := a.1, vmask := e.vmask ||| mask, poison := e.poison } }))

/-- The loaves of a write one after another. -/
def Die.joinLoaves (d : Die) (nsid z g ruh tenant cls : Nat) (new : List (Nat × Sector)) : List Nat → Option Die
  | [] => some d
  | l :: r => match d.joinLoaf nsid z l g ruh tenant cls new with
    | none => none
    | some d => d.joinLoaves nsid z g ruh tenant cls new r

/-- The plaintext of each sector of a write of whole sectors. -/
def pairData (first : Nat) (data : List SectorData) (hm : List (BitVec 128)) (cnt : Nat) : List (Nat × SectorData × BitVec 128) :=
  (List.range cnt).map (fun i => (first + i, data.getD i 0, hm.getD i 0))

/-- WRITE_DATA_PULLED for a zoned write or append: the part loaf that it completes is read back (R137), the data encrypted, joined to the heel at the write pointer, the write pointer
moved, the command COMMITTED (R24, R85, R88, R132). -/
def Die.pulledZoned (d : Die) (t : Nat) (x : Tag) (e : SqEntry) (data : List SectorData) (hm : List (BitVec 128)) (unread : Decodes) : Die :=
  let n := d.ns e.ns
  let z := n.zoneOf e.slba
  let zn := n.zone z
  let behind := (d.pendingZone e.ns z).any (fun u => decide (u.2.order < x.order) && match u.2.entry with
    | some y => e.opc == 0x01 || y.opc == 0x01
    | none => false)
  match d.roNow e, d.writeSlot n.owner with
  | some st, _ => d.failTag t st
  | _, none => d
  | none, some k =>
    if behind then d
    else if !d.countersLeft k e.nlb then d.askCounters k
    else
      let lba := z * n.zoneLbas + zn.wp
      let full := decide (16 ≤ lba % 16 + e.nlb)
      let d := if full then d.readAll unread e.ns ((List.range (lba % 16)).map (fun i => lba / 16 * 16 + i)) else d
      let q := d.encryptAll e.ns k n.wgen (pairData lba data hm e.nlb)
      let loaves := List.range' (lba / 16) ((lba + e.nlb - 1) / 16 - lba / 16 + 1)
      match q.1.joinLoaves e.ns z (zn.group.getD 0) (n.ruhFor e) x.stamp.tenant x.stamp.cls q.2 loaves with
      | none => d
      | some d =>
        let wp := zn.wp + e.nlb
        let d := d.updNs e.ns (fun n => { n with wgen := n.wgen + 1 })
        let d := d.updZone e.ns z (fun y => { y with
          wp := wp, written := d.now
          st := if wp = n.zoneLbas then .zsf else if y.st == .zse || y.st == .zsc then .zsio else y.st })
        let d := d.updTag t (fun y => { y with
          st := .committed, wlba := lba
          dw0 := if e.opc = 0x7D then BitVec.ofNat 32 lba else y.dw0
          dw1 := if e.opc = 0x7D then BitVec.ofNat 32 (lba / 2 ^ 32) else y.dw1 })
        let d := d.recomputeNext e.ns z
        let d := if d.writeThrough then d.settleHeel e.ns z else d
        (d.checkFull (zn.group.getD 0)).tryComplete t

/-! ## Conventional and forerunner writes (R25, R90, R96, R162) -/

/-- The lock range of a command (R90): every whole atomic unit that a forerunner write touches, exactly its own LBAs of any other. -/
def Ns.lockRange (n : Ns) (write : Bool) (slba nlb : Nat) : Nat × Nat :=
  if n.isForerunner && write then
    let u := n.unitLbas
    (slba / u * u, ((slba + nlb - 1) / u + 1) * u - slba / u * u)
  else (slba, nlb)

/-- Whether two ranges meet. -/
def meets (a b : Nat × Nat) : Bool := decide (a.1 < b.1 + b.2) && decide (b.1 < a.1 + a.2)

/-- What a command in flight asks to lock, or will ask for when its data or its list of ranges is here (R90, R91): none where it locks
nothing. The ranges of a Dataset Management command are not known before its list has been read: until then it counts as its whole
namespace (DESIGN CHOICE, log entry 150). -/
def Die.lockWant (d : Die) (u : Tag) : List (Nat × Nat) :=
  match u.entry with
  | some y =>
    let n := d.ns y.ns
    if u.sq = 0 ∨ u.forwarded = true ∨ n.isZoned = true ∨ u.st == .free || u.st == .posting || u.st == .committed then []
    else if !u.ranges.isEmpty then u.ranges
    else if y.opc = 0x01 then [n.lockRange true y.slba y.nlb]
    else if y.opc = 0x08 then [(y.slba, y.nlb)]
    else if y.opc = 0x09 then [(0, n.nsze)]
    else []
  | none => []

/-- Whether a request meets an earlier one, or an entry that another command holds (R91). -/
def Die.lockAhead (d : Die) (nsid order : Nat) (rs : List (Nat × Nat)) : Bool :=
  d.qe.tags.any (fun u => decide (u.2.order < order) && u.2.nsid == nsid && (d.lockWant u.2).any (fun a => rs.any (meets a)))
    || d.qe.locks.any (fun l => l.ns == nsid && rs.any (meets (l.first, l.count)))

/-- What a merge of part of a 4,096-byte sector finds (R96). -/
inductive OldSector where
  | ok (p : SectorData × BitVec 128)
  | unreadable
  | badTag

/-- The old content of a sector for a merge: zeros where nothing is stored (R96, R317). -/
def Die.oldSector (d : Die) (nsid x : Nat) : OldSector :=
  match (d.ns nsid).locate x with
  | .zeros => .ok (0, 0)
  | .poisoned => .unreadable
  | p =>
    let s := d.sectorAt p
    if d.tagVerifies nsid s && d.selfOk nsid x s then .ok (d.decryptSector nsid s) else .badTag

/-- One LBA of a 4,096-byte sector replaced. -/
def putLba (n : Ns) (l : Nat) (v : SectorData × BitVec 128) (p : SectorData × BitVec 128) : SectorData × BitVec 128 :=
  if n.lbasPerSector = 1 then v
  else
    let i := l % 8
    let dm : SectorData := (BitVec.allOnes 4096).zeroExtend 32768 <<< (i * 4096)
    let hm : BitVec 128 := (0xFFFF#16).zeroExtend 128 <<< (i * 16)
    ((p.1 &&& ~~~ dm) ||| ((v.1 <<< (i * 4096)) &&& dm), (p.2 &&& ~~~ hm) ||| ((v.2 <<< (i * 16)) &&& hm))

/-- The plaintext of each sector of a conventional write: merged with the old content where only part of it is written
(R96), or the status with which the merge fails; where two sectors fail in different ways, that of the later one (DESIGN CHOICE, log entry
191). -/
def Die.mergeAll (d : Die) (n : Ns) (e : SqEntry) (data : List SectorData) (hm : List (BitVec 128)) :
    List Nat → Except Status (List (Nat × SectorData × BitVec 128))
  | [] => .ok []
  | x :: r =>
    match d.mergeAll n e data hm r with
    | .error st => .error st
    | .ok rest =>
      let ls := lbasIn n e x
      let old := if ls.length = n.lbasPerSector then OldSector.ok (0, 0) else d.oldSector e.ns x
      match old with
      | .unreadable => .error stUnrecovered
      | .badTag => .error stIntegrity
      | .ok p => .ok ((x, ls.foldl (fun q l => putLba n l (data.getD (l - e.slba) 0, hm.getD (l - e.slba) 0) q) p) :: rest)

/-- Sectors staged in the proofing area, each loaf's at its own base (R25). -/
def Die.stageAll (d : Die) (secs : List (Nat × Sector)) : Die × List (Nat × Nat) :=
  let loaves := (secs.map (fun s => s.1 / 16)).eraseDups
  loaves.foldl (fun acc l =>
    let a := acc.1.proofAlloc
    let mine := secs.filter (fun s => s.1 / 16 == l)
    (mine.foldl (fun y s => y.proofPut (a.1 + sectorUnits * (s.1 % 16)) s.2) a.2,
     acc.2 ++ mine.map (fun s => (s.1, a.1 + sectorUnits * (s.1 % 16))))) (d, [])

/-- WRITE_DATA_PULLED for a conventional or forerunner write: encrypted and staged, the lock requested (R25, R85, R90). A write of part of
a sector that meets an earlier request waits here, in PULL, since its merge needs what that one leaves; the rules name STAGED as the
place of the wait (DESIGN CHOICE, log entry 192). -/
def Die.pulledConv (d : Die) (t : Nat) (x : Tag) (e : SqEntry) (data : List SectorData) (hm : List (BitVec 128)) (unread : Decodes) : Die :=
  let n := d.ns e.ns
  let secs := n.sectorsOf e.slba e.nlb
  let parts := secs.filter (fun s => decide ((lbasIn n e s).length < n.lbasPerSector))
  let part := !parts.isEmpty
  match d.roNow e, d.writeSlot n.owner with
  | some st, _ => d.failTag t st
  | _, none => d
  | none, some k =>
    if part && d.lockAhead e.ns x.order [n.lockRange true e.slba e.nlb] then d
    else if !d.countersLeft k secs.length then d.askCounters k
    else
      let d := d.readAll unread e.ns parts
      match d.mergeAll (d.ns e.ns) e data hm secs with
      | .error st => d.failTag t st
      | .ok plain =>
        let q := d.encryptAll e.ns k n.wgen plain
        let r := q.1.stageAll q.2
        let d := r.1.updNs e.ns (fun n => { n with wgen := n.wgen + 1 })
        (d.updTag t (fun y => { y with st := .staged, staged := r.2, ranges := [n.lockRange true e.slba e.nlb] })).dropTrays t

/-- WRITE_DATA_PULLED (R24, R25); the data of a forwarded write goes on to its worker (R494). -/
def Die.dataPulled (d : Die) (t : Nat) (data : List SectorData) (hm : List (BitVec 128)) (unread : Decodes) : Die :=
  let x := d.tag t
  match x.entry with
  | none => d
  | some e =>
    let hm := if (d.ns e.ns).metaBytes = 0 then [] else hm
    if x.st = .pull ∧ x.forwarded = false ∧ d.qe.hold = false then
      let d := if (d.ns e.ns).isZoned then d.pulledZoned t x e data hm unread else d.pulledConv t x e data hm unread
      if (d.tag t).st = .pull then d else d.countBytes 0 0 (e.nlb * (d.ns e.ns).lbaBytes)
    else if x.st = .admitted ∧ x.forwarded = true ∧ (e.opc = 0x01 ∨ e.opc = 0x7D) ∧ d.qe.hold = false then
      match d.pointerBad x e (e.nlb * (d.ns e.ns).lbaBytes) with
      | some st => d.failTag t st
      | none =>
        let d := d.hostWake
        let q := (d.ns e.ns).home - 2
        let d := data.zipIdx.foldl (fun (y : Die) (p : SectorData × Nat) => y.quayOut q (.wireData q t x.gen (x.wlba + p.2) p.1 (hm.getD p.2 0) false)) d
        (d.updTag t (fun y => { y with st := .pull })).countBytes 0 0 (e.nlb * (d.ns e.ns).lbaBytes)
    else d


/-- The proofing copies that a set of sectors of a loaf leaves behind, given back. -/
def Die.dropProof (d : Die) (nsid : Nat) (xs : List Nat) : Die :=
  let n := d.ns nsid
  xs.foldl (fun y x =>
    let e := n.entry (x / 16)
    let c := n.crumb x
    let y := if (e.typ == .staged || e.typ == .heel) && e.vmask.getLsbD (x % 16) then y.proofDel (e.prot + sectorUnits * (x % 16)) else y
    if c.st == .staged then y.proofDel c.prot else y) d

/-- R162: one loaf's staged sectors mapped: as a new loaf, as crumbs, or, where merge says so, merged into a whole loaf. Its entry is looked
up (R161). A loaf, and a crumb, goes to the handle of its own write (R149). It makes one mapChange record for the
loaf however many of its sectors become crumbs (DESIGN CHOICE, log entry 156). -/
def Die.mapLoaf (d : Die) (nsid l hot : Nat) (merge : Bool) (dst : Nat × Option Nat) (st : List (Nat × Nat)) : Die :=
  let n := d.ns nsid
  let mine := st.filter (fun s => s.1 / 16 == l)
  match mine with
  | [] => d
  | m :: _ =>
    let base := m.2 - sectorUnits * (m.1 % 16)
    let mask := mine.foldl (fun a s => a ||| bit16 (s.1 % 16)) (0 : BitVec 16)
    let e := n.entry l
    let heat := if hot = 3 then 3 else if hot = 1 then 0 else 2
    let d := mine.foldl (fun y s => if (y.ns nsid).isPoisoned s.1
      then (y.updNs nsid (fun n => n.unpoison s.1)).journalWith (.poison nsid s.1) [y.loafWas nsid l] [] else y) d
    let d := d.lookUp nsid true {} (l * 16)
    if mask = 0xFFFF ∨ (e.typ = .unmapped ∧ e.crb = false) then
      let d := d.dropProof nsid ((List.range 16).map (fun i => l * 16 + i))
      d.remap nsid l [] (fun n => { n with
        crumbs := n.crumbs.filter (fun c => c.1 / 16 != l), dest := Tbl.set n.dest l dst
        map := Tbl.set n.map l { typ := .staged, prot := base, vmask := mask, heat := heat, poison := (n.entry l).poison } })
    else if merge = false then
      let at' := (d.placeCrumbs nsid (mine.map (fun s => s.1))).getD []
      let d := d.dropProof nsid (mine.map (fun s => s.1))
      d.remap nsid l [] (fun n => { n with
        crumbs := mine.foldl (fun c s => Tbl.set c s.1 { st := .staged, prot := s.2, wgen := (d.proofGet s.2).md.wgen, dest := dst
                                                         second := at'.contains (s.1, true) }) n.crumbs
        map := Tbl.set n.map l { n.entry l with
          vmask := (n.entry l).vmask &&& ~~~ mask, crb := true, heat := heat } })
    else
      let rest := (List.range 16).filter (fun i => !mask.getLsbD i)
      let old := rest.filterMap (fun i => match n.placeOf (l * 16 + i) with
        | .zeros => if n.isPoisoned (l * 16 + i) && n.isAllocated (l * 16 + i) then some (i, ({} : Sector)) else none
        | p => some (i, d.sectorAt p))
      let d := d.readPlaces 3 (rest.map (fun i => n.placeOf (l * 16 + i)))
      let d := d.dropProof nsid ((List.range 16).map (fun i => l * 16 + i))
      let d := old.foldl (fun y s => y.proofPut (base + sectorUnits * s.1) s.2) d
      let all := old.foldl (fun a s => a ||| bit16 s.1) mask
      let bad := n.crumbs.foldl (fun a c => if c.1 / 16 == l && c.2.poison && !mask.getLsbD (c.1 % 16) then a ||| bit16 (c.1 % 16) else a) (0 : BitVec 16)
      d.remapMark nsid l bad (fun n => { n with
        crumbs := n.crumbs.filter (fun c => c.1 / 16 != l), dest := Tbl.set n.dest l dst
        map := Tbl.set n.map l { typ := .staged, prot := base, vmask := all, heat := heat, poison := (n.entry l).poison } })

/-- Staged sectors mapped loaf by loaf, the records of one atomic unit of a forerunner namespace as one group (R162, R167); one whose
word in the proofing area was lost is poisoned (R342). -/
def Die.mapStaged (d : Die) (nsid hot : Nat) (dst : Nat × Option Nat) (st : List (Nat × Nat)) : Die :=
  let n := d.ns nsid
  let unit := fun (l : Nat) => if n.isForerunner then l * 16 * n.lbasPerSector / n.unitLbas else l
  let ls := (st.map (fun s => s.1 / 16)).eraseDups
  let merge := hot == 1 || d.noCrumbs nsid (st.map (fun s => s.1))
  let e := ((ls.map unit).eraseDups).foldl (fun (y : Die) u => y.grouped (fun y =>
    (ls.filter (fun l => unit l == u)).foldl (fun (y : Die) l => y.mapLoaf nsid l hot merge dst st) y)) d
  st.foldl (fun y s => if (d.proofGet s.2).poison then y.poisonHere nsid s.1 else y) e

/-! ## Write Zeroes and Deallocate (R90, R146, R179) -/

/-- The sectors of a range that are only partly named, and are allocated. -/
def partSectors (n : Ns) (r : Nat × Nat) : List Nat :=
  (n.sectorsOf r.1 r.2).filter (fun x => n.isAllocated x &&
    decide (((List.range' (x * n.lbasPerSector) n.lbasPerSector).filter (fun l => decide (r.1 ≤ l) && decide (l < r.1 + r.2))).length < n.lbasPerSector))

/-- The plaintext of partly zeroed sectors, or the status with which their merge fails. -/
def Die.zeroParts (d : Die) (nsid : Nat) (r : Nat × Nat) : List Nat → Except Status (List (Nat × SectorData × BitVec 128))
  | [] => .ok []
  | x :: rest =>
    match d.zeroParts nsid r rest with
    | .error st => .error st
    | .ok more =>
      let n := d.ns nsid
      match d.oldSector nsid x with
      | .unreadable => .error stUnrecovered
      | .badTag => .error stIntegrity
      | .ok p => .ok ((x, ((List.range' (x * n.lbasPerSector) n.lbasPerSector).filter (fun l => decide (r.1 ≤ l) && decide (l < r.1 + r.2))).foldl
          (fun q l => putLba n l (0, 0) q) p) :: more)

/-- One range zeroed (dst: where what is staged again drains to, R149): whole sectors discarded, partly named ones rewritten with zeros in
place. Its records are one group, so that the zeroed part of an atomic unit appears at once (R147, R167). The answer names the sectors
staged again. -/
def Die.zeroRange (d : Die) (nsid k : Nat) (dst : Nat × Option Nat) (r : Nat × Nat) : Except Status (Die × List (Nat × Nat)) :=
  let n := d.ns nsid
  let ps := partSectors n r
  match d.zeroParts nsid r ps with
  | .error st => .error st
  | .ok plain =>
    let q := d.encryptAll nsid k n.wgen plain
    let s := q.1.stageAll q.2
    let whole := (n.sectorsOf r.1 r.2).filter (fun x =>
      decide (r.1 ≤ x * n.lbasPerSector) && decide (x * n.lbasPerSector + n.lbasPerSector ≤ r.1 + r.2))
    let d := if ps.isEmpty then d else s.1.updNs nsid (fun n => { n with wgen := n.wgen + 1 })
    .ok (d.grouped (fun d =>
      let d := if ps.isEmpty then d else d.mapStaged nsid 0 dst s.2
      let was := ((whole.map (fun x => x / 16)).eraseDups).map (d.loafWas nsid)
      (whole.foldl (fun y x => y.discard nsid x) d).journalWith (.range nsid ((whole.head?).getD 0) whole.length) was []), s.2)

/-- Ranges zeroed in turn. -/
def Die.zeroRanges (d : Die) (nsid k : Nat) (dst : Nat × Option Nat) : List (Nat × Nat) → Except Status (Die × List (Nat × Nat))
  | [] => .ok (d, [])
  | r :: rest => match d.zeroRange nsid k dst r with
    | .error st => .error st
    | .ok q => match q.1.zeroRanges nsid k dst rest with
      | .error st => .error st
      | .ok w => .ok (w.1, q.2 ++ w.2)

/-- WRITE_ZEROES (R90): its lock range stands requested since its admission. -/
def Die.startZeroes (d : Die) (t : Nat) : Die :=
  let x := d.tag t
  match x.entry with
  | none => d
  | some e =>
    if x.st = .admitted ∧ x.ioOpc = 0x08 ∧ x.gated = false ∧ x.forwarded = false ∧ d.qe.hold = false ∧ x.work = 0 then
      d.updTag t (fun y => { y with ranges := [(e.slba, e.nlb)], work := 1 })
    else d

/-- DATASET_MANAGEMENT: the list of its ranges has been read: steps 4 and 5 of R121 (LBA range, then ANA state), then one lock range
for each (R90, R92). -/
def Die.startDsm (d : Die) (t : Nat) (ranges : List (Nat × Nat)) : Die :=
  let x := d.tag t
  match x.entry with
  | none => d
  | some e =>
    if x.st = .admitted ∧ x.ioOpc = 0x09 ∧ x.gated = false ∧ d.qe.hold = false ∧ x.work = 0 then
      match d.pointerBad x e (16 * (bitsOf e.cdw10 0 8 + 1)) with
      | some st => d.failTag t st
      | none =>
      let d := d.hostWake
      let n := d.ns e.ns
      let rs := (ranges.take (bitsOf e.cdw10 0 8 + 1)).filter (fun r => r.2 != 0)
      if rs.any (fun r => decide (n.nsze < r.1 + r.2)) then d.failTag t stLbaRange
      else match d.checkAna n with
        | some st => d.failTag t st
        | none =>
          if x.forwarded then d
          else if rs.isEmpty then d.finish t stOk
          else d.updTag t (fun y => { y with ranges := rs, work := 1 })
    else d

/-- Room in the table for a request, all of whose entries are taken at once (R91, R92). -/
def Die.lockRoom (d : Die) (rs : List (Nat × Nat)) : Bool := decide (d.qe.locks.length + rs.length ≤ Config.lockEntries)

/-- A request granted: its entries stand in the table. -/
def Die.lockTake (d : Die) (t nsid : Nat) (rs : List (Nat × Nat)) : Die :=
  { d with qe := { d.qe with locks := d.qe.locks ++ rs.map (fun r => { tag := t, ns := nsid, first := r.1, count := r.2 }) } }

/-- The ranges of a Write Zeroes or Deallocate zeroed under their locks, and the command COMMITTED. -/
def Die.zeroCommit (d : Die) (t : Nat) (e : SqEntry) (k : Nat) : Die :=
  let x := d.tag t
  match (d.lockTake t e.ns x.ranges).zeroRanges e.ns k ((d.ns e.ns).ruhFor e, none) x.ranges with
  | .error st => d.failTag t st
  | .ok q => (q.1.checkFulls.updTag t (fun y => { y with st := .committed, ranges := [], staged := q.2 })).tryComplete t

/-- The stored sectors that merges into whole loaves read (R162): of each loaf that a write touches in part and maps no crumbs in, those it
does not replace. -/
def Die.mergedOld (d : Die) (nsid hot : Nat) (st : List (Nat × Nat)) : List Nat :=
  let n := d.ns nsid
  ((st.map (fun s => s.1 / 16)).eraseDups).flatMap (fun l =>
    let mine := (st.filter (fun s => s.1 / 16 == l)).map (fun s => s.1)
    if mine.length = 16 ∨ ((n.entry l).typ = .unmapped ∧ (n.entry l).crb = false) ∨ (hot ≠ 1 ∧ d.noCrumbs nsid (st.map (fun s => s.1)) = false) then []
    else ((List.range 16).map (fun i => l * 16 + i)).filter (fun x => !mine.contains x))

/-- RANGE_LOCK_GRANT (R85, R91, R26): the request is granted when the table has room and no earlier one or held entry overlaps it; the
map changes and its record is made, and the command is COMMITTED. It holds its entries until it ends. Sectors that Write Zeroes or
Deallocate stages again are held by the rescue limit like a write's (R21). -/
def Die.lockGrant (d : Die) (t : Nat) (unread : Decodes) : Die :=
  let x := d.tag t
  match x.entry with
  | none => d
  | some e =>
    if !x.ranges.isEmpty && d.lockRoom x.ranges && !d.lockAhead e.ns x.order x.ranges && !d.qe.hold then
      let n := d.ns e.ns
      if x.st = .staged then
        match d.roNow e with
        | some st => d.failTag t st
        | none =>
          let d := d.readAll unread e.ns (d.mergedOld e.ns e.hot x.staged)
          let d := (d.lockTake t e.ns x.ranges).mapStaged e.ns e.hot (n.ruhFor e, fdpGroup e) x.staged
          (d.updTag t (fun y => { y with st := .committed, ranges := [] })).tryComplete t
      else if x.st = .admitted ∧ x.work = 1 then
        let xs := x.ranges.flatMap (partSectors n)
        let parts := xs.length
        let d := d.readAll unread e.ns xs
        match d.writeSlot n.owner with
        | none => if 0 < parts then d.failTag t stKeyLocked else d.zeroCommit t e 0
        | some k =>
          if d.rescueHolds (4096 * parts) then { d with qe := { d.qe with writeHold := true } }
          else if 0 < parts ∧ d.countersLeft k parts = false then d.askCounters k
          else d.zeroCommit t e k
      else d
    else d

/-! ## Draining (R25, R150) -/

/-- The group a namespace's next conventional loaf goes to, with the rotation moved on (R150). Full groups are passed over; where every group
is full, one of them takes what overwrites allocated data (R180). -/
def Die.rotate (d : Die) (nsid : Nat) (dst : Nat × Option Nat) : Option (Nat × Die) :=
  match dst.2 with
  | some g => some (g, d)
  | none => match (d.nextGroup (d.ns nsid) dst.1 true).orElse (fun _ => d.nextGroup (d.ns nsid) dst.1 false) with
    | some g => some (g, d.updNs nsid (fun n => { n with rotation := Tbl.upd 0 n.rotation dst.1 (· + 1) }))
    | none => none

/-- Where what is staged of a loaf drains to (R149, R152): the loaf to the place of the write that made it, else its first waiting crumb to
that of its own. -/
def Ns.drainDest (n : Ns) (l : Nat) : Nat × Option Nat :=
  if (n.entry l).typ == .staged then Tbl.get (n.ruh 0, none) n.dest l
  else match n.crumbs.find? (fun (c : Nat × Crumb) => c.1 / 16 == l && c.2.st == .staged && c.2.loc == {}) with
    | some c => c.2.dest
    | none => Tbl.get (n.ruh 0, none) n.dest l

/-- CONVENTIONAL_DRAIN: a staged loaf, or the staged crumbs of a loaf with others that go the same way, shipped as one
loaf. The entries become INFLIGHT, and the crumbs MEDIA when their PU passes (R25, R157, R165). -/
def Die.drain (d : Die) (nsid l : Nat) : Die :=
  let d := if ((d.ns nsid).entry l).typ == .staged then d.readPlaces 3 ((List.range 16).map (fun i => (d.ns nsid).placeOf (l * 16 + i))) else d
  let n := d.ns nsid
  let e := n.entry l
  let dst := n.drainDest l
  match d.rotate nsid dst with
  | none => d
  | some (g, d') =>
    if e.typ = .staged ∧ e.vmask ≠ 0 then
      let secs := ((List.range 16).filter (fun i => e.vmask.getLsbD i)).map (fun i => (i, d.proofGet (e.prot + sectorUnits * i)))
      match d'.ship g dst.1 .drain n.owner 3 secs with
      | none => d
      | some (loc, d) =>
        let d := secs.foldl (fun y s => y.proofDel (e.prot + sectorUnits * s.1)) d
        let d := { d with rc := { d.rc with owner := Tbl.set d.rc.owner loc.key (nsid, l) } }
        ((d.updNs nsid (fun n => { n with map := Tbl.set n.map l { e with typ := .inflight, loc := loc, prot := 0 } })).checkFull g).progress
    else
      let waiting := fun (c : Nat × Crumb) => c.2.st == .staged && c.2.loc == {} && c.2.dest == dst
      let own := n.crumbs.filter (fun (c : Nat × Crumb) => waiting c && c.1 / 16 == l)
      let others := n.crumbs.filter (fun (c : Nat × Crumb) => waiting c && c.1 / 16 != l)
      let cs := (own ++ others).take 16
      if own.isEmpty then d
      else
        let ix : List ((Nat × Crumb) × Nat) := cs.zip (List.range 16)
        let d' := d'.readPlaces 3 (cs.map (fun (c : Nat × Crumb) => Place.proof c.2.prot))
        match d'.ship g dst.1 .drain n.owner 3 (ix.map (fun (c : (Nat × Crumb) × Nat) => (c.2, d.proofGet c.1.2.prot))) with
        | none => d
        | some (loc, d) =>
          let d := { d with rc := { d.rc with crumbSlots := Tbl.set d.rc.crumbSlots loc.key (cs.map (fun (c : Nat × Crumb) => (nsid, c.1))) } }
          d.updNs nsid (fun n => { n with crumbs := ix.foldl (fun (t : Tbl Crumb) (c : (Nat × Crumb) × Nat) =>
            Tbl.upd {} t c.1.1 (fun y => { y with loc := loc, sslot := loc.slot * 16 + c.2 })) n.crumbs })

/-- Whether a zone's heel is the oldest among those of the zones in some states. -/
def Die.oldestHeel (d : Die) (nsid z : Nat) (states : List ZState) : Bool :=
  d.nss.all (fun e => e.2.zones.all (fun y => !(e.2.hasHeel y.1 && states.contains y.2.st) || decide ((d.zone nsid z).heelAt ≤ y.2.heelAt)))

/-- HEEL_SETTLE: the heel of a zone that has been in ZSC for 1 s; under the pressure of R136 the oldest of those in ZSC; and while the
rescue limit has fallen below unsettled content the oldest of all (R21). -/
def Die.heelSettle (d : Die) (nsid z : Nat) : Die :=
  let zn := d.zone nsid z
  let due := (zn.st == .zsc && decide (zn.closedAt + 1000000 ≤ d.now))
    || (zn.st == .zsc && d.te.press && d.oldestHeel nsid z [.zsc])
    || (d.te.overLimit && (zn.st == .zsc || zn.st == .zsio || zn.st == .zseo) && d.oldestHeel nsid z [.zsc, .zsio, .zseo])
  if due then (d.settleHeel nsid z).progress else d

/-! ## Flush (R97 to R99) -/

/-- FLUSH: it ends once every earlier write-class command of its controller to its namespaces has completed. -/
def Die.flush (d : Die) (t : Nat) : Die :=
  let x := d.tag t
  match x.entry with
  | none => d
  | some e =>
    let waits := d.qe.tags.any (fun u => u.2.st != .free && u.2.fn == x.fn && decide (u.2.order < x.order) && match u.2.entry with
      | some y => u.2.sq != 0 && writeClass.contains y.opc &&
          (if e.ns = nsidAll then (d.ns y.ns).attached.contains x.fn else y.ns == e.ns)
      | none => false)
    if x.st = .admitted ∧ x.ioOpc = 0x00 ∧ x.forwarded = false ∧ waits = false ∧ d.qe.hold = false then d.finish t stOk else d

/-! ## The end of an activation hold (R112, R113) -/

/-- What waited at the end of a stage goes on: sectors that were done, reads whose last sector was, committed writes (R112). -/
def Die.resumeHeld (d : Die) : Die :=
  let d := d.se.jobs.foldl (fun (y : Die) e => match e.2 with
    | some j => (match j.stage with | .ended bad => (match y.job e.1 with | some j => y.jobDone e.1 j bad | none => y) | _ => y)
    | none => y) d
  let d := (d.qe.tags.filter (fun u => (u.2.st == .ret || u.2.st == .media) && u.2.work == 0 && !u.2.forwarded)).foldl (fun (y : Die) u => y.readFinish u.1) d
  d.progress

/-- R112, R113: the hold ends: held fail-fast reads whose deadline passed during it end, the rest goes on. -/
def Die.endHold (d : Die) : Die :=
  let d : Die := { d with
    qe := { d.qe with hold := false }
    funcs := d.funcs.map (fun (e : Nat × Func) => (e.1, e.2.pausedBy (d.now - d.fw.holdAt))) }
  let d := d.qe.tags.foldl (fun y u => match u.2.entry with
    | none => y
    | some e => match ffDeadline u.2 e with
      | none => y
      | some dl => if d.fw.holdAt ≤ dl ∧ dl < d.now ∧ (u.2.st = .bound ∨ u.2.st = .admitted ∨ u.2.st = .media) then y.failTag u.1 stHeldExpired else y) d
  d.resumeHeld

/-! ## FDP (R61, R149, R152) -/

/-- IO_MANAGEMENT_RECEIVE: the status of the namespace's reclaim unit handles: for each placement handle, the handle and
the reclaim unit of each group that is open for it. The layout of the data is the NVMe specification's (log entry 10). -/
def Die.ioReceive (d : Die) (t : Nat) : Die :=
  let x := d.tag t
  match x.entry with
  | none => d
  | some e =>
    if x.st = .admitted ∧ x.ioOpc = 0x12 ∧ x.forwarded = false ∧ d.qe.hold = false then
      match d.pointerBad x e (4 * (e.cdw11.toNat + 1)) with
      | some st => d.failTag t st
      | none =>
      let n := d.ns e.ns
      let data := (List.range n.handles).flatMap (fun h => [h, n.ruh h] ++ (List.range 8).map (fun g =>
        match Tbl.get none (d.group g).openRu (n.ruh h) with | some r => r + 1 | none => 0))
      (d.emit (.logPage x.fn t 0x12 data)).finish t stOk
    else d

/-- IO_MANAGEMENT_SEND: each named placement handle leaves its reclaim unit: the open RU closes its row short, and the handle
takes a new RU at the next write. -/
def Die.ioSend (d : Die) (t : Nat) (pids : List Nat) : Die :=
  let x := d.tag t
  match x.entry with
  | none => d
  | some e =>
    if x.st = .admitted ∧ x.ioOpc = 0x1D ∧ x.forwarded = false ∧ d.qe.hold = false then
      match d.pointerBad x e (2 * (bitsOf e.cdw10 16 16 + 1)) with
      | some st => d.failTag t st
      | none =>
      let d := d.hostWake
      let n := d.ns e.ns
      let ps := pids.take (bitsOf e.cdw10 16 16 + 1)
      if ps.any (fun p => decide (n.handles ≤ p % 8192) || !n.rgset.getLsbD (p / 8192)) then d.failTag t stInvalidField
      else
        let d := ps.foldl (fun y p => match Tbl.get none (y.group (p / 8192)).openRu (n.ruh (p % 8192)) with
          | some r => y.shutRu r
          | none => y) d
        (d.finish t stOk).progress
    else d

/-! ## The meanings -/

/-- HELD_WRITES_RELEASE (R21). -/
def execHeldWritesRelease (s : State) : Host.Outcome State Fault Refusal := s.run (·.releaseHeld)
/-- WRITE (R24, R25). -/
def execWrite (tag : Nat) (s : State) : Host.Outcome State Fault Refusal := s.run (·.startWrite tag 0x01)
/-- ZONE_APPEND (R138). -/
def execZoneAppend (tag : Nat) (s : State) : Host.Outcome State Fault Refusal := s.run (·.startWrite tag 0x7D)
/-- WRITE_ZEROES (R146). -/
def execWriteZeroes (tag : Nat) (s : State) : Host.Outcome State Fault Refusal := s.run (·.startZeroes tag)
/-- DATASET_MANAGEMENT (R92). -/
def execDatasetManagement (tag : Nat) (ranges : List (Nat × Nat)) (s : State) : Host.Outcome State Fault Refusal :=
  s.run (·.startDsm tag ranges)
/-- FLUSH (R97). -/
def execFlush (tag : Nat) (s : State) : Host.Outcome State Fault Refusal := s.run (·.flush tag)
/-- IO_MANAGEMENT_RECEIVE (R61). -/
def execIoManagementReceive (tag : Nat) (s : State) : Host.Outcome State Fault Refusal := s.run (·.ioReceive tag)
/-- IO_MANAGEMENT_SEND (R61). -/
def execIoManagementSend (tag : Nat) (pids : List Nat) (s : State) : Host.Outcome State Fault Refusal := s.run (·.ioSend tag pids)
/-- WRITE_DATA_PULLED (R24, R25, R90). -/
def execWriteDataPulled (tag : Reading Nat) (data : List SectorData) (hmeta : List (BitVec 128)) (s : State) : Host.Outcome State Fault Refusal :=
  s.run (·.dataPulled tag.on data hmeta tag.unread)
/-- RANGE_LOCK_GRANT (R91). -/
def execRangeLockGrant (tag : Reading Nat) (s : State) : Host.Outcome State Fault Refusal := s.run (·.lockGrant tag.on tag.unread)
/-- CONVENTIONAL_DRAIN (R25). -/
def execConventionalDrain (ns loaf : Nat) (s : State) : Host.Outcome State Fault Refusal := s.run (·.drain ns loaf)
/-- HEEL_SETTLE (R136). -/
def execHeelSettle (ns zone : Nat) (s : State) : Host.Outcome State Fault Refusal := s.run (·.heelSettle ns zone)

end Sys2Proof.Machine
end

