-- ==== Sys2Proof/Machine/Zones.lean ====
section
/-! DEFINITION. Zone actions and Report Zones (R132 to R145). An action runs once its zone gate is open; each takes all the
zones it names in one step (log entry 22). -/

namespace Sys2Proof.Machine

/-- R145: a zone's descriptor changed by the owner: the Changed Zone List and the notice on every attached controller. -/
def Die.zoneChanged (d : Die) (nsid z : Nat) : Die :=
  (d.ns nsid).attached.foldl (fun x f =>
    (x.updFn f (fun g => { g with changedZones := if g.changedZones.contains (nsid, z) then g.changedZones else g.changedZones ++ [(nsid, z)] })).notice f 0xEF 0xBF 27) d

/-- Open of one zone (R132): the checks come before any change. -/
def Die.zoneOpen (d : Die) (nsid z : Nat) : Die × Status :=
  match (d.zone nsid z).st with
  | .zsf => (d, stOk)
  | .zsro | .zso => (d, stZoneTransition)
  | .zse | .zsc | .zsio | .zseo =>
    match d.openCheck nsid z false with
    | .error st => (d, st)
    | .ok r => (d.openZone nsid z r .zseo, stOk)

/-- Close of one zone (R132): the heel is kept. A zone in ZSC stays there (DEDUCED, log entry 23). -/
def Die.zoneClose (d : Die) (nsid z : Nat) : Die × Status :=
  match (d.zone nsid z).st with
  | .zse | .zsc | .zsf => (d, stOk)
  | .zsro | .zso => (d, stZoneTransition)
  | .zsio | .zseo => (d.updZone nsid z (fun y => y.close d.now), stOk)

/-- A heel over a part loaf that found no slot: merged with the part loaf, it stays a heel in the proofing area (R137). -/
def Die.liftHeel (d : Die) (nsid z : Nat) : Die :=
  let n := d.ns nsid
  let l := n.wpLoaf z
  let zn := n.zone z
  if zn.heelMask = 0 then d
  else
    let d := d.readPlaces 3 ((List.range 16).map (fun i => n.placeOf (l * 16 + i)))
    let n := d.ns nsid
    let e := n.entry l
    let mask := e.vmask ||| zn.heelMask
    let secs := ((List.range 16).filter (fun i => mask.getLsbD i)).map (fun i => (i, d.sectorAt (n.locate (l * 16 + i))))
    let a := d.proofAlloc
    let d := (List.range 16).foldl (fun x i => x.proofDel (zn.heelProt + sectorUnits * i)) a.2
    let d := secs.foldl (fun x s => x.proofPut (a.1 + sectorUnits * s.1) s.2) d
    d.updNs nsid (fun n => ({ n with map := Tbl.set n.map l { e with typ := .heel, prot := a.1, vmask := mask } } : Ns).updZone z
      (fun y => { y with heelMask := 0, heelProt := 0 }))

/-- Finish of one zone (R132, R136, R140): the heel is drained into the group or its heel reserve, and the write pointer set
to the zone end. -/
def Die.zoneFinish (d : Die) (nsid z : Nat) : Die × Status :=
  match (d.zone nsid z).st with
  | .zsf => (d, stOk)
  | .zsro | .zso => (d, stZoneTransition)
  | .zse | .zsio | .zseo | .zsc =>
    let d := (d.settleHeel nsid z).liftHeel nsid z
    let n := d.ns nsid
    (d.updZone nsid z (fun y => { y with st := .zsf, wp := n.zoneLbas, wpNext := n.zoneLbas, settled := false }), stOk)

/-- A zone with everything it holds released (R139, R179). -/
def Die.zoneRelease (d : Die) (nsid z : Nat) (st : ZState) : Die :=
  (d.releaseZone nsid z).updZone nsid z (fun y =>
    { y with st := st, wp := 0, wpNext := 0, group := none, settled := false, heelMask := 0, heelProt := 0 })

/-- Reset of one zone (R132, R139). -/
def Die.zoneReset (d : Die) (nsid z : Nat) : Die × Status :=
  match (d.zone nsid z).st with
  | .zse => (d, stOk)
  | .zsro | .zso => (d, stZoneTransition)
  | .zsio | .zseo | .zsc | .zsf => (d.zoneRelease nsid z .zse, stOk)

/-- Offline of one zone (R132): only from ZSRO; from any other state it is no transition (DEDUCED, log entry 23). -/
def Die.zoneOffline (d : Die) (nsid z : Nat) : Die × Status :=
  match (d.zone nsid z).st with
  | .zsro => (d.zoneRelease nsid z .zso, stOk)
  | .zse | .zsio | .zseo | .zsc | .zsf | .zso => (d, stZoneTransition)

/-- The action of a zone by its code (R141): 1 Close, 2 Finish, 3 Open, 4 Reset, 5 Offline. -/
def Die.zoneAct (d : Die) (act nsid z : Nat) : Die × Status :=
  match act with
  | 1 => d.zoneClose nsid z
  | 2 => d.zoneFinish nsid z
  | 3 => d.zoneOpen nsid z
  | 4 => d.zoneReset nsid z
  | _ => d.zoneOffline nsid z

/-- The states a Select All acts on (R141). -/
def selectStates : Nat → List ZState
  | 1 => [.zsio, .zseo]
  | 2 => [.zsio, .zseo, .zsc]
  | 3 => [.zsc]
  | 4 => [.zsio, .zseo, .zsc, .zsf]
  | _ => [.zsro]

/-- Zones acted on one after another; Open stops at the first that fails (R141). -/
def Die.zoneActAll (d : Die) (act nsid : Nat) : List Nat → Die × Status
  | [] => (d, stOk)
  | z :: r =>
    let q := d.zoneAct act nsid z
    if q.2 = stOk then q.1.zoneActAll act nsid r else q

/-- The zones of a Select All in ascending order. -/
def Ns.selected (n : Ns) (act : Nat) : List Nat :=
  let zs := (n.zones.filter (fun e => (selectStates act).contains e.2.st)).map (fun e => e.1)
  zs.foldl (fun a z => insertBerth (fun y => n.zoneCount - y) z a) []

/-- A Zone Management Send of one action: it runs in ADMITTED once the zone gate is open (R85, R135). -/
def Die.zoneSend (d : Die) (t act : Nat) : Die :=
  let x := d.tag t
  match x.entry with
  | none => d
  | some e =>
    if x.st = .admitted ∧ x.ioOpc = 0x79 ∧ e.zsa = act ∧ x.gateOpen = true ∧ x.forwarded = false ∧ d.qe.hold = false then
      let n := d.ns e.ns
      let q := d.zoneActAll act e.ns (if e.selectAll then n.selected act else [n.zoneOf e.slba])
      (q.1.checkFulls.finish t q.2).progress
    else d

/-- The state code of a zone descriptor (PRESUMED, Zoned Namespace Command Set; log entry 10). -/
def zoneCode : ZState → Nat
  | .zse => 0x1
  | .zsio => 0x2
  | .zseo => 0x3
  | .zsc => 0x4
  | .zsro => 0xD
  | .zsf => 0xE
  | .zso => 0xF

/-- The states a reporting option selects (R142). -/
def reportStates : Nat → List ZState
  | 0 => [.zse, .zsio, .zseo, .zsc, .zsf, .zsro, .zso]
  | 1 => [.zse]
  | 2 => [.zsio]
  | 3 => [.zseo]
  | 4 => [.zsc]
  | 5 => [.zsf]
  | 6 => [.zsro]
  | _ => [.zso]

/-- One zone descriptor (R142): type, state, attributes, capacity, start LBA, write pointer. -/
def Ns.descriptor (n : Ns) (z : Nat) : List Nat :=
  let y := n.zone z
  let start := z * n.zoneLbas
  let wp := match y.st with
    | .zsf => start + n.zoneLbas
    | .zsro | .zso => 0xFFFFFFFFFFFFFFFF
    | _ => start + y.wp
  [2, zoneCode y.st, 0, n.zoneLbas, start, wp]

/-- REPORT_ZONES: the number of zones and the descriptors that fit in the host's buffer, as of this step (R142). -/
def Die.reportZones (d : Die) (t : Nat) : Die :=
  let x := d.tag t
  match x.entry with
  | none => d
  | some e =>
    if x.st = .admitted ∧ x.ioOpc = 0x7A ∧ x.forwarded = false ∧ d.qe.hold = false then
      match d.pointerBad x e e.zoneBuf with
      | some st => d.failTag t st
      | none =>
      let n := d.ns e.ns
      let first := n.zoneOf e.slba
      let zs := (List.range' first (n.zoneCount - first)).filter (fun z => (reportStates e.zrasf).contains (n.zone z).st)
      let shown := zs.take ((e.zoneBuf - 64) / 64)
      let count := if e.partialReport then shown.length else zs.length
      (d.emit (.logPage x.fn t 0x7A (count :: shown.flatMap n.descriptor))).finish t stOk
    else d

/-- Set Zone Descriptor Extension (R141). -/
def Die.zoneExtension (d : Die) (t : Nat) : Die :=
  let x := d.tag t
  match x.entry with
  | none => d
  | some e =>
    if (x.st = .bound ∨ x.st = .admitted) ∧ x.ioOpc = 0x79 ∧ e.zsa = 0x10 ∧ x.forwarded = false then d.failTag t stInvalidField else d

/-- ZONE_OPEN (R132). -/
def execZoneOpen (tag : Nat) (s : State) : Host.Outcome State Fault Refusal := s.run (·.zoneSend tag 3)
/-- ZONE_CLOSE (R132). -/
def execZoneClose (tag : Nat) (s : State) : Host.Outcome State Fault Refusal := s.run (·.zoneSend tag 1)
/-- ZONE_FINISH (R140). -/
def execZoneFinish (tag : Nat) (s : State) : Host.Outcome State Fault Refusal := s.run (·.zoneSend tag 2)
/-- ZONE_RESET (R139). -/
def execZoneReset (tag : Nat) (s : State) : Host.Outcome State Fault Refusal := s.run (·.zoneSend tag 4)
/-- ZONE_OFFLINE (R132). -/
def execZoneOffline (tag : Nat) (s : State) : Host.Outcome State Fault Refusal := s.run (·.zoneSend tag 5)
/-- SET_ZONE_DESCRIPTOR_EXTENSION (R141). -/
def execSetZoneDescriptorExtension (tag : Nat) (s : State) : Host.Outcome State Fault Refusal := s.run (·.zoneExtension tag)
/-- REPORT_ZONES (R142). -/
def execReportZones (tag : Nat) (s : State) : Host.Outcome State Fault Refusal := s.run (·.reportZones tag)

end Sys2Proof.Machine
end

