-- ==== Sys2Proof/Machine/Namespaces.lean ====
section
/-! DEFINITION. Making, deleting, attaching and formatting namespaces (R123 to R129, R151 to R153, R328): what Namespace
Management, Namespace Attachment, Format NVM and the Kanex namespace commands share. -/

namespace Sys2Proof.Machine

/-! ## Creation (R125, R126, R128, R131) -/

/-- Creation parameters by their offset within bytes 3840 to 3903 (R125). -/
def NsCreateP (c : NsCreate) (off n : Nat) : Nat := leAt c.params off n
/-- A field with its default for zero. -/
def orElse (v dflt : Nat) : Nat := if v = 0 then dflt else v

/-- Open and active zones reserved on a die of the hierarchy (R131): those of the zoned namespaces homed there. -/
def Die.zonesReserved (d : Die) (home : Nat) : Nat × Nat :=
  (sumBy (fun e => if e.2.alive && e.2.isZoned && e.2.home == home then e.2.zopen else 0) d.nss,
   sumBy (fun e => if e.2.alive && e.2.isZoned && e.2.home == home then e.2.zactive else 0) d.nss)

/-- User capacity of a die of the hierarchy by its ANA group: this die's groups, or a worker's summary (R126). -/
def Die.userCapOf (d : Die) (home : Nat) : Nat :=
  if home = d.anaGroup then sumBy (fun e => e.2.userCap) d.rc.groups else (d.qpos (home - 2)).userCap

/-- Capacity allocated on a die of the hierarchy: by this die's map, or as the worker has reported it (log entry 24). -/
def Die.allocOf (d : Die) (home : Nat) : Nat :=
  4096 * sumBy (fun e => if e.2.alive && e.2.home == home then e.2.allocated else 0) d.nss

/-- The home die that Doluz chooses (R128): the Optimized die with the most user capacity not allocated, the lowest group on a
tie. -/
def Die.chooseHome (d : Die) : Nat :=
  let gs := (List.range' 1 17).filter (fun g => d.ana g == .optimized && (g == d.anaGroup || decide (2 ≤ g)))
  (gs.foldl (fun a g => match a with
    | none => some g
    | some b => if d.userCapOf b - d.allocOf b < d.userCapOf g - d.allocOf g then some g else some b) none).getD d.anaGroup

/-- The lowest NSID not in use (R126). -/
def Die.freeNsid (d : Die) : Option Nat :=
  (List.range' 1 (min 16384 (d.nss.length + 1))).find? (fun n => !(d.ns n).alive)

/-- The namespace that creation parameters describe, its defaults filled in (R125, R152). -/
def Die.nsOf (d : Die) (tenant : Nat) (c : NsCreate) : Ns :=
  let p := NsCreateP c
  let frn := p 0 1 % 2 == 1
  let kind : NsKind := if c.csi = 2 then .zoned else if frn then .forerunner else .conventional
  let home := orElse (p 9 1) d.chooseHome
  { alive := true, owner := tenant, kind := kind, lbaf := c.flbas % 16, nsze := c.nsze
    strict := p 0 1 / 2 % 2 == 1, rbwp := p 0 1 / 4 % 2 == 1, zszl := orElse (p 1 1) 30
    zopen := orElse (p 2 2) 64, zactive := orElse (p 4 4) 256, hcount := orElse (p 8 1) 1
    home := home, rgset := BitVec.ofNat 8 (orElse (p 10 1) 0xFF)
    ruhmap := (List.range 16).map (fun i => p (12 + i) 1)
    phndls := if d.mc.fdp && c.csi == 0 then c.phndls else []
    homeDsn := if home = d.anaGroup then Config.dsn else (d.qpos (home - 2)).dsn }

/-- The first field out of its range or used with the wrong kind, by its offset in the NS_CREATE payload (R126, R387): a placement
handle list of a zoned namespace is one (R152). The groups of a worker are those of its summary. -/
def Die.nsBadField (d : Die) (c : NsCreate) : Option Nat :=
  let p := NsCreateP c
  let n := d.nsOf 0 c
  let frn := p 0 1 % 2 == 1
  let zoned := c.csi == 2
  let set := n.rgset
  let named := (List.range 8).any (fun g => set.getLsbD g &&
    (if n.home = d.anaGroup then (d.group g).formed else d.ana n.home != .optimized || (d.qpos (n.home - 2)).formed.getLsbD g))
  if c.csi ≠ 0 ∧ c.csi ≠ 2 then some 0
  else if c.nsze = 0 ∨ c.ncap ≠ c.nsze ∨ (zoned = true ∧ 28 ≤ n.zszl ∧ n.zszl ≤ 33 ∧ c.nsze % n.zoneLbas ≠ 0) then some 8
  else if (frn && zoned) || (n.strict && !frn) || (n.rbwp && !zoned) || p 0 1 / 8 != 0 then some 16
  else if (zoned && (decide (n.zszl < 28) || decide (33 < n.zszl))) || (!zoned && p 1 1 != 0) then some 17
  else if (zoned && decide (16384 < n.zopen)) || (!zoned && p 2 2 != 0) then some 18
  else if (zoned && (decide (65536 < n.zactive) || decide (n.zactive < n.zopen))) || (!zoned && p 4 4 != 0) then some 20
  else if n.phndls.isEmpty && decide (16 < n.hcount) then some 24
  else if 17 < n.home then some 25
  else if named = false then some 26
  else if p 11 1 ≠ 0 then some 27
  else if n.phndls.isEmpty && n.ruhmap.any (fun r => decide (15 < r)) then some 28
  else if !((c.params.drop 28).take 36).all (fun b => b == 0) then some 44
  else if 16 < c.phndls.length ∨ (zoned = true ∧ c.phndls.isEmpty = false) then some 80
  else if n.phndls.any (fun r => decide (15 < r)) then some 82
  else none

/-- R126: why a create is refused: the NVMe status, and the faulty field's offset. What a home die has left is asked only of one
that serves (DESIGN CHOICE, log entry 129). A FLBAS index above 3, whose upper bits are bits 6:5, selects no format and gets Invalid Format
(DESIGN CHOICE, log entry 161); bit 7 is reserved (R13). -/
def Die.nsRefused (d : Die) (tenant : Nat) (c : NsCreate) : Option (Status × Nat) :=
  let n := d.nsOf tenant c
  let f := c.flbas % 16
  let r := d.zonesReserved n.home
  if 128 ≤ c.flbas then some (stInvalidField, 1)
  else if 3 < f ∨ 0 < c.flbas / 16 ∨ (2 ≤ f ∧ n.kind ≠ .forerunner) then some (stInvalidFormat, 1)
  else match d.nsBadField c with
    | some o => some (stInvalidField, o)
    | none =>
      if d.freeNsid.isNone || decide (16384 ≤ (d.nss.filter (fun e => e.2.alive && e.2.home == n.home)).length) then some (stNsIdUnavailable, 0)
      else if d.quota tenant < n.nsze * n.lbaBytes then some (stNsCapacity, 0)
      else match d.ana n.home with
        | .change | .inaccessible => some (stAnaInaccessible, 0)
        | .optimized =>
          if d.userCapOf n.home < n.nsze * n.lbaBytes then some (stNsCapacity, 0)
          else if n.isZoned = true ∧ (Config.openLimit < r.1 + n.zopen ∨ Config.activeLimit < r.2 + n.zactive) then some (stNsCapacity, 0)
          else none

/-- The creation parameters of a namespace with the values in force (R125). -/
def Ns.toCreate (n : Ns) : NsCreate :=
  { csi := if n.isZoned then 2 else 0, flbas := n.lbaf, nsze := n.nsze, ncap := n.nsze, phndls := n.phndls
    params := le 1 (bit n.isForerunner + 2 * bit n.strict + 4 * bit n.rbwp) ++ le 1 n.zszl ++ le 2 n.zopen ++ le 4 n.zactive ++ le 1 n.hcount ++ le 1 n.home
      ++ le 1 n.rgset.toNat ++ le 1 0 ++ n.ruhmap.flatMap (fun r => le 1 r) }

/-- A message about a namespace to the worker that is its home (R128, R153, R494). -/
def Die.toHome (d : Die) (home : Nat) (m : QuayMgmtMsg) : Die :=
  if d.life.manager ∧ 2 ≤ home ∧ home ≠ d.anaGroup then d.quayMgmtSend (home - 2) m else d

/-- A namespace created (R126): its NSID; the salt is drawn (R318) and is a free value. A home die that is a worker gets it (R128). -/
def Die.nsMake (d : Die) (tenant : Nat) (c : NsCreate) : Nat × Die :=
  let nsid := d.freeNsid.getD 1
  let n := { d.nsOf tenant c with salt := BitVec.ofNat 256 d.freeVal, saltOn := d.mirrors }
  let n := { n with homeDsn := if n.home = d.anaGroup then Config.dsn else (d.qpos (n.home - 2)).dsn }
  (nsid, ({ d.drawn with nss := Tbl.set d.nss nsid n } : Die).toHome n.home (.nsMake nsid tenant n.toCreate n.salt n.homeDsn))

/-- A namespace that a worker gets from its manager, with the DSN recorded for it (R128, R498, R502); one that it holds stays as it is. -/
def Die.nsTaken (d : Die) (nsid owner : Nat) (c : NsCreate) (salt : BitVec 256) (homeDsn : BitVec 64) : Die :=
  if (d.ns nsid).alive then d
  else { d with nss := Tbl.set d.nss nsid { d.nsOf owner c with phndls := c.phndls, salt := salt, saltOn := d.mirrors, home := d.anaGroup, homeDsn := homeDsn } }

/-! ## Deletion (R153), attachment (R124) -/

/-- Whether a command in flight to a namespace, from any function or from one, has not reached POSTING. -/
def Die.nsInFlight (d : Die) (nsid : Nat) (fn : Option Nat) : Bool :=
  d.qe.tags.any (fun u => u.2.live && (match fn with | some f => u.2.fn == f | none => true) && match u.2.entry with
    | some e => e.ns == nsid && (u.2.sq != 0 || e.opc == 0x80)
    | none => false)

/-- Everything a namespace holds released and the namespace gone, on the worker that is its home too; its controllers are told (R153,
R305). -/
def Die.nsRemove (d : Die) (nsid : Nat) : Die :=
  let at' := (d.ns nsid).attached
  let d := (d.releaseNs nsid).toHome (d.ns nsid).home (.nsRemove nsid)
  let d := { d with nss := Tbl.set d.nss nsid {} }
  let d := at'.foldl (fun x f => x.nsChanged f nsid) d
  (List.range 8).foldl (fun x g => x.checkGroup g false) d

def Die.attach (d : Die) (nsid fn : Nat) : Die :=
  (d.updNs nsid (fun n => { n with attached := n.attached ++ [fn] })).nsChanged fn nsid
def Die.detach (d : Die) (nsid fn : Nat) : Die :=
  (d.updNs nsid (fun n => { n with attached := n.attached.filter (fun f => f != fn) })).nsChanged fn nsid

/-! ## Format (R153, R328) -/

/-- Size in LBAs of a namespace under another format, where its size in bytes allows it (R153). -/
def Ns.sizeUnder (n : Ns) (f : Nat) : Option Nat :=
  let small := decide (2 ≤ n.lbaf)
  if small = decide (2 ≤ f) then some n.nsze
  else if small then (if n.nsze % 8 = 0 then some (n.nsze / 8) else none)
  else some (n.nsze * 8)

/-- Whether a format is allowed for a namespace's kind (R127). -/
def Ns.formatOk (n : Ns) (f : Nat) : Bool := decide (f ≤ 3) && (decide (f < 2) || n.isForerunner)

/-- R153: all data discarded, zones to ZSE, the format changed, on the worker that is its home too; a crypto-erase draws a new salt
(R328). Controllers are told of another format (log entry 139). -/
def Die.nsFormat (d : Die) (nsid f size : Nat) (crypto : Bool) : Die :=
  let old := d.ns nsid
  let d := d.releaseNs nsid
  let d := d.updNs nsid (fun n => { n with lbaf := f, nsze := size, usedAway := 0 })
  let d := if old.lbaf = f then d else old.attached.foldl (fun (x : Die) n => x.nsChanged n nsid) d
  let d := d.toHome old.home (.nsFormat nsid f size (if crypto then some (BitVec.ofNat 256 d.freeVal) else none))
  let d := if crypto then (d.updNs nsid (fun n => { n with salt := BitVec.ofNat 256 d.freeVal, saltOn := d.mirrors })).drawn else d
  (List.range 8).foldl (fun x g => x.checkGroup g false) d

/-- A namespace formatted on the worker that is its home, with the salt that its manager drew. -/
def Die.nsFormatted (d : Die) (nsid f size : Nat) (salt : Option (BitVec 256)) : Die :=
  let d := (d.releaseNs nsid).updNs nsid (fun n => { n with lbaf := f, nsze := size, salt := salt.getD n.salt, saltOn := if salt.isSome then d.mirrors else n.saltOn })
  (List.range 8).foldl (fun x g => x.checkGroup g false) d

end Sys2Proof.Machine
end

