-- ==== Sys2Proof/Machine/Health.lean ====
section
/-! DEFINITION. Health figures that logs and Kanex share (R180, R184 to R186): life percentage, critical warnings, erase
counts, valid fraction. -/

namespace Sys2Proof.Machine

/-- The least of a list of numbers, and the greatest. -/
def leastOf (l : List Nat) : Nat := (l.foldl (fun a x => match a with | none => some x | some y => some (min x y)) none).getD 0
def greatestOf (l : List Nat) : Nat := l.foldl max 0

/-- Rated program and erase cycles of a group: the lowest its passports give (R185). -/
def Die.peRated (d : Die) (g : Nat) : Nat :=
  leastOf ((d.members g).filterMap (fun p => ((d.port p).passport).map (fun x => x.peRated)))

/-- The erase counts of the good blocks of a group's ONLINE berths, as far as they have been touched (R185, R186). -/
def Die.goodCounts (d : Die) (g : Nat) : List Nat :=
  (d.rc.blocks.filter (fun e => groupOf (e.1 / 8192 / 16) == g && (d.port (e.1 / 8192 / 16)).st == .online && e.2.st != .retired)).map (fun e => e.2.ec)

/-- Erase counts of a group's good blocks: least, mean rounded down, greatest (R186). A block never touched counts 0. -/
def Die.eraseCounts (d : Die) (g : Nat) : Nat × Nat × Nat :=
  let cs := d.goodCounts g
  let all := sumBy d.goodBlocks (d.members g)
  (if cs.length < all then 0 else leastOf cs, cs.foldl (· + ·) 0 / max 1 all, greatestOf cs)

/-- W(g) rounded up (R185). -/
def Die.wearTerm (d : Die) (g : Nat) : Nat :=
  ceilDiv (100 * (d.goodCounts g).foldl (· + ·) 0) (max 1 (sumBy d.goodBlocks (d.members g) * d.peRated g))

/-- S(g) rounded up (R185): 100 x (spare allowance - spare remaining) ÷ (spare allowance - 2 %), the allowance in units of 0.1 %. -/
def Die.spareTerm (d : Die) (g : Nat) : Nat :=
  let a := (d.group g).spare
  let data := d.groupData g
  ceilDiv (100 * (a * data - 1000 * (data - (d.group g).userCap))) (max 1 (data * (a - 20)))

/-- The life term of a formed group. -/
def Die.lifeTerm (d : Die) (g : Nat) : Nat := if (d.group g).formed then max (d.wearTerm g) (d.spareTerm g) else 0

/-- R185: the life percentage, saturating at 255. -/
def Die.lifePercent (d : Die) : Nat := min 255 (greatestOf ((List.range 8).map d.lifeTerm))

/-- Sectors poisoned now that lie on the media of a group (R186); of a loaf poisoned whole, all sixteen (R158). -/
def Die.poisonedIn (d : Die) (g : Nat) : Nat :=
  sumBy (fun e => sumBy (fun m => if m.2.poison && (m.2.typ == .loaf || m.2.typ == .inflight || m.2.typ == .part) && groupOf m.2.loc.port == g
      then popcount (e.2.poisonMask m.1) else 0) e.2.map
    + sumBy (fun c => bit (c.2.poison && c.2.st == .media && groupOf c.2.loc.port == g)) e.2.crumbs) d.nss

/-- Whether any stored data is poisoned (R184). -/
def Die.anyPoison (d : Die) : Bool :=
  d.nss.any (fun e => e.2.alive && (e.2.map.any (fun m => m.2.poison) || e.2.crumbs.any (fun c => c.2.poison && c.2.st != .free)))

/-- The SMART critical warnings (R184, R425); bit 1 stands while the thermal state is WARNING or worse. -/
def Die.criticalWarning (d : Die) : Nat :=
  bit (decide (d.availableSpare < d.rc.spareThresh))
    + 2 * bit (d.aon.th != .normal)
    + 4 * bit (d.anyPoison || d.rc.groups.any (fun e => e.2.ro == some RoCause.berths))
    + 8 * bit (d.rc.groups.any (fun e => e.2.ro.isSome))

/-- What the temperature threshold features hold before a host writes them: 368 K over, 0 under (PRESUMED, NVMe; log entry 141). -/
def featDefault (k : Nat) : Nat := if k = 0x04 then 368 else 0

/-- The composite stands at or beyond a threshold that a controller's host has set (R62; log entry 141). -/
def Die.hostTemp (d : Die) (fn : Nat) : Bool :=
  let at' := fun (k : Nat) => bitsOf (BitVec.ofNat 32 (Tbl.get (featDefault k) (d.fn fn).feats k)) 0 16
  decide (at' 0x04 ≤ d.aon.composite + 273) || decide (d.aon.composite + 273 ≤ at' 0x104)

/-- The SMART critical warnings that a controller's log shows (R62, R63, R184). -/
def Die.warningsFor (d : Die) (fn : Nat) : Nat := d.criticalWarning ||| (2 * bit (d.hostTemp fn))

/-- Data capacity of one RU in sectors, and the valid fraction of the CLOSED RUs of a group in parts per million (R186). -/
def Die.validPpm (d : Die) (g : Nat) : Nat :=
  let rs := d.rc.rus.filter (fun e => e.2.st == .closed && e.2.group == g)
  let cap := sumBy (fun e => e.2.k * d.pusPerBlock g * 48) rs
  if cap = 0 then 0 else sumBy (fun e => d.validCount e.1) rs * 1000000 / cap

/-- State of a group in HEALTH_DETAIL (R186): of several that hold, the greatest code (DESIGN CHOICE, log entry 198). -/
def Die.groupState (d : Die) (g : Nat) : Nat :=
  let x := d.group g
  if x.ro.isSome then 3
  else if x.formed && d.isFull g then 2
  else if x.formed && decide (d.freeRus g * 1000 < d.gcProf.gcUrgent * d.totalRus g) then 1 else 0

end Sys2Proof.Machine
end

