-- ==== Sys2Proof/Machine/Admin.lean ====
section
/-! DEFINITION. The NVMe admin commands (R51, R57, R60, R62 to R64, R70, R100 to R108, R124 to R129, R151 to R153, R328, R402,
R549), and the sideband's Basic Management Command (R66). -/

namespace Sys2Proof.Machine

/-- The effect of an admin command under a tag that is bound or admitted; held while an activation holds commands (R114). -/
def Die.admin (d : Die) (t opc : Nat) (f : Tag → SqEntry → Die) : Die :=
  let x := d.tag t
  match x.entry with
  | none => d
  | some e => if (x.st = .bound ∨ x.st = .admitted) ∧ x.adminOpc = opc ∧ d.qe.hold = false then f x e else d

/-- The data of an admin command: a data pointer found malformed ends it (R121 step 10); what is read from the host wakes its link (R45). -/
def Die.withData (d : Die) (t : Nat) (x : Tag) (e : SqEntry) (bytes : Nat) (f : Die → Die) : Die :=
  match d.pointerBad x e bytes with
  | some st => d.finish t st
  | none => f d.hostWake

/-! ## Queues (R70, R107, R108) -/

/-- CREATE_IO_CQ (R70). Dword 11: PC bit 0, IEN bit 1, vector bits 31:16 (log entry 10). -/
def Die.createCq (d : Die) (t : Nat) : Die := d.admin t 0x05 fun x e =>
  let f := d.fn x.fn
  let v := bitsOf e.cdw11 16 16
  if e.qid = 0 ∨ (d.tenant x.fn).qpairs < e.qid ∨ (f.cq e.qid).size ≠ 0 then d.finish t stInvalidQid
  else if e.qsize < 2 then d.finish t stInvalidQsize
  else if bitsOf e.cdw11 0 1 = 0 then d.finish t stInvalidField
  else if (d.tenant x.fn).vectors ≤ v then d.finish t stInvalidVector
  else (d.updFn x.fn (fun f => { f with cqs := Tbl.set f.cqs e.qid { size := e.qsize, vector := v, ien := bitsOf e.cdw11 1 1 == 1 } })).finish
    t stOk

/-- CREATE_IO_SQ (R70). Dword 11: PC bit 0, completion queue bits 31:16 (log entry 10). -/
def Die.createSq (d : Die) (t : Nat) : Die := d.admin t 0x01 fun x e =>
  let f := d.fn x.fn
  let c := bitsOf e.cdw11 16 16
  if e.qid = 0 ∨ (d.tenant x.fn).qpairs < e.qid ∨ (f.sq e.qid).size ≠ 0 then d.finish t stInvalidQid
  else if e.qsize < 2 then d.finish t stInvalidQsize
  else if c = 0 ∨ (f.cq c).size = 0 then d.finish t stInvalidCq
  else if bitsOf e.cdw11 0 1 = 0 then d.finish t stInvalidField
  else (d.updFn x.fn (fun f => { f with sqs := Tbl.set f.sqs e.qid { size := e.qsize, cq := c } })).finish t stOk

/-- DELETE_IO_SQ (R107): unfetched entries go, early commands end (those on a worker, there: log entry 163), and the queue is deleted once every command is complete. -/
def Die.deleteSq (d : Die) (t : Nat) : Die := d.admin t 0x00 fun x e =>
  if e.qid = 0 ∨ ((d.fn x.fn).sq e.qid).size = 0 then d.finish t stInvalidQid
  else
    let d := (d.updFn x.fn (fun f => f.updSq e.qid (fun q => { q with deleting := true, tail := q.head }))).cutTurn
    let mine := fun (u : Nat × Tag) => u.2.st != .free && u.2.fn == x.fn && u.2.sq == e.qid
    let d := (d.qe.tags.filter (fun u => mine u && u.2.early)).foldl (fun y u =>
      if (y.sentTo u.2).isSome then y.giveUp u.1 (some stSqDeletion) else y.failTag u.1 stSqDeletion) d
    if d.qe.tags.any mine then d
    else (d.updFn x.fn (fun f => { f with sqs := Tbl.set f.sqs e.qid {} })).finish t stOk

/-- DELETE_IO_CQ (R108). -/
def Die.deleteCq (d : Die) (t : Nat) : Die := d.admin t 0x04 fun x e =>
  let f := d.fn x.fn
  if e.qid = 0 ∨ (f.cq e.qid).size = 0 then d.finish t stInvalidQid
  else if f.sqs.any (fun s => s.2.size != 0 && s.2.cq == e.qid) then d.finish t stQueueDeletion
  else (d.updFn x.fn (fun f => { f with cqs := Tbl.set f.cqs e.qid {} })).finish t stOk

/-! ## Abort (R100 to R105) -/

/-- ABORT (R100 to R104): it resolves its target at this step and acts on that handle alone. Earlier Aborts are outstanding until FREE.
Where two commands in flight carry its SQID and CID, the earlier and one that ended with CID conflict, the target is one not in
POSTING, and among equals the first in the tag table (DESIGN CHOICE, log entry 146). A target that runs on a worker is given up there, and
the Abort waits for the answer, which says whether it came in time (log entry 163). -/
def Die.abort (d : Die) (t : Nat) : Die := d.admin t 0x08 fun x e =>
  let sqid := bitsOf e.cdw10 0 16
  let cid := bitsOf e.cdw10 16 16
  if x.target.isSome then d
  else
  let others := (d.qe.tags.filter (fun u => u.1 != t && u.2.st != .free && u.2.fn == x.fn && u.2.adminOpc == 0x08 && decide (u.2.order < x.order))).length
  if 16 ≤ others then d.finish t stAbortLimit
  else
    let named := d.qe.tags.filter (fun u => u.2.st != .free && u.2.fn == x.fn && u.2.sq == sqid && sqid != 0 &&
      (match u.2.entry with | some y => y.cid == cid | none => false))
    match ((named.find? (fun u => u.2.live)).or named.head?) with
    | some u =>
      if !u.2.early then d.finishDw0 t stOk 1
      else if (d.sentTo u.2).isSome then
        (d.giveUp u.1 (some stAbortRequested)).updTag t (fun y => { y with st := .admitted, target := some (u.1, u.2.gen) })
      else (d.failTag u.1 stAbortRequested).finishDw0 t stOk 0
    | none => d.finishDw0 t stOk 1

/-! ## Asynchronous events (R549) -/

/-- Held events posted as far as requests and types allow. -/
def Die.postHeld (d : Die) (fn : Nat) : Die :=
  let hs := (d.fn fn).held
  hs.foldl (fun y a => y.post fn a) (d.updFn fn (fun f => { f with held := [] }))

/-- ASYNCHRONOUS_EVENT_REQUEST: queued within its limit of 16, and any held event posted to it (R64, R549). -/
def Die.aerRequest (d : Die) (t : Nat) : Die := d.admin t 0x0C fun x _ =>
  let f := d.fn x.fn
  if f.aers.contains t then d
  else if 16 ≤ f.aers.length then d.finish t stAerLimit
  else (((d.updFn x.fn (fun g => { g with aers := g.aers ++ [t] })).updTag t (fun y => { y with st := .admitted })).postHeld x.fn)

/-! ## Log pages (R63) -/

/-- Log pages of a function. -/
def logSupported (fn lid : Nat) : Bool :=
  [0x01, 0x02, 0x03, 0x04, 0x05, 0x09, 0x0C, 0x20, 0x21, 0x22, 0x23, 0xBF].contains lid || (lid == 0x06 && fn == 0)

/-- State code of an ANA group (PRESUMED, NVMe Base Specification; log entry 10). -/
def anaCode : Ana → Nat
  | .optimized => 0x1
  | .inaccessible => 0x3
  | .change => 0xF

/-- Data of a reclaim unit in bytes (R170). Where a nominal size of the die is asked for (R151), it is that of group 0 (DESIGN CHOICE,
log entry 194). -/
def Die.ruBytes (d : Die) (g : Nat) : Nat := (d.group g).k * d.pusPerBlock g * 192 * 1024

/-- The fields of a log page that the spec gives a value, in order (layouts: log entry 25; the Changed Zone List: log entry 140). -/
def Die.logData (d : Die) (fn lid nsid : Nat) : List Nat :=
  let f := d.fn fn
  match lid with
  | 0x01 => f.errLog.flatMap (fun e => [e.sqid, e.cid, e.sct, e.sc, e.lba, e.nsid])
  | 0x02 => [d.warningsFor fn, d.aon.composite + 273, d.availableSpare, d.rc.spareThresh, d.lifePercent, d.rc.hostBytes / 512000, d.opsec / 3600, d.rc.integrityErrs]
  | 0x03 => (d.fw.running + 1) :: (d.fw.a.revision ++ d.fw.b.revision)
  | 0x04 => f.changedNs
  | 0x05 => adminOpcodes ++ (if fn = 0 then adminPfOpcodes else []) ++ ioOpcodes
  | 0x06 => match f.dstLog with | some r => [r.1, r.2.1, r.2.2] | none => []
  | 0x09 => [d.criticalWarning, d.availableSpare, d.rc.spareThresh, d.lifePercent, sumBy (fun e => e.2.mediaBytes) d.rc.groups / 512000]
  | 0x0C => (List.range' 1 17).flatMap (fun g => [g, anaCode (d.ana g)] ++
      (d.nss.filter (fun e => e.2.alive && e.2.home == g && e.2.attached.contains fn)).map (fun e => e.1))
  | 0x20 => [8, 16, 3, 1, d.ruBytes 0, 16]
  | 0x21 => (List.range 16).map (fun h => bit (d.nss.any (fun e => e.2.alive && (if e.2.phndls.isEmpty then e.2.ruhmap.take e.2.hcount else e.2.phndls).contains h)))
  | 0x22 => [d.rc.hostBytes, sumBy (fun e => e.2.mediaBytes) d.rc.groups, d.rc.erasedBytes]
  | 0x23 => d.mc.fdpEvents.flatMap (fun e => [e.1, e.2])
  | 0xBF => (f.changedZones.filter (fun z => z.1 == nsid)).map (fun z => z.2 * (d.ns nsid).zoneLbas)
  | _ => []

/-- A log page read with RAE = 0 clears the events that name it, and the changed lists it carries (R549; log entry 140). -/
def Die.clearEvents (d : Die) (fn lid nsid : Nat) : Die :=
  (d.updFn fn (fun f => { f with
    unread := f.unread.filter (fun a => a.page != lid), held := f.held.filter (fun a => a.page != lid)
    changedNs := if lid = 0x04 then [] else f.changedNs
    changedZones := if lid = 0xBF then f.changedZones.filter (fun z => z.1 != nsid) else f.changedZones })).postHeld fn

/-- GET_LOG_PAGE (R57, R63). -/
def Die.getLogPage (d : Die) (t : Nat) : Die := d.admin t 0x02 fun x e =>
  if logSupported x.fn e.lid = false then d.finish t stInvalidLog
  else if e.lid = 0xBF ∧ d.reachesAt x.fn e.ns x.order = false then d.finish t stInvalidNamespace
  else d.withData t x e (4 * (bitsOf e.cdw10 16 16 + 65536 * bitsOf e.cdw11 0 16 + 1)) fun d =>
    let d := (d.emit (.logPage x.fn t e.lid (d.logData x.fn e.lid e.ns))).finish t stOk
    if e.rae then d else d.clearEvents x.fn e.lid e.ns

/-! ## Identify (R60, R64, R94, R125 to R130) -/

/-- The four LBA formats (R127): LBA size, host metadata per LBA, relative performance. -/
def lbaFormats : List Nat := [4096, 0, 0b00, 4096, 16, 0b00, 512, 0, 0b10, 512, 2, 0b10]

/-- The zoned Identify Namespace data (R130): ZOC, OZCS, MAR, MOR, RRL, FRL, RRL1 to RRL3, FRL1 to FRL3, then ZSZE and ZDES of the LBA
format extensions of formats 0 and 1. -/
def Ns.identifyZoned (n : Ns) : List Nat :=
  [0, 0, n.zactive - 1, n.zopen - 1, 0, 0, 0, 0, 0, 0, 0, 0, n.zoneLbas, 0, n.zoneLbas, 0]

/-- Identify data of a namespace (R64, R94, R125, R126): size, capacity, use, NSFEAT, NLBAF, FLBAS, NMIC, ANAGRPID, the
atomicity fields, DLFEAT, DPS, the creation parameters in force, and the LBA formats (R127). -/
def Ns.identify (n : Ns) : List Nat :=
  let unit := if n.isForerunner then n.unitLbas - 1 else 0
  [n.nsze, n.nsze, n.allocated * n.lbasPerSector, 1, 3, n.lbaf, bit (decide (1 < n.attached.length)), n.home, unit, unit, unit, unit, 0, 9, 0,
   bit n.isForerunner + 2 * bit n.strict + 4 * bit n.rbwp, if n.isZoned then n.zszl else 0, if n.isZoned then n.zopen else 0,
   if n.isZoned then n.zactive else 0, n.handles, n.home, n.rgset.toNat] ++ n.ruhmap ++ lbaFormats

/-- Identify data of a controller (R64): the firmware revision as text, and the maximum power of the one power state in W. -/
def Die.identifyCtrl (d : Die) (fn : Nat) : List Nat :=
  [0x1D9A, fn, 1, 8, 0x66, 0x44, 16384, 15, 15, 255, if fn = 0 then 0x001E else 0x000A, 0x00CC, 0x04, 0, 0x06, 0, 0, 0x14]
    ++ hexText d.fw.runVer ++ [0x06, 0x08000B00, 0x00080000, 1, 0, 190, 368, 393, 0x19, 17, 17, 10, 0x00020000]

/-- NSIDs above one, ascending, that a condition names. -/
def Die.nsList (d : Die) (above : Nat) (f : Ns → Bool) : List Nat :=
  (d.nss.filter (fun e => e.2.alive && decide (above < e.1) && f e.2)).foldl (fun a e => insertBerth (fun y => 16384 - y) e.1 a) []

/-- Command set of a namespace (R123). -/
def Ns.csi (n : Ns) : Nat := if n.isZoned then 2 else 0

/-- CNS values (R60). -/
def cnsSupported : List Nat := [0x00, 0x01, 0x02, 0x03, 0x05, 0x06, 0x07, 0x08, 0x10, 0x11, 0x12, 0x13, 0x1C]

/-- The data of a CNS value; a namespace that is not active for the controller reads as zeros (log entry 25). -/
def Die.identifyData (d : Die) (fn cns nsid csi : Nat) : List Nat :=
  let n := d.ns nsid
  let seen := d.activeOn fn n
  match cns with
  | 0x00 => if seen then n.identify else []
  | 0x01 => d.identifyCtrl fn
  | 0x02 => d.nsList nsid (d.activeOn fn)
  | 0x03 => if seen then [n.csi] else []
  | 0x05 => if seen && n.isZoned && csi == 2 then n.identifyZoned else []
  | 0x06 => if csi = 2 then [6] else []
  | 0x07 => d.nsList nsid (fun m => d.activeOn fn m && m.csi == csi)
  | 0x08 => if seen then [1, bit (decide (1 < n.attached.length)), n.home] else []
  | 0x10 => d.nsList nsid (fun m => m.owner == fn)
  | 0x11 => if n.alive && n.owner == fn then n.identify else []
  | 0x12 => if n.alive then n.attached else []
  | 0x13 => (d.tenants.filter (fun e => e.2.alive)).map (fun e => e.1)
  | _ => [0x5]

/-- CNS values whose data belongs to a command set, named by CSI: 0 NVM, 2 Zoned (R57, R123). -/
def csiBad (cns csi : Nat) : Bool := [0x05, 0x06, 0x07].contains cns && !(csi == 0 || csi == 2)

/-- NVME_IDENTIFY (R57, R60): the data is sent; its log identifier here is 0x600 plus the CNS value. A namespace whose delete was fetched
before it gets Invalid Namespace or Format (R153). -/
def Die.nvmeIdentify (d : Die) (t : Nat) : Die := d.admin t 0x06 fun x e =>
  let cns := bitsOf e.cdw10 0 8
  if !cnsSupported.contains cns || csiBad cns (bitsOf e.cdw11 24 8) then d.finish t stInvalidField
  else if [0x00, 0x03, 0x05, 0x08, 0x11].contains cns && (e.ns == 0 || (decide (16384 < e.ns) && !(cns == 0 && e.ns == nsidAll))) then
    d.finish t stInvalidNamespace
  else if [0x00, 0x03, 0x05, 0x08, 0x11].contains cns && d.deletingAt e.ns x.order then d.finish t stInvalidNamespace
  else d.withData t x e 4096 fun d => (d.emit (.logPage x.fn t (0x600 + cns) (d.identifyData x.fn cns e.ns (bitsOf e.cdw11 24 8)))).finish t stOk

/-! ## Features (R51, R62, R151, R402) -/

/-- Store a feature's value. -/
def Die.setFeat (d : Die) (fn k v : Nat) : Die := d.updFn fn (fun f => { f with feats := Tbl.set f.feats k v })

/-- Feature identifiers with a row of their own. -/
def ownFids : List Nat := [0x07, 0x08, 0x09, 0x1D]
/-- The other feature identifiers (R62). -/
def plainFids : List Nat := [0x01, 0x02, 0x04, 0x05, 0x0A, 0x0B, 0x0E, 0x19, 0x1E]

/-- The number under which a feature's value is stored: a temperature threshold by its kind, FDP Events by handle. -/
def featKey (e : SqEntry) : Nat :=
  if e.fid = 0x04 then 0x04 + 0x100 * bitsOf e.cdw11 20 2
  else if e.fid = 0x1E then 0x1E + 0x100 * bitsOf e.cdw11 0 16 else e.fid

/-- A value that R62 refuses. -/
def featBad (f : Func) (e : SqEntry) : Bool :=
  match e.fid with
  | 0x02 => bitsOf e.cdw11 0 5 != 0
  | 0x04 => bitsOf e.cdw11 16 4 != 0 || decide (1 < bitsOf e.cdw11 20 2)
  | 0x05 => bitsOf e.cdw11 16 1 == 1
  | 0x19 => f.css != 6 || bitsOf e.cdw11 0 9 != 0
  | 0x1E => decide (16 ≤ bitsOf e.cdw11 0 16)
  | _ => false

/-- SET_FEATURES for the features that are stored and returned (R57, R62). data: the timestamp from host memory. -/
def Die.setFeatures (d : Die) (t : Nat) (data : Word64) : Die := d.admin t 0x09 fun x e =>
  if ownFids.contains e.fid then d
  else if e.sv then d.finish t stNotSaveable
  else if !plainFids.contains e.fid || featBad (d.fn x.fn) e then d.finish t stInvalidField
  else if e.fid = 0x0E then d.withData t x e 8 fun d => ({ d with mc := { d.mc with stamp := (bitsOf data 0 48, d.now) } } : Die).finish t stOk
  else (d.setFeat x.fn (featKey e) (if e.fid = 0x1E then e.cdw12.toNat else e.cdw11.toNat)).finish t stOk

/-- SET_FEATURES_INTERRUPT_COALESCING (R402). -/
def Die.setCoalescing (d : Die) (t : Nat) : Die := d.admin t 0x09 fun x e =>
  if e.fid ≠ 0x08 then d
  else if e.sv then d.finish t stNotSaveable
  else
    let thr := min (bitsOf e.cdw11 0 8 + 1) 255
    let time := min (bitsOf e.cdw11 8 8 * 100) 1000
    (d.updFn x.fn (fun f => { f with ndef := BitVec.ofNat 32 (thr + 256 * time) })).finish t stOk

/-- SET_FEATURES_INTERRUPT_VECTOR_CONFIG (R402): CD of a vector the function holds. -/
def Die.setVectorConfig (d : Die) (t : Nat) : Die := d.admin t 0x09 fun x e =>
  if e.fid ≠ 0x09 then d
  else if e.sv then d.finish t stNotSaveable
  else
    let v := bitsOf e.cdw11 0 16
    if (d.tenant x.fn).vectors ≤ v then d.finish t stInvalidField
    else
      let cd := bitsOf e.cdw11 16 1 == 1
      (d.updFn x.fn (fun f => f.updVec v (fun y => { y with
        vmod := if cd then y.vmod ||| 0x00040000#32 else y.vmod &&& 0xFFFBFFFF#32 }))).finish t stOk

/-- DW0 of Number of Queues: the allocation, 0-based, for submission and completion queues. An allocation of none has no
0-based form: a free value. -/
def Die.queuesDw0 (d : Die) (fn : Nat) : Word × Die :=
  match (d.tenant fn).qpairs with
  | 0 => (BitVec.ofNat 32 d.freeVal, d.drawn)
  | n + 1 => (BitVec.ofNat 32 (n + 65536 * n), d)

/-- SET_FEATURES_NUMBER_OF_QUEUES (R51). -/
def Die.setQueues (d : Die) (t : Nat) : Die := d.admin t 0x09 fun x e =>
  if e.fid ≠ 0x07 then d
  else if e.sv then d.finish t stNotSaveable
  else
    let r := d.queuesDw0 x.fn
    r.2.finishDw0 t stOk r.1

/-- Set and Get Features FDP name an endurance group, which carries the number of its die's ANA group (DESIGN CHOICE, log entry 193). -/
def Die.endgBad (d : Die) (e : SqEntry) : Bool := bitsOf e.cdw11 0 16 != d.anaGroup

/-- SET_FEATURES_FDP (R151): FDP Enable is dword 12 bit 0, the configuration's index bits 15:8 (log entry 10), and there is one. -/
def Die.setFdp (d : Die) (t : Nat) : Die := d.admin t 0x09 fun x e =>
  if e.fid ≠ 0x1D then d
  else if e.sv then d.finish t stNotSaveable
  else if x.fn ≠ 0 ∨ d.endgBad e = true ∨ bitsOf e.cdw12 8 8 ≠ 0 then d.finish t stInvalidField
  else if d.nss.any (fun n => n.2.alive && n.2.home == d.anaGroup) then d.finish t stSequence
  else ({ d with mc := { d.mc with fdp := bitsOf e.cdw12 0 1 == 1 } } : Die).finish t stOk

/-- GET_FEATURES (R62, R402): the value in force in DW0, the timestamp as data. Another Select than the current value is not supported
(R57). -/
def Die.getFeatures (d : Die) (t : Nat) : Die := d.admin t 0x0A fun x e =>
  let f := d.fn x.fn
  if bitsOf e.cdw10 8 3 ≠ 0 then d.finish t stInvalidField
  else match e.fid with
  | 0x07 => let r := d.queuesDw0 x.fn
            r.2.finishDw0 t stOk r.1
  | 0x08 => d.finishDw0 t stOk (BitVec.ofNat 32 (bitsOf f.ndef 0 8 - 1 + 256 * (bitsOf f.ndef 8 10 / 100)))
  | 0x09 =>
    let v := bitsOf e.cdw11 0 16
    if (d.tenant x.fn).vectors ≤ v then d.finish t stInvalidField
    else d.finishDw0 t stOk (BitVec.ofNat 32 (v + 65536 * bit (f.vec v).cd))
  | 0x0E => d.withData t x e 8 fun d => (d.emit (.logPage x.fn t 0xE0E [d.mc.stamp.1 + (d.now - d.mc.stamp.2) / 1000])).finish t stOk
  | 0x1D => if d.endgBad e then d.finish t stInvalidField else d.finishDw0 t stOk (if d.mc.fdp then 1 else 0)
  | fid => if plainFids.contains fid && !(fid == 0x1E && decide (16 ≤ bitsOf e.cdw11 0 16)) then d.finishDw0 t stOk (BitVec.ofNat 32 (Tbl.get (featDefault (featKey e)) f.feats (featKey e))) else d.finish t stInvalidField

/-! ## Namespaces (R124, R126, R129, R153, R328) -/

/-- NAMESPACE_MANAGEMENT_CREATE (R126); Select field 0, dword 10 bits 3:0 (log entry 10). DW0 returns the NSID. -/
def Die.nsMgmtCreate (d : Die) (t : Nat) (c : NsCreate) : Die := d.admin t 0x0D fun x e =>
  if bitsOf e.cdw10 0 4 = 1 then d
  else if bitsOf e.cdw10 0 4 ≠ 0 then d.finish t stInvalidField
  else d.withData t x e 4096 fun d => match d.nsRefused x.fn c with
    | some r => d.finish t r.1
    | none =>
      let q := d.nsMake x.fn c
      q.2.finishDw0 t stOk (BitVec.ofNat 32 q.1)

/-- The status with which the ANA state of a namespace's home die refuses a command (R129). -/
def Die.anaRefuses (d : Die) (nsid : Nat) : Option Status := d.checkAna (d.ns nsid)

/-- NAMESPACE_MANAGEMENT_DELETE (R129, R153): of one namespace of the tenant, or of all of them; it waits for the commands in
flight to them. One that a delete fetched earlier is deleting is none (R153). -/
def Die.nsMgmtDelete (d : Die) (t : Nat) : Die := d.admin t 0x0D fun x e =>
  if bitsOf e.cdw10 0 4 ≠ 1 then d
  else
    let mine := (d.nsList 0 (fun n => n.owner == x.fn)).filter (fun n => !d.deletingAt n x.order)
    let ids := if e.ns = nsidAll then mine else mine.filter (fun n => n == e.ns)
    if ids.isEmpty && e.ns != nsidAll then d.finish t stInvalidNamespace
    else match ids.filterMap d.anaRefuses with
      | st :: _ => d.finish t st
      | [] =>
        if ids.any (fun n => d.nsInFlight n none) then d
        else (ids.foldl (fun y n => y.nsRemove n) d).finish t stOk

/-- Namespace Attachment: attach (Select 0) or detach (Select 1) on the tenant's own controller (R124). -/
def Die.nsAttachment (d : Die) (t sel : Nat) (ctrls : List Nat) : Die := d.admin t 0x15 fun x e =>
  let s := bitsOf e.cdw10 0 4
  if s ≠ sel ∧ (s ≤ 1 ∨ sel = 1) then d
  else if 1 < s then d.finish t stInvalidField
  else if (d.ns e.ns).alive = false ∨ (d.ns e.ns).owner ≠ x.fn ∨ d.deletingAt e.ns x.order = true then d.finish t stInvalidNamespace
  else d.withData t x e 4096 fun d => if ctrls ≠ [x.fn] then d.finish t stCtrlList
  else
    let on := (d.ns e.ns).attached.contains x.fn
    if sel = 0 then (if on then d.finish t stNsAttached else (d.attach e.ns x.fn).finish t stOk)
    else if !on then d.finish t stNsNotAttached
    else if d.nsInFlight e.ns (some x.fn) then d
    else (d.detach e.ns x.fn).finish t stOk

/-- FORMAT_NVM and FORMAT_NVM_CRYPTO_ERASE (R127, R153, R328). Dword 10: LBAF bits 3:0, MSET bit 4, PI bits 7:5, PIL bit 8,
SES bits 11:9 (log entry 10). It waits for the earlier commands to the namespace; later ones wait for it. -/
def Die.format (d : Die) (t : Nat) (crypto : Bool) : Die := d.admin t 0x80 fun x e =>
  let ses := bitsOf e.cdw10 9 3
  let f := bitsOf e.cdw10 0 4
  let n := d.ns e.ns
  if crypto = decide (ses ≠ 2) then d
  else if ses ≠ 0 ∧ ses ≠ 2 then d.finish t stInvalidField
  else if d.reachesAt x.fn e.ns x.order = false then d.finish t stInvalidNamespace
  else match d.anaRefuses e.ns with
    | some st => d.finish t st
    | none =>
      if n.formatOk f = false ∨ bitsOf e.cdw10 4 5 ≠ 0 then d.finish t stInvalidFormat
      else match n.sizeUnder f with
        | none => d.finish t stInvalidFormat
        | some size =>
          if d.earlierDone e true x.order then (d.nsFormat e.ns f size crypto).finish t stOk else d

/-! ## The sideband (R66) -/

/-- One bit of the SMBus packet error code, CRC-8 with polynomial 0x07. -/
def pecBit (c : Byte) : Byte := if c.getLsbD 7 then (c <<< 1) ^^^ 0x07#8 else c <<< 1
/-- The packet error code of bytes (PRESUMED, SMBus; log entry 10). -/
def pec (bs : List Byte) : Byte :=
  bs.foldl (fun c b => pecBit (pecBit (pecBit (pecBit (pecBit (pecBit (pecBit (pecBit (c ^^^ b))))))))) 0

/-- The phases in which the drive is not functional (R519). -/
def Phase.holds : Phase → Bool
  | .romHold | .maintHold | .faultHold | .thermalHold => true
  | _ => false

/-- Status flags of the Basic Management Command (R519; their places PRESUMED, NVMe-MI, log entry 10): drive not ready, drive
functional. -/
def Die.miFlags (d : Die) : Nat :=
  0x80 + 0x40 * bit (d.life.phase != .ready) + 0x20 * bit (!d.life.phase.holds) + 0x10 + 0x08 * bit (d.link.st == .l0) + 0x03

/-- NVME_MI_BASIC_MANAGEMENT: status flags, SMART warnings (a warning clears its bit), composite temperature, drive life used,
then the PEC (R66). -/
def Die.miBasic (d : Die) : Die :=
  let body : List Byte := [6, BitVec.ofNat 8 d.miFlags, BitVec.ofNat 8 (255 - d.criticalWarning),
    BitVec.ofNat 8 (min 126 d.aon.composite), BitVec.ofNat 8 d.lifePercent, 0, 0, 0]
  let all := body ++ [pec ([0xD4, 0x00, 0xD5] ++ body)]
  ({ d with mc := { d.mc with mi := all } } : Die).emit (.mi all)

/-- The sideband answers in every phase in which the die has its supplies and is out of reset (R519). -/
def Die.miAnswer (d : Die) : Die := if d.life.phase = .off ∨ d.life.phase = .inReset then d else d.miBasic

/-! ## The meanings -/

/-- CREATE_IO_SQ (R70). -/
def execCreateIoSq (tag : Nat) (s : State) : Host.Outcome State Fault Refusal := s.run (·.createSq tag)
/-- CREATE_IO_CQ (R70). -/
def execCreateIoCq (tag : Nat) (s : State) : Host.Outcome State Fault Refusal := s.run (·.createCq tag)
/-- DELETE_IO_SQ (R107). -/
def execDeleteIoSq (tag : Nat) (s : State) : Host.Outcome State Fault Refusal := s.run (·.deleteSq tag)
/-- DELETE_IO_CQ (R108). -/
def execDeleteIoCq (tag : Nat) (s : State) : Host.Outcome State Fault Refusal := s.run (·.deleteCq tag)
/-- GET_LOG_PAGE (R63). -/
def execGetLogPage (tag : Nat) (s : State) : Host.Outcome State Fault Refusal := s.run (·.getLogPage tag)
/-- NVME_IDENTIFY (R64). -/
def execNvmeIdentify (tag : Nat) (s : State) : Host.Outcome State Fault Refusal := s.run (·.nvmeIdentify tag)
/-- ABORT (R101). -/
def execAbort (tag : Nat) (s : State) : Host.Outcome State Fault Refusal := s.run (·.abort tag)
/-- SET_FEATURES (R62). -/
def execSetFeatures (tag : Nat) (data : Word64) (s : State) : Host.Outcome State Fault Refusal := s.run (·.setFeatures tag data)
/-- SET_FEATURES_INTERRUPT_COALESCING (R402). -/
def execSetFeaturesInterruptCoalescing (tag : Nat) (s : State) : Host.Outcome State Fault Refusal := s.run (·.setCoalescing tag)
/-- SET_FEATURES_INTERRUPT_VECTOR_CONFIG (R402). -/
def execSetFeaturesInterruptVectorConfig (tag : Nat) (s : State) : Host.Outcome State Fault Refusal := s.run (·.setVectorConfig tag)
/-- SET_FEATURES_NUMBER_OF_QUEUES (R51). -/
def execSetFeaturesNumberOfQueues (tag : Nat) (s : State) : Host.Outcome State Fault Refusal := s.run (·.setQueues tag)
/-- SET_FEATURES_FDP (R151). -/
def execSetFeaturesFdp (tag : Nat) (s : State) : Host.Outcome State Fault Refusal := s.run (·.setFdp tag)
/-- GET_FEATURES (R62). -/
def execGetFeatures (tag : Nat) (s : State) : Host.Outcome State Fault Refusal := s.run (·.getFeatures tag)
/-- ASYNCHRONOUS_EVENT_REQUEST (R549). -/
def execAsynchronousEventRequest (tag : Nat) (s : State) : Host.Outcome State Fault Refusal := s.run (·.aerRequest tag)
/-- NAMESPACE_MANAGEMENT_CREATE (R126). -/
def execNamespaceManagementCreate (tag : Nat) (data : NsCreate) (s : State) : Host.Outcome State Fault Refusal :=
  s.run (·.nsMgmtCreate tag data)
/-- NAMESPACE_MANAGEMENT_DELETE (R153). -/
def execNamespaceManagementDelete (tag : Nat) (s : State) : Host.Outcome State Fault Refusal := s.run (·.nsMgmtDelete tag)
/-- NAMESPACE_ATTACH (R124). -/
def execNamespaceAttach (tag : Nat) (ctrls : List Nat) (s : State) : Host.Outcome State Fault Refusal := s.run (·.nsAttachment tag 0 ctrls)
/-- NAMESPACE_DETACH (R124). -/
def execNamespaceDetach (tag : Nat) (ctrls : List Nat) (s : State) : Host.Outcome State Fault Refusal := s.run (·.nsAttachment tag 1 ctrls)
/-- FORMAT_NVM (R153). -/
def execFormatNvm (tag : Nat) (s : State) : Host.Outcome State Fault Refusal := s.run (·.format tag false)
/-- FORMAT_NVM_CRYPTO_ERASE (R328). -/
def execFormatNvmCryptoErase (tag : Nat) (s : State) : Host.Outcome State Fault Refusal := s.run (·.format tag true)
/-- NVME_MI_BASIC_MANAGEMENT (R66). -/
def execNvmeMiBasicManagement (s : State) : Host.Outcome State Fault Refusal := s.always (·.miAnswer)

end Sys2Proof.Machine
end

