-- ==== Sys2Proof/Machine/Reclaim.lean ====
section
/-! DEFINITION. The journal's segments and checkpoints (R165 to R168), garbage collection, folds and refresh (R163, R164,
R170 to R177), media patrol and scrub (R266 to R268), and the 1 ms accounting window (R275, R285, R286, R288, R289, R300,
R302, R303). -/

namespace Sys2Proof.Machine

/-! ## The journal (R166, R168) -/

/-- JOURNAL_SEGMENT_WRITE (R166, R434): a segment is written when it is full, 200 µs after its first record, or in
write-through as soon as it holds a record. -/
def Die.segmentDue (d : Die) : Die :=
  if !d.te.buf.isEmpty && (decide (recordsPerSegment ≤ recsOf d.te.buf) || decide (d.te.bufAt + 200 ≤ d.now) || d.writeThrough) then
    d.writeSegment
  else d

/-- CHECKPOINT_CYCLE_START (R168). The 600 s run from the end of the previous cycle (DESIGN CHOICE, log entry 157: R168 names its end, the
chapter's example counts from start to start). -/
def Die.cycleStart (d : Die) : Die :=
  if d.te.ckpt = false ∧ (d.te.ckptEnd + 600000000 ≤ d.now ∨ Config.journalCycle ≤ d.te.since) then d.beginCycle else d

/-- CHECKPOINT_CYCLE_COMPLETE (R168): its pages stand on three berths each, the segments older than its start are released, and the hold
ends. -/
def Die.cycleComplete (d : Die) : Die := if d.te.ckpt && decide (d.mirrors.length = 3) then d.endCycle else d

/-! ## Moves (R164) -/

/-- Whether a loaf slot is being moved already. -/
def Die.moving (d : Die) (nsid l : Nat) (kind : Nat) : Bool := d.rc.moves.any (fun m => m.2.ns == nsid && m.2.loaf == l && m.2.kind == kind)

/-- The sectors of a loaf slot that a mover carries: a poisoned sector as zeros (R258). -/
def Die.carried (d : Die) (n : Ns) (key : Nat) (secs : List (Nat × Nat)) : List (Nat × Sector) :=
  secs.map (fun s => (s.1, if n.isPoisoned s.2 then {} else d.mediaGet (secKey key s.1)))

/-- A valid loaf slot copied through a tray into the open row of a handle of its group; the map changes when the copy passes (R164,
R172). Its sectors are read within the step, without operations of their own at the dies (DESIGN CHOICE, log entry 158); unread: those
whose decode ladder fails. -/
def Die.moveLoaf (d : Die) (unread : Decodes) (g h key nsid l : Nat) : Die :=
  let e := (d.ns nsid).entry l
  if d.stillMapped key && e.typ != .inflight && !d.moving nsid l 0 then
    d.throughTray 5 g 0 3 (fun d =>
      let d := d.lookUp nsid true {} (l * 16)
      let xs := (List.range 16).filter (fun i => e.vmask.getLsbD i)
      let d := d.readAll unread nsid (xs.map (fun i => l * 16 + i))
      match d.ship g h .gc (tReclaim g) 3 (d.carried (d.ns nsid) key (xs.map (fun i => (i, l * 16 + i)))) with
        | none => d
        | some (loc, d) =>
          let d := { d with rc := { d.rc with
            owner := Tbl.set d.rc.owner loc.key (nsid, l)
            moves := Tbl.set d.rc.moves loc.key { kind := 0, ns := nsid, loaf := l, was := e, crumbs := [] } } }
          d.updGroup g (fun x => { x with gcCopied := x.gcCopied + 1 }))
  else d

/-- The live crumbs of a crumb loaf copied likewise, as one update (R164, R167). -/
def Die.moveCrumbs (d : Die) (unread : Decodes) (g h key : Nat) : Die :=
  let cs := (d.liveCrumbs key).map (fun c => (c.1, c.2, (d.ns c.1).crumb c.2))
  let busy := d.rc.moves.any (fun m => m.2.kind == 2 && m.2.crumbs.any (fun c => cs.contains c))
  if cs.isEmpty || busy then d
  else
    let d := cs.foldl (fun (x : Die) c => x.lookUp c.1 true {} c.2.1) d
    d.throughTray 5 g 0 3 (fun d =>
        let d := cs.foldl (fun (x : Die) c => x.readAll unread c.1 [c.2.1]) d
        let secs := (cs.zip (List.range 16)).map (fun c =>
          (c.2, if (d.ns c.1.1).isPoisoned c.1.2.1 then {} else d.mediaGet (secKey key (c.1.2.2.sslot % 16))))
        match d.ship g h .gc (tReclaim g) 3 secs with
        | none => d
        | some (loc, d) =>
          let d := { d with rc := { d.rc with
            crumbSlots := Tbl.set d.rc.crumbSlots loc.key (cs.map (fun (c : Nat × Nat × Crumb) => (c.1, c.2.1)))
            moves := Tbl.set d.rc.moves loc.key { kind := 2, ns := 0, loaf := 0, was := {}, crumbs := cs } } }
          d.updGroup g (fun x => { x with gcCopied := x.gcCopied + 1 }))

/-- Every valid loaf slot and crumb loaf of some blocks copied. -/
def Die.moveBlocks (d : Die) (unread : Decodes) (g h : Nat) (blocks : List Nat) : Die :=
  let mine := fun (k : Nat) => blocks.contains (d.resolveBlock (k / 8192))
  let d' := (d.rc.owner.filter (fun e => mine e.1)).foldl (fun x e => x.moveLoaf unread g h e.1 e.2.1 e.2.2) d
  (d.rc.crumbSlots.filter (fun e => mine e.1)).foldl (fun x e => x.moveCrumbs unread g h e.1) d'

/-! ## Recovered loaves (R251) -/

/-- A loaf slot whose recovered loaves find no slot of an open row: they wait in their recovery trays (R251). -/
def Die.owe (d : Die) (key : Nat) : Die := { d with rc := { d.rc with owed := if d.rc.owed.contains key then d.rc.owed else key :: d.rc.owed } }

/-- The loaves of one loaf slot shipped again to the handle's open row; their entries stay INFLIGHT, crumbs stay staged, and a
move to the slot is given up (R164, R251 step 5). They leave the GC reserve alone (R174). -/
def Die.reshipSlot (d : Die) (g h : Nat) (key : Nat) : Die :=
  let d := { d with rc := { d.rc with moves := Tbl.del d.rc.moves key } }
  let d := match d.rc.owner.find? (fun o => o.1 == key) with
    | some o =>
      let n := d.ns o.2.1
      let e := n.entry o.2.2
      if d.stillMapped key then
        match d.ship g h .host n.owner 3 (((List.range 16).filter (fun i => e.vmask.getLsbD i)).map (fun i => (i, d.mediaGet (secKey key i)))) with
        | some (loc, d) =>
          let d := { d with rc := { d.rc with owner := Tbl.set d.rc.owner loc.key o.2 } }
          d.updNs o.2.1 (fun n => { n with map := Tbl.set n.map o.2.2 { e with loc := loc, typ := .inflight } })
        | none => d.owe key
      else d
    | none => d
  let cs := (Tbl.get [] d.rc.crumbSlots key).filter (fun c =>
    let x := (d.ns c.1).crumb c.2
    x.st == .staged && x.loc.key / 4 == key / 4 && x.sslot / 16 == key % 4)
  if cs.isEmpty then d
  else
    let ix : List ((Nat × Nat) × Nat) := cs.zip (List.range 16)
    match d.ship g h .host (tReclaim g) 3 (ix.map (fun (c : (Nat × Nat) × Nat) => (c.2, d.proofGet ((d.ns c.1.1).crumb c.1.2).prot))) with
    | some (loc, d) =>
      let d := { d with rc := { d.rc with crumbSlots := Tbl.set d.rc.crumbSlots loc.key cs } }
      ix.foldl (fun (y : Die) (c : (Nat × Nat) × Nat) => y.updNs c.1.1 (fun n =>
        { n with crumbs := Tbl.upd {} n.crumbs c.1.2 (fun x => { x with loc := loc, sslot := loc.slot * 16 + c.2 }) })) d
    | none => d.owe key

/-- R252, R258: the valid sectors of a loaf slot that nothing brings back poisoned. -/
def Die.poisonSlot (d : Die) (key : Nat) : Die :=
  let l := Loc.ofKey key
  match d.rc.owner.find? (fun o => o.1 == key) with
  | some o =>
    ((List.range 16).filter (fun i => ((d.ns o.2.1).entry o.2.2).vmask.getLsbD i && !(d.ns o.2.1).isPoisoned (o.2.2 * 16 + i))).foldl
      (fun (x : Die) i => x.poison o.2.1 (o.2.2 * 16 + i) l.port l.die l.block) d
  | none => d

/-- The recovered loaves of a group that wait for a slot tried again. -/
def Die.shipOwed (d : Die) (g : Nat) : Die :=
  (d.rc.owed.filter (fun k => groupOf (k / 4 / 2048 / 8192 / 16) == g)).foldl (fun (x : Die) k =>
    let x : Die := { x with rc := { x.rc with owed := x.rc.owed.filter (· != k) } }
    match x.slotRu k with
    | some q => x.reshipSlot g (x.ru q.1).handle k
    | none => x) d

/-- What a loaf slot holds now: the namespace and sector of each valid sector of it. -/
def Die.slotHolds (d : Die) (key : Nat) : List (Nat × Nat × Nat) :=
  let loaf := match d.rc.owner.find? (fun e => e.1 == key) with
    | some e => if d.stillMapped key then
        ((List.range 16).filter (fun i => ((d.ns e.2.1).entry e.2.2).vmask.getLsbD i)).map (fun i => (i, e.2.1, e.2.2 * 16 + i)) else []
    | none => []
  loaf ++ (d.liveCrumbs key).map (fun c => (((d.ns c.1).crumb c.2).sslot % 16, c.1, c.2))

/-- What a loaf slot of a block holds, under whatever names the map has for the block (R262). -/
def Die.placeHolds (d : Die) (bk pu slot : Nat) : List (Nat × Nat × Nat) :=
  (d.rc.blockNames bk).flatMap (fun b => d.slotHolds ((b * 2048 + pu) * 4 + slot))

/-- R253: the positions that a stop left recorded as missing: their valid data is reconstructed as for a lost member and written to open
rows. -/
def Die.rewriteLost (d : Die) (unread : Decodes) (g : Nat) : Die :=
  (d.rc.rewrite.filter (fun k => groupOf (k / 4 / 2048 / 8192 / 16) == g)).foldl (fun (x : Die) k =>
    let x : Die := { x with rc := { x.rc with rewrite := x.rc.rewrite.filter (· != k) } }
    match x.slotRu k with
    | some q =>
      let x := ((x.slotHolds k).filter (fun h => !(x.ns h.2.1).isPoisoned h.2.2)).foldl (fun (y : Die) h =>
        y.readStored unread h.2.1 h.2.2 (Loc.ofKey k) h.1) x
      x.reshipSlot g (x.ru q.1).handle k
    | none => x) d

/-! ## Collection (R170 to R172, R176) -/

/-- Data sectors an RU can hold. -/
def Die.ruSectors (d : Die) (r : Nat) : Nat := (d.ru r).k * d.pusPerBlock (d.ru r).group * 48

/-- Wear of an RU (R175): the highest erase count among its blocks. -/
def Die.ruWear (d : Die) (r : Nat) : Nat :=
  greatestOf ((d.ru r).members.map (fun m => (d.block (blockKey m.port m.die m.block)).ec))

/-- The CLOSED RUs of a group that may be chosen (R171). -/
def Die.candidates (d : Die) (g : Nat) : List Nat :=
  (d.rc.rus.filter (fun e => e.2.st == .closed && e.2.group == g && e.2.rebuild.isEmpty)).map (fun e => e.1)

/-- The best of a list by a strict order. -/
def best (better : Nat → Nat → Bool) (l : List Nat) : Option Nat :=
  l.foldl (fun a r => match a with | none => some r | some b => if better r b then some r else some b) none

/-- R171: lowest valid fraction, the oldest among equals. -/
def Die.greedy (d : Die) (a b : Nat) : Bool :=
  let x := d.validCount a * d.ruSectors b
  let y := d.validCount b * d.ruSectors a
  decide (x < y) || (x == y && decide ((d.ru a).closedAt < (d.ru b).closedAt))

/-- R171: greatest (1 - u) x age ÷ (1 + u). -/
def Die.costBenefit (d : Die) (a b : Nat) : Bool :=
  let score := fun (r : Nat) => ((d.ruSectors r - d.validCount r) * (d.now - (d.ru r).closedAt), d.ruSectors r + d.validCount r)
  decide ((score b).1 * (score a).2 < (score a).1 * (score b).2)

/-- Whether the spread of erase counts of a group exceeds the profile's limit (R176). -/
def Die.spreadExceeded (d : Die) (g : Nat) : Bool :=
  let ec := d.eraseCounts g
  decide (d.gcProf.wearSpread < ec.2.2 - ec.1)

/-- R171, R176: the next victim; none where no CLOSED RU holds invalid data and wear asks for none. -/
def Die.chooseVictim (d : Die) (g : Nat) : Option Nat :=
  let cs := d.candidates g
  if d.spreadExceeded g && (d.group g).victims % 64 == 63 then best (fun a b => decide (d.ruWear a < d.ruWear b)) cs
  else best (if d.gcProf.costBenefit then d.costBenefit else d.greedy) (cs.filter (fun r => decide (d.validCount r < d.ruSectors r)))

/-- Whether GC runs in a group (R171): below GC start, until FREE RUs are 1 % above it. -/
def Die.gcRuns (d : Die) (g : Nat) : Bool :=
  let f := d.freeRus g * 1000
  let t := d.totalRus g
  if (d.group g).gc then decide (f < (d.gcProf.gcStart + 10) * t) else decide (f < d.gcProf.gcStart * t)

/-- The erases that an RU still owes queued at the berths that serve and hold none of them yet; a block of a berth that is the RU's no
more is given up (DEDUCED, log entry 202), one of a berth that is away waits for it (R170, R172). -/
def Die.queueErases (d : Die) (r : Nat) : Die :=
  let u := d.ru r
  let asked := fun (i : Nat) (o : DieOp) => o.what == .erase r i
  u.toErase.foldl (fun (x : Die) i => match u.members[i]? with
    | some m =>
      if x.portServes m.port then
        if x.sch.queued.any (asked i) || (x.port m.port).outst.any (asked i) || (x.port m.port).cmds.any (asked i) then x
        else x.queueOp { port := m.port, die := m.die, op := opErase, block := m.block, mp := true, tenant := tReclaim u.group, what := .erase r i }
      else if (Tbl.get none x.se.missing m.port).isSome then x
      else x.updRu r (fun u => { u with toErase := u.toErase.filter (· != i) })
    | none => x) d

/-- An RU's collection taken one stage on, where what the stage waits for is durable (R172). -/
def Die.stageRu (d : Die) (r : Nat) : Die :=
  let u := d.ru r
  if u.stage = 0 then
    if u.st = .collecting ∧ d.validCount r = 0 then d.updRu r (fun u => { u with stage := 1, mark := d.journalMark }) else d
  else if u.stage = 1 then
    if d.durableTo u.mark then
      let d := d.journal (.pendingErase r)
      d.updRu r (fun u => { u with stage := 2, mark := d.journalMark })
    else d
  else if u.stage = 2 then
    if d.durableTo u.mark then
      let ix := (List.range u.members.length).filter (fun i => match u.members[i]? with
        | some m => (d.block (blockKey m.port m.die m.block)).st == .inRu r
        | none => false)
      (d.updRu r (fun u => { u with st := .pendingErase, stage := 3, toErase := ix })).queueErases r
    else d
  else if u.stage = 3 then
    let d := d.queueErases r
    if (d.ru r).toErase.isEmpty then
      let d := d.journal (.erased r)
      d.updRu r (fun u => { u with stage := 4, mark := d.journalMark })
    else d
  else if d.durableTo u.mark then (({ d with rc := d.rc.freeRu r } : Die).checkGroup u.group false).clearEmptyGroup u.group
  else d

/-- Every RU under collection of a group taken as far as it can go now. -/
def Die.stageAllRus (d : Die) (g : Nat) : Die :=
  (d.rc.rus.filter (fun e => e.2.group == g && (e.2.st == .collecting || e.2.st == .pendingErase))).foldl (fun x e => x.stageRu e.1) d

/-- CLOSED RUs whose valid count is 0 move to COLLECTING (R170). -/
def Die.collectEmpty (d : Die) (g : Nat) : Die :=
  ((d.candidates g).filter (fun r => d.validCount r == 0)).foldl (fun x r => x.updRu r (fun u => { u with st := .collecting, stage := 0 })) d

/-- R177: the block of a group that is refreshed next, the most urgent first. -/
def Die.nextRefresh (d : Die) (g : Nat) : Option Nat :=
  ((d.rc.refresh.filter (fun e => groupOf (e.1 / 8192 / 16) == g)).foldl (fun a e => match a with
    | none => some e
    | some b => if b.2 < e.2 then some e else some b) none).map (fun e => e.1)

/-- Whether nothing valid of a block is left to copy. -/
def Die.blockMoved (d : Die) (key : Nat) : Bool :=
  let mine := fun (k : Nat) => d.resolveBlock (k / 8192) == key
  d.rc.owner.all (fun e => !mine e.1 || !d.stillMapped e.1 || d.moving e.2.1 e.2.2 0)
    && d.rc.crumbSlots.all (fun e => !mine e.1 || (d.liveCrumbs e.1).all (fun c =>
      d.rc.moves.any (fun m => m.2.kind == 2 && m.2.crumbs.any (fun y => y.1 == c.1 && y.2.1 == c.2))))

/-- One block refreshed: its valid data moved; it leaves the queue and counts once all of it is on its way (R177, R186). -/
def Die.refreshOne (d : Die) (unread : Decodes) (g key : Nat) : Die :=
  match d.ruOfBlock key with
  | some x =>
    let d := d.moveBlocks unread g (d.ru x.1).handle [key]
    if d.blockMoved key then
      ({ d with rc := { d.rc with refresh := Tbl.del d.rc.refresh key } } : Die).updGroup g (fun x => { x with refreshed := x.refreshed + 1 })
    else d
  | none => { d with rc := { d.rc with refresh := Tbl.del d.rc.refresh key } }

/-- Blocks that a rebuild broken off wrote in part queued for their erase at the berths of a group that serve (R262). -/
def Die.eraseParts (d : Die) (g : Nat) : Die :=
  (d.se.partly.filter (fun e => groupOf (e.1 / 8192 / 16) == g)).foldl (fun (x : Die) e =>
    let p := e.1 / 8192 / 16
    let asked := fun (o : DieOp) => o.what == .erasePart && o.port == p && o.die == e.1 / 8192 % 16 && o.block == e.1 % 8192
    if !x.portServes p || x.sch.queued.any asked || (x.port p).outst.any asked || (x.port p).cmds.any asked then x
    else x.queueOp { port := p, die := e.1 / 8192 % 16, op := opErase, block := e.1 % 8192, mp := true, tenant := tReclaim g, what := .erasePart }) d

/-- GC_PASS: what is durable moves on, refresh goes first, then a victim is chosen and its valid data copied; where nothing
can be collected and the reserve is short the group becomes READ_ONLY (R171, R172, R177, R181). -/
def Die.gcPass (d : Die) (g : Nat) (unread : Decodes) : Die :=
  if (d.group g).formed = false then d
  else
    let d := ((((d.shipOwed g).rewriteLost unread g).eraseParts g).stageAllRus g).collectEmpty g
    match d.nextRefresh g with
    | some key => d.refreshOne unread g key
    | none =>
      let runs := d.gcRuns g
      let d := d.updGroup g (fun x => { x with gc := runs })
      let going := (d.rc.rus.filter (fun e => e.2.group == g && e.2.st == .collecting && e.2.stage == 0)).map (fun e => e.1)
      match going with
      | r :: _ => (d.moveBlocks unread g (d.ru r).handle ((d.ru r).members.map (fun m => blockKey m.port m.die m.block))).stageRu r
      | [] =>
        if runs then
          match d.chooseVictim g with
          | some r =>
            let u := d.ru r
            let d := d.updRu r (fun u => { u with st := .collecting, stage := 0 })
            let d := d.updGroup g (fun x => { x with victims := (x.victims + 1) % 65536, victim := some (d.validCount r, d.ruSectors r) })
            d.moveBlocks unread g u.handle (u.members.map (fun m => blockKey m.port m.die m.block))
          | none => if d.freeRus g < Config.gcReserve ∧ (d.group g).ro = none
              ∧ (d.rc.rus.any (fun e => e.2.group == g && (e.2.st == .collecting || e.2.st == .pendingErase))) = false then
              (d.groupReadOnly g .gc).progress
            else d
        else d

/-! ## Folds (R163) -/

/-- R163: the urgent state of the fold scanner, above 90 % of the crumb limit until below 80 %. -/
def Die.foldState (d : Die) : Die :=
  let c := d.crumbCount
  let l := d.crumbLimit
  { d with te := { d.te with foldUrgent := if l * 90 < c * 100 then true else if c * 100 < l * 80 then false else d.te.foldUrgent } }

/-- One loaf folded: every current sector read and one whole loaf shipped, which is mapped when it passes (R163, R164). It goes to the handle
of the write that made the loaf (DESIGN CHOICE, log entry 201). -/
def Die.fold (d : Die) (unread : Decodes) (nsid l : Nat) (cs : Tbl Crumb) : Die :=
  let n := d.ns nsid
  let e := n.entry l
  let d := d.lookUp nsid true {} (l * 16)
  d.throughTray 4 0 0 3 (fun d =>
      let d := d.readAll unread nsid ((List.range 16).map (fun i => l * 16 + i))
      let n := d.ns nsid
      let dst := Tbl.get (n.ruh 0, none) n.dest l
      match d.rotate nsid dst with
      | none => d
      | some (g, d') =>
        let secs := (List.range 16).filterMap (fun i => match n.locate (l * 16 + i) with
          | .zeros => none
          | .poisoned => some (i, ({} : Sector))
          | p => some (i, d.sectorAt p))
        match d'.ship g dst.1 .host n.owner 3 secs with
        | none => d
        | some (loc, d) =>
          { d with rc := { d.rc with
            owner := Tbl.set d.rc.owner loc.key (nsid, l)
            moves := Tbl.set d.rc.moves loc.key { kind := 1, ns := nsid, loaf := l, was := e, crumbs := cs.map (fun c => (nsid, c.1, c.2)) } } })

/-- FOLD_SCAN: the scanner visits one loaf with crumbs, once in a fold period unless it is urgent: its HEAT goes down, or it is folded
(R163). -/
def Die.foldScan (d : Die) (nsid l : Nat) (unread : Decodes) : Die :=
  let d := d.foldState
  let n := d.ns nsid
  let e := n.entry l
  let cs := n.crumbs.filter (fun c => c.1 / 16 == l && c.2.st != .free)
  let due := d.te.foldUrgent || match n.foldAt.find? (fun v => v.1 == l) with
    | some v => decide (v.2 + d.gcProf.foldPeriod * 1000000 ≤ d.now)
    | none => true
  if n.alive = false ∨ cs.isEmpty = true ∨ due = false then d
  else
    let d := d.updNs nsid (fun n => { n with foldAt := Tbl.set n.foldAt l d.now })
    if 0 < e.heat ∧ ¬(d.te.foldUrgent = true ∧ e.heat ≤ 1) then
      d.updNs nsid (fun n => { n with map := Tbl.upd {} n.map l (fun e => { e with heat := e.heat - 1 }) })
    else if d.moving nsid l 1 then d
    else d.fold unread nsid l cs

/-! ## Patrol and scrub (R266 to R268) -/

/-- Whether a code word lies in the scope of the scrub on command (R267): a namespace, zone range or LBA range takes only the
code words that hold its data. -/
def Die.inScrub (d : Die) (port bk pu cw : Nat) : Bool :=
  let s := d.se.scrub
  s.st == 1 && match s.scope with
    | 0 => true
    | 1 => groupOf port == s.target
    | 2 => port == s.target
    | _ => (d.placeHolds bk pu (cw / 16)).any (fun h => h.1 == cw % 16 && h.2.1 == s.target && (s.scope == 3 ||
        (let n := d.ns h.2.1
         let lba := h.2.2 * n.lbasPerSector
         if s.scope = 4 then decide (n.zoneOf s.first ≤ n.zoneOf lba) && decide (n.zoneOf lba < n.zoneOf s.first + s.count)
         else decide (s.first < lba + n.lbasPerSector) && decide (lba < s.first + s.count))))

def Die.updScrub (d : Die) (f : Scrub → Scrub) : Die := { d with se := { d.se with scrub := f d.se.scrub } }

/-- One sector found beyond recovery by patrol or scrub is poisoned, a poisoned one only counted (R268). -/
def Die.patrolLost (d : Die) (port die block pu cw : Nat) (scrubbed : Bool) : Die :=
  ((d.placeHolds (blockKey port die block) pu (cw / 16)).filter (fun h => h.1 == cw % 16 && !(d.ns h.2.1).isPoisoned h.2.2)).foldl (fun x h =>
    let x := x.poison h.2.1 h.2.2 port die block
    if scrubbed then x.updScrub (fun s => { s with poisoned := s.poisoned + 1 }) else x) d

/-- A block queued for refresh by patrol or scrub; REFRESHED counts each block newly queued (R269). -/
def Die.patrolRefresh (d : Die) (bk prio : Nat) (scrubbed : Bool) : Die :=
  let new := !Tbl.has d.rc.refresh bk
  let d := d.refreshBlock bk prio
  if scrubbed && new then d.updScrub (fun s => { s with refreshed := s.refreshed + 1 }) else d

/-- A row whose parity a scrub has found unreadable or in disagreement counted, once (R269). -/
def Scrub.countBad (s : Scrub) (r row : Nat) : Scrub :=
  if s.badRows.contains (r, row) then s else { s with badRows := (r, row) :: s.badRows, parityBad := s.parityBad + 1 }

/-- A parity PU that fails the ladder, or P or Q that disagrees with the data: its RU is collected at refresh priority, with a WARNING
(R268). -/
def Die.parityBad (d : Die) (r row : Nat) (scrubbed : Bool) : Die :=
  let u := d.ru r
  let d := d.record 0x0603 sevWarning r (le 1 u.group ++ le 4 r ++ le 2 row)
  let d := if scrubbed then d.updScrub (fun s => s.countBad r row) else d
  u.members.foldl (fun x m => x.patrolRefresh (blockKey m.port m.die m.block) 0 scrubbed) d

/-- MEDIA_PATROL: one code word of a programmed PU read and decoded by patrol, which passes over DRAINING berths, or by a scrub in whose scope
it lies. A converged count beyond the hard-decision limit is a soft-decision success. cw counts the 48 code words of the PU (R239); unread:
the sources of a reconstruction that fail. agrees: whether P and Q of a row agree with its data, which a scrub in PARITY mode checks of a
closed row. -/
def Die.mediaPatrol (d : Die) (port die block pu cw : Nat) (unread : Decodes) (o : DecodeOutcome) (agrees : Bool) : Die :=
  let bk := blockKey port die block
  match d.ruOfBlock bk with
  | some (r, pos) =>
    let u := d.ru r
    let sc := d.inScrub port bk pu cw
    let served := (d.port port).st == .online || ((d.port port).st == .draining && sc)
    if served = true ∧ cw < 48 ∧ (u.st = .closed ∨ u.st = .opened) ∧ u.passed.contains (pu * 64 + pos) = true then
      let act := !sc || d.se.scrub.mode != 0
      let d := d.countPage port die block
      let d := if sc then d.updScrub (fun s => { s with cwRead := s.cwRead + 1 }) else d
      let refresh := fun (x : Die) (p : Nat) => if act then x.patrolRefresh bk p sc else x
      let parity := pos == posP u.k pu || pos == posQ u.k pu
      match o with
      | .converged n =>
        let d := if parity && !agrees && sc && d.se.scrub.mode == 2 && (u.st == .closed || decide (pu < u.row)) then d.parityBad r pu sc else d
        if n ≤ 96 then d
        else if n ≤ 160 then refresh d 0
        else refresh (if sc then d.updScrub (fun s => { s with soft := s.soft + 1 }) else d) 1
      | .failed =>
        if parity then (if act then d.parityBad r pu sc else d.updScrub (fun s => s.countBad r pu))
        else match d.reconOwn unread r pu pos (cw / 16) (cw % 16) with
          | some d => refresh (if sc then d.updScrub (fun s => { s with recon := s.recon + 1 }) else d) 2
          | none => d.patrolLost port die block pu cw sc
    else d
  | none => d

/-- The retention interval of a berth, µs, at the temperature of the die: the passport's, or 180 days at 40 °C (R177). How it is scaled
by temperature the spec leaves open (log entry 159). -/
def Die.retention (d : Die) (port : Nat) : Nat :=
  let days := match (d.port port).passport with | some x => if x.retentionDays = 0 then 180 else x.retentionDays | none => 180
  days * 86400000000 * Config.retentionScale d.aon.composite / 1000

/-- RETENTION_REFRESH_DUE: the retention interval of a programmed block has passed (R177). -/
def Die.retentionDue (d : Die) (port die block : Nat) : Die :=
  let key := blockKey port die block
  if (d.ruOfBlock key).isSome = true ∧ (d.block key).prog + d.retention port ≤ d.now then d.refreshBlock key 0 else d

/-! ## The accounting window (R33, R275, R286, R300 to R303) -/

/-- R300: a tenant active in the window that begins. -/
def Die.wasActive (d : Die) (t : Nat) : Bool :=
  (d.tenant t).touched || !(d.tagsOf t).isEmpty || (d.fn t).sqs.any (fun q => q.2.size != 0 && q.2.head != q.2.tail)

/-- Whether a tenant has work at the very start of a window. -/
def Die.busyNow (d : Die) (t : Nat) : Bool :=
  !(d.tagsOf t).isEmpty || (d.fn t).sqs.any (fun q => q.2.size != 0 && q.2.head != q.2.tail)

/-- R302, R303: one credit at the start of a window: a budget newly set starts full, another grows by one allowance; both are
clamped, and a budget of 0 is removed. -/
def nextCredit (credit : Int) (was now burst : Nat) (unit : Nat) : Int :=
  let top : Int := Int.ofNat (burst * now * unit)
  if now = 0 then 0 else if was = 0 then top else min top (credit + Int.ofNat (now * unit))

/-- A tenant's record comes into force, and its credits grow (R303). -/
def Tenant.window (t : Tenant) (active touched : Bool) (w : Nat) : Tenant :=
  let f : InForce := { cls := t.cls, share := t.share, resmin := t.resmin, rd := t.rd, wr := t.wr, kiops := t.kiops, burst := t.burst }
  let t := { t with
    crRd := nextCredit t.crRd t.force.rd t.rd t.burst 1000, crWr := nextCredit t.crWr t.force.wr t.wr t.burst 1000
    crCmd := nextCredit t.crCmd t.force.kiops t.kiops t.burst 1, force := f
    wLast := if t.active then w else 0, active := active, touched := touched }
  { t with held := (t.held + bit t.heldByBudget) % 2 ^ 32 }

/-- R300: the weights of the active tenants, scaled into the range of R275. -/
def weightsOf (act : List (Nat × Tenant)) : Tbl Nat :=
  let p := sumBy (fun e => e.2.share) act
  let r := sumBy (fun e => e.2.resmin) act
  let raw := act.map (fun e => (e.1, max e.2.share (ceilDiv (e.2.resmin * p) (max 1 (10000 - r)))))
  let m := greatestOf (raw.map (fun e => e.2))
  if 65535 < m then raw.map (fun e => (e.1, max 1 (ceilDiv (e.2 * 65535) m))) else raw

/-- Minimum share of rebuild and drain by profile, % (R263). -/
def rebuildShare (p : Nat) : Nat := if p = 0 ∨ p = 3 then 10 else 25

/-- R286: the weight of a group's RECLAIM tenant. -/
def Die.reclaimWeight (d : Die) (g : Nat) : Nat :=
  let f := d.freeRus g * 1000
  let s := d.prof.gcStart * d.totalRus g
  let u := d.prof.gcUrgent * d.totalRus g
  if s ≤ f then 4
  else if f ≤ u then d.prof.wUrgent
  else d.prof.wStart + (d.prof.wUrgent - d.prof.wStart) * (s - f) / (s - u)

/-- R286: the sectors of host writes that intake admits in a group below GC urgent in a window. -/
def Die.writeLimit (d : Die) (g : Nat) : Option Nat :=
  let x := d.group g
  if x.formed && decide (d.freeRus g * 1000 < d.prof.gcUrgent * d.totalRus g) then
    match x.victim with
    | some v => if v.1 = 0 then none else some (16 * (v.2 - v.1) * x.gcCopied / v.1)
    | none => none
  else none

/-! ## Sectors held under a slot (R319) -/

/-- The sectors of a namespace that have media. -/
def Ns.onMedia (n : Ns) : List (Nat × Loc × Nat) :=
  ((n.map.flatMap (fun (m : Nat × LoafEntry) => ((List.range 16).filter (fun i => m.2.vmask.getLsbD i)).map (fun i => m.1 * 16 + i)))
    ++ n.crumbs.map (fun (c : Nat × Crumb) => c.1)).filterMap (fun x => match n.locate x with
      | .media l i => some (x, l, i)
      | _ => none)

/-- Sectors on the media under a slot: namespace and sector. -/
def Die.mediaUnder (d : Die) (k : Nat) : List (Nat × Nat) :=
  d.nss.flatMap (fun (e : Nat × Ns) => if e.2.alive && e.2.owner == k / 2 then
    (e.2.onMedia.filter (fun x => (d.mediaGet (secKey x.2.1.key x.2.2)).md.kslot == k)).map (fun x => (e.1, x.1)) else [])

/-- Sectors in the proofing area under a slot, by proofing address: heels, staged sectors. -/
def Die.proofUnder (d : Die) (k : Nat) : List (Nat × Sector) :=
  d.te.proof.filter (fun (e : Nat × Sector) => e.2.md.kslot == k && !e.2.poison && (d.ns (e.2.md.nsx + 1)).owner == k / 2 && (d.ns (e.2.md.nsx + 1)).alive)

/-- Sectors held under a slot (R319, R332). -/
def Die.keySectors (d : Die) (k : Nat) : Nat := (d.mediaUnder k).length + (d.proofUnder k).length

/-- The reclaim-capacity summary that a worker gives its manager (R126): user capacity, power state, formed groups, and the sectors
allocated of each namespace, and of each key slot its epoch, next counter and sectors (R332). It goes at each accounting window (DESIGN CHOICE, log entry 164). -/
def Die.sendSummary (d : Die) : Die :=
  d.quayMgmtSend d.life.quayId (.summary (sumBy (fun e => e.2.userCap) d.rc.groups) d.aon.pstate
    ((List.range 8).foldl (fun (m : BitVec 8) g => if (d.group g).formed then m ||| BitVec.ofNat 8 (2 ^ g) else m) 0)
    ((d.nss.filter (fun (e : Nat × Ns) => e.2.alive)).map (fun e => (e.1, e.2.allocated)))
    ((d.cl.slots.filter (fun (e : Nat × Slot) => e.2.st != .empty)).map (fun e => (e.1, e.2.epoch, e.2.next, d.keySectors e.1))))

/-- R495: every 1 ms a manager sends a TIME message on each of its links that is up, unless its island sleeps. -/
def Die.sendTime (d : Die) : Die :=
  ((d.ql.pos.filter (fun (e : Nat × Pos) => e.1 % 4 == 0 && e.2.lanes != 0 && !d.life.gated.contains (48 + e.1 / 4))).map (fun e => e.1)).foldl
    (fun (x : Die) p => x.quaySend p quayTime x.now) d

/-- ACCOUNTING_WINDOW: a 1 ms window begins; a manager sends its weights to every worker, which applies them from the next (R496); a worker
sends its summary. -/
def Die.accountingWindow (d : Die) : Die :=
  let act := fun (t : Nat) => d.wasActive t
  let ws := if d.life.manager then weightsOf (d.tenants.filter (fun e => e.2.alive && act e.1)) else d.sch.wNext.getD d.sch.w
  let d' := { d with
    tenants := d.tenants.map (fun (e : Nat × Tenant) => if e.2.alive then (e.1, e.2.window (act e.1) (d.busyNow e.1) (d.weight e.1)) else e)
    sch := { d.sch with
      w := ws, wNext := none, profile := d.sch.profileNext, readsPrev := d.sch.readsNow, readsNow := [], t4Now := [], admitted := 0
      limit := d.admissionLimit, window := d.sch.window + 1
      dies := Tbl.mapVals (fun _ (s : DieSch) => { s with throttled := s.throttled - 10 * throttleFactor d.aon.step }) d.sch.dies } }
  let host := sumBy (fun e => e.2) ws
  let sh := rebuildShare d'.sch.profile
  let share := min 65535 (max 1 (ceilDiv (sh * host) (100 - sh)))
  let wi := ((List.range 8).map (fun g => (tReclaim g, d'.reclaimWeight g)))
    ++ [(tRebuild, if d'.se.rebuild.isEmpty then 1 else share), (tPatrol, if d'.se.scrub.st = 1 then share else 1), (tCheckpoint, 4)]
  let d' := { d' with sch := { d'.sch with wInt := wi, gcLimit := (List.range 8).map (fun g => (g, d'.writeLimit g)) } }
  let d' := (List.range 8).foldl (fun x g => if (x.group g).formed then x.updGroup g (fun y => { y with gcCopied := 0 }) else x) d'
  if d.life.manager then
    ((d.ql.pos.filter (fun (e : Nat × Pos) => e.2.st == .serving)).map (fun e => e.1)).foldl (fun (x : Die) p => x.quayMgmtSend p (.weights ws)) d'.sendTime
  else d'.sendSummary

/-! ## The meanings -/

/-- JOURNAL_SEGMENT_WRITE (R166). -/
def execJournalSegmentWrite (s : State) : Host.Outcome State Fault Refusal := s.run (·.segmentDue)
/-- JOURNAL_SEGMENT_DURABLE (R166). -/
def execJournalSegmentDurable (seg : Nat) (s : State) : Host.Outcome State Fault Refusal := s.run (fun d => (d.segmentDurable seg).progress)
/-- CHECKPOINT_CYCLE_START (R168). -/
def execCheckpointCycleStart (s : State) : Host.Outcome State Fault Refusal := s.run (·.cycleStart)
/-- CHECKPOINT_CYCLE_COMPLETE (R168). -/
def execCheckpointCycleComplete (s : State) : Host.Outcome State Fault Refusal := s.run (·.cycleComplete)
/-- GC_PASS (R172). -/
def execGcPass (group : Reading Nat) (s : State) : Host.Outcome State Fault Refusal := s.run (·.gcPass group.on group.unread)
/-- FOLD_SCAN (R163). -/
def execFoldScan (ns : Nat) (loaf : Reading Nat) (s : State) : Host.Outcome State Fault Refusal := s.run (·.foldScan ns loaf.on loaf.unread)
/-- MEDIA_PATROL (R266). -/
def execMediaPatrol (port die block pu : Nat) (cw : Reading Nat) (outcome : DecodeOutcome × Bool) (s : State) : Host.Outcome State Fault Refusal :=
  s.run (·.mediaPatrol port die block pu cw.on cw.unread outcome.1 outcome.2)
/-- RETENTION_REFRESH_DUE (R177). -/
def execRetentionRefreshDue (port die block : Nat) (s : State) : Host.Outcome State Fault Refusal := s.run (·.retentionDue port die block)
/-- ACCOUNTING_WINDOW (R300, R302). -/
def execAccountingWindow (s : State) : Host.Outcome State Fault Refusal := s.run (·.accountingWindow)

end Sys2Proof.Machine
end

