-- ==== Sys2Proof/Machine/Rows.lean ====
section
/-! DEFINITION. What happens to rows when a member fails or goes (R249 to R253, R259 to R265): recovery of a PU, closing of
the rows of a member that is gone, rejoin windows, rebuild and drain. -/

namespace Sys2Proof.Machine

/-! ## Recovery of a PU (R251, R253) -/

/-- The three loaf slots of a PU shipped again. -/
def Die.reshipPu (d : Die) (r row pos : Nat) : Die :=
  let u := d.ru r
  (u.slotKeys row pos).foldl (fun x k => x.reshipSlot u.group u.handle k) d

/-- What a PU put into the accumulators of its row taken out again (R251 step 4). -/
def Die.unfoldPu (d : Die) (r row pos : Nat) : Die :=
  (List.range 3).foldl (fun x s =>
    let u := x.ru r
    if u.loaded.contains ((row * 64 + pos) * 4 + s) then
      let loc := u.locOf row pos s
      let idx := u.dataIdx row pos
      x.updRu r (fun u => (List.range 16).foldl (fun u i => u.fold row idx (s * 16 + i) (x.mediaGet (secKey loc.key i)).info) u)
    else x) d

/-- An operation that a berth took with it: reads go to reconstruction, sources are chosen anew (R272), the rest is recovered with
its row (R223). -/
def Die.loseOp (d : Die) (o : DieOp) : Die :=
  match o.what with
  | .readSec js => js.foldl (fun x j => match x.job j.2 with
      | some y => if y.stage == .wait then x.startRecon j.2 y 1 else x
      | none => x) d
  | .recon jn p => match d.job jn with
      | some y => if y.stage == .recon then d.reconAnew jn { y with srcs := y.srcs.filter (fun s => s.pos != p) } else d
      | none => d
  | _ => d

/-- Source reads that wait at a position of a row dropped, and the sources of their reconstructions chosen anew. -/
def Die.dropSources (d : Die) (r row pos : Nat) : Die :=
  match (d.ru r).members[pos]? with
  | some m =>
    let mine := fun (o : DieOp) => (match o.what with | .recon _ _ => true | _ => false) && o.port == m.port && o.die == m.die && o.block == m.block && o.pu == row
    let ops := d.sch.queued.filter mine
    ops.foldl (fun (x : Die) o => x.loseOp o) { d with sch := { d.sch with queued := d.sch.queued.filter (fun o => !mine o) } }
  | none => d

/-- Whether an operation loads or programs a position of a row. -/
def DieOp.fills (o : DieOp) (r row pos : Nat) : Bool :=
  o.pu == row && (o.what == .progPu r pos
    || (List.range 3).any (fun s => o.what == .shipLoaf r pos s || o.what == .fill r pos s || o.what == .shipPar r pos s))

/-- What is queued for a position of a row, and not issued, given up. -/
def Die.dropFills (d : Die) (r row pos : Nat) : Die :=
  { d with sch := { d.sch with queued := d.sch.queued.filter (fun o => !o.fills r row pos) } }

/-- A position of an open row becomes a hole, and its block is retired with the PUs written earlier in it moved at once; after a
reset it is not retired (R217, R251 step 7). -/
def Die.holeAt (d : Die) (r row pos : Nat) (retire : Bool) : Die :=
  let u := d.ru r
  match u.members[pos]? with
  | none => d
  | some m =>
    let d := ((d.dropFills r row pos).updRu r (fun u => { u with holes := (pos, row) :: u.holes })).dropSources r row pos
    if retire then (d.refreshBlock (blockKey m.port m.die m.block) 2).retireBlock m.port m.die m.block 1 else d

/-- R251 steps 3 to 7: one failed PU recovered: what it put into the accumulators taken out, its loaves shipped to other slots. -/
def Die.recoverPu (d : Die) (r row pos : Nat) (retire : Bool) : Die :=
  (if ((d.ru r).dataPos row).contains pos then (d.unfoldPu r row pos).reshipPu r row pos else d).holeAt r row pos retire

/-- R252: a PU that leaves a third unknown in its row: its sectors that only it held are poisoned. Crumbs keep their staged copy, and a
move keeps its source. -/
def Die.losePu (d : Die) (r row pos : Nat) (retire : Bool) : Die :=
  let d := ((d.ru r).slotKeys row pos).foldl (fun (x : Die) k =>
    let x := match x.rc.owner.find? (fun o => o.1 == k) with
      | some o => if x.stillMapped k && ((x.ns o.2.1).entry o.2.2).typ == .inflight then
          (x.poisonSlot k).updNs o.2.1 (fun n => { n with map := Tbl.upd {} n.map o.2.2 (fun e => { e with typ := .loaf }) }) else x
      | none => x
    let x := (Tbl.get [] x.rc.crumbSlots k).foldl (fun (y : Die) c => y.updNs c.1 (fun n =>
      if (n.crumb c.2).st == .staged && (n.crumb c.2).loc.key / 4 == k / 4 then
        { n with crumbs := Tbl.upd {} n.crumbs c.2 (fun e => { e with loc := {}, sslot := 0 }) } else n)) x
    { x with rc := { x.rc with moves := Tbl.del x.rc.moves k } }) (d.unfoldPu r row pos)
  d.holeAt r row pos retire

/-- R251 step 2, R252: every other data PU of a row that has passed read back through the decode ladder, beside n that failed. A code word that
does not decode is an unknown: the second of its row is solved with Q, and its block refreshed; beyond two it leaves three unknowns and its
sector is poisoned. -/
def Die.readBack (d : Die) (unread : Decodes) (r row n : Nat) : Die :=
  let u := d.ru r
  let ps := (u.usePos row).filter (fun p => u.passed.contains (row * 64 + p))
  let d := ps.foldl (fun (x : Die) p => match u.members[p]? with
    | some m => (List.range 3).foldl (fun (y : Die) _ => y.countPage m.port m.die m.block) x
    | none => x) d
  (List.range 48).foldl (fun (x : Die) cw =>
    let key := fun (p : Nat) => secKey (u.locOf row p (cw / 16)).key (cw % 16)
    let x := ps.foldl (fun (y : Die) p => match u.members[p]? with
      | some m => y.noteDecode unread (blockKey m.port m.die m.block) (key p)
      | none => y) x
    ((ps.filter (fun p => unread.failed.contains (key p))).zipIdx).foldl (fun (y : Die) q => match u.members[q.1]? with
      | some m => if 2 ≤ n + q.2 then y.patrolLost m.port m.die m.block row cw false else y.refreshBlock (blockKey m.port m.die m.block) 2
      | none => y) x) d

/-- R251 step 2: once every other loaded data PU of the open row has passed or failed, they are read back and the failed ones are recovered:
two of them with P and Q, a third leaves three unknowns (R252). unread: the readbacks that fail. -/
def Die.recoverDue (d : Die) (r : Nat) (unread : Decodes) : Die :=
  let u := d.ru r
  let full := fun (p : Nat) => (List.range 3).all (fun s => u.loaded.contains ((u.row * 64 + p) * 4 + s))
  if u.failing.isEmpty || (u.usePos u.row).any (fun p => u.waitsFor u.row p && full p && !u.passed.contains (u.row * 64 + p)
      && !u.failing.any (fun f => f.1 == p)) then d
  else
    let d := (d.readBack unread r u.row u.failing.length).updRu r (fun u => { u with failing := [], frozen := false })
    let d := (u.failing.take 2).foldl (fun (x : Die) f => x.recoverPu r u.row f.1 f.2) d
    let d := (u.failing.drop 2).foldl (fun (x : Die) f => x.losePu r u.row f.1 f.2) d
    (d.parityDue r u.row).rowDone r u.row

/-- R251 step 1: a program failure of one position: a data PU of the open row freezes its accumulators until it is recovered; a parity PU
leaves a hole. -/
def Die.progFail (d : Die) (r row pos : Nat) (retire : Bool) (unread : Decodes) : Die :=
  let u := d.ru r
  if u.st == .opened && u.row == row && (u.dataPos row).contains pos then
    if u.failing.any (fun f => f.1 == pos) || u.isHole row pos then d
    else (d.updRu r (fun u => { u with failing := u.failing ++ [(pos, retire)], frozen := true })).recoverDue r unread
  else (((d.recoverPu r row pos retire).parityDue r row).rowDone r row)

/-! ## A member that is gone (R259) -/

/-- A position of a row that holds nothing. -/
def Ru.unwrite (u : Ru) (row p : Nat) : Ru :=
  let m := (u.maskOf row).getD (2 ^ (u.k + 2) - 1)
  { u with short := (row, if m.testBit p then m - 2 ^ p else m) :: u.short.filter (fun e => e.1 != row) }

/-- A position of an open row whose member is gone: its loaves go to the handle's new RU; with something loaded and not passed it is recorded as
missing, and so is P or Q; where nothing was loaded it holds nothing (R253, R259). -/
def Die.dropAt (d : Die) (r pos row : Nat) : Die :=
  let u := d.ru r
  if u.passed.contains (row * 64 + pos) || u.isHole row pos then d
  else
    let d := if (u.dataPos row).contains pos then d.reshipPu r row pos else d
    let d := if !(u.dataPos row).contains pos || (List.range 3).any (fun s => u.loaded.contains ((row * 64 + pos) * 4 + s))
      then d.updRu r (fun u => { u with lost := (pos, row) :: u.lost }) else d.updRu r (fun u => u.unwrite row pos)
    d.dropSources r row pos

/-- One OPEN RU whose member at a position is gone: its handle opens a new RU, what the position's open rows held goes there, the rows
close short without it and the RU is CLOSED (R259). -/
def Die.dropPosition (d : Die) (r pos : Nat) : Die :=
  let d := (d.cutRow r true).leaveRu r
  let rows := ((d.ru r).openRows).filter (fun row => decide (row < (d.ru r).arow))
  (rows.foldl (fun (x : Die) row => x.dropAt r pos row) d).shutRu r

/-- Every OPEN RU with a member that a condition names closes (R249, R259). -/
def Die.dropMembers (d : Die) (f : Member → Bool) : Die :=
  (d.openRusWith (fun u => u.members.any f)).foldl (fun x r =>
    match (x.ru r).members.findIdx? f with
    | some pos => x.dropPosition r pos
    | none => x) d

/-- Every operation queued for or outstanding at the dies that a condition names ends as lost. -/
def Die.loseOps (d : Die) (p : Nat) (f : Nat → Bool) : Die :=
  let mine := fun (o : DieOp) => o.port == p && f o.die
  let ops := (d.port p).outst.filter mine ++ d.sch.queued.filter mine
  let d := { d with sch := { d.sch with
    queued := d.sch.queued.filter (fun o => !mine o)
    dies := d.sch.dies.map (fun (e : Nat × DieSch) => if e.1 / 16 == p && f (e.1 % 16) then (e.1, { e.2 with running := none, suspended := false, tunnel := false }) else e) } }
  let d := d.updPort p (fun x => { x with outst := x.outst.filter (fun o => !mine o) })
  ops.foldl (fun x o => x.loseOp o) d

/-! ## Rebuild and drain (R260 to R265) -/

/-- The positions of an RU whose member is gone, holes excepted. -/
def Die.goneCount (d : Die) (r : Nat) : Nat :=
  ((d.ru r).members.filter (fun m => d.memberGone r m || !d.portServes m.port)).length

/-- The RUs that hold a block of a port and need a replacement for it (R262). -/
def Die.rusOf (d : Die) (p : Nat) : List Nat :=
  (d.rc.rus.filter (fun e => (e.2.st == .closed || e.2.st == .opened) && e.2.members.any (fun m => m.port == p))).map (fun e => e.1)

/-- The RUs that still hold data with a block of a port: those, and the ones under collection (R228, R264). -/
def Die.rusHeld (d : Die) (p : Nat) : List Nat :=
  (d.rc.rus.filter (fun e => (e.2.st == .closed || e.2.st == .opened || e.2.st == .collecting) && e.2.members.any (fun m => m.port == p))).map (fun e => e.1)

/-- R260: a window ends: the membership generation goes up and the rebuild starts; RUs that miss two members come first,
then the oldest losses. -/
def Die.rejoinEnd (d : Die) (p : Nat) : Die :=
  match Tbl.get none d.se.missing p with
  | none => d
  | some m =>
    if m.windowEnd ≤ d.now then
      let rs := d.rusHeld p
      let two := fun (r : Nat) => decide (2 ≤ d.goneCount r)
      let mine := rs.map (fun r => (r, p))
      let old := d.se.rebuild.filter (fun e => !mine.contains e)
      let twoOf := fun (e : Nat × Nat) => two e.1
      let all := old ++ mine
      { d with se := { d.se with
        missing := Tbl.set d.se.missing p none
        mgen := Tbl.upd 0 d.se.mgen p (· + 1)
        rebuild := all.filter twoOf ++ all.filter (fun e => !twoOf e) } }
    else d

/-- R259: a berth becomes missing: its operations are lost, its open rows close, its window starts and is journalled, and the
group is looked at again. The port's state has been changed before. -/
def Die.goMissing (d : Die) (p windowS : Nat) : Die :=
  let d := { d with se := { d.se with missing := Tbl.set d.se.missing p (some { since := d.now, windowEnd := d.now + windowS * 1000000 }) } }
  let d := d.updPort p (fun x => { x with member := false })
  let d := (d.loseOps p (fun _ => true)).dropMembers (fun m => m.port == p)
  let d := ((d.journal (.rejoin p)).checkGroup (groupOf p) true).checkSpare
  (d.rejoinEnd p).progress

/-- The berth that a replacement block comes from (R262): of the group's ONLINE berths not in the RU's berth set the one with
the most free blocks, the lowest port on a tie. A berth that stands where a gone one stood is none of the set (R260). -/
def Die.replacementBerth (d : Die) (r : Nat) : Option Nat :=
  let u := d.ru r
  best (fun a b => decide (d.freeBlocks b < d.freeBlocks a))
    ((d.members u.group).filter (fun p => !u.members.any (fun m => m.port == p && !d.memberGone r m) && !u.rebuild.any (fun b => b.dst.port == p)
      && decide (0 < d.freeBlocks p)))

/-- A member's place taken by another block: the place's name in the map keeps naming the old block (R262). -/
def Die.substitute (d : Die) (r pos : Nat) (old new : Member) : Die :=
  let ok := blockKey old.port old.die old.block
  let nk := blockKey new.port new.die new.block
  let sub := if d.rc.subst.any (fun e => e.2 == ok) then d.rc.subst.map (fun (e : Nat × Nat) => if e.2 == ok then (e.1, nk) else e) else Tbl.set d.rc.subst ok nk
  let d := { d with rc := { d.rc with
    subst := sub
    parity := d.rc.parity.map (fun (e : Nat × BitVec 33280) => if e.1 / 16 / 8192 == ok then (e.1 - ok * 131072 + nk * 131072, e.2) else e) } }
  let d := d.updBlock ok (fun b => if b.st == BState.retired then b else { b with st := .free })
  d.updRu r (fun u => { u with
    members := u.members.map (fun m => if m == old then new else m)
    passed := ((u.lost.filter (fun l => l.1 == pos)).map (fun l => l.2 * 64 + pos)) ++ u.passed
    lost := u.lost.filter (fun l => l.1 != pos), rebuild := u.rebuild.filter (fun b => b.pos != pos) })

/-- R35: whether source reads of reconstructions wait at a berth of an RU: rebuild comes after them. -/
def Die.reconWaits (d : Die) (r : Nat) : Bool :=
  d.sch.queued.any (fun o => (match o.what with | .recon _ _ => true | _ => false) && (d.ru r).members.any (fun m => m.port == o.port))

/-! ## One position rebuilt or drained (R262, R264) -/

def Die.updRebuild (d : Die) (r pos : Nat) (f : Rebuild → Rebuild) : Die :=
  d.updRu r (fun u => { u with rebuild := u.rebuild.map (fun b => if b.pos == pos then f b else b) })

/-- A rebuild of a position broken off: its replacement block, written in part, is to be erased (R262). -/
def Die.rebuildBreak (d : Die) (r pos : Nat) : Die :=
  match (d.ru r).rebuild.find? (fun b => b.pos == pos) with
  | none => d
  | some b =>
    let bk := blockKey b.dst.port b.dst.die b.dst.block
    let mine := fun (o : DieOp) => o.what == .rebProg r pos || (List.range 3).any (fun s => o.what == .rebLoad r pos s)
    let d := d.updRu r (fun u => { u with rebuild := u.rebuild.filter (fun y => y.pos != pos) })
    let d := { d with sch := { d.sch with queued := d.sch.queued.filter (fun o => !mine o) } }
    if (d.block bk).st == .inRu r then { d with se := { d.se with partly := (bk, r) :: d.se.partly } } else d

/-- What a position of a row holds: something to reconstruct or copy (some true), filler (some false), or nothing (R262). -/
def Ru.rowKind (u : Ru) (row pos : Nat) : Option Bool :=
  let there := u.passed.contains (row * 64 + pos)
  if u.isHole row pos then none
  else if u.written row pos && (there || u.lost.contains (pos, row)) then some true
  else if there then some false else none

/-- One code word of a position that is rebuilt: copied from a berth that drains, else reconstructed (T5); sectors that nothing brings back
are poisoned (R258, R264, R265). -/
def Die.rebuildCw (d : Die) (unread : Decodes) (r pos row : Nat) (m : Member) (cw : Nat) : Die :=
  let u := d.ru r
  let loc := u.locOf row pos (cw / 16)
  let key := secKey loc.key (cw % 16)
  let bk := blockKey m.port m.die m.block
  let direct := d.readable { port := m.port, die := m.die, block := m.block } && !d.memberGone r m && !u.lost.contains (pos, row)
  let d := if direct && cw % 16 == 0 then d.countPage m.port m.die m.block else d
  if direct && !unread.failed.contains key then d.noteDecode unread bk key
  else match d.reconOwn unread r row pos (cw / 16) (cw % 16) with
    | some d => d
    | none => ((d.placeHolds bk row (cw / 16)).filter (fun h => h.1 == cw % 16 && !(d.ns h.2.1).isPoisoned h.2.2)).foldl (fun (x : Die) h =>
        x.poisonLost h.2.1 h.2.2 loc) d

/-- The next row of a position taken: its code words brought together, and its three loaf slots queued for the replacement block, as filler
where it is filler. With no row left RU_SUBST is journalled. -/
def Die.rebuildRow (d : Die) (unread : Decodes) (r : Nat) (b : Rebuild) : Die :=
  let u := d.ru r
  match (List.range' b.row (d.pusPerBlock u.group - b.row)).find? (fun row => (u.rowKind row b.pos).isSome), u.members[b.pos]? with
  | some row, some m =>
    let data := u.rowKind row b.pos == some true
    let d := if data then (List.range 48).foldl (fun (x : Die) cw => x.rebuildCw unread r b.pos row m cw) d else d
    (List.range 3).foldl (fun (x : Die) s => x.queueOp {
      port := b.dst.port, die := b.dst.die, op := if data then opLoad else opLoadZero, block := b.dst.block, pu := row, level := s, mp := true
      cwmask := 0xF, tenant := tRebuild, what := .rebLoad r b.pos s }) (d.updRebuild r b.pos (fun y => { y with row := row, slots := [], stage := 1 }))
  | _, _ =>
    let d := d.journal (.ruSubst r b.pos)
    d.updRebuild r b.pos (fun y => { y with stage := 2, mark := d.journalMark })

/-- One position of an RU taken one step on: the next row through a tray; the replacement takes the place once RU_SUBST is durable, and until
then reads of the member reconstruct (R262). A replacement block on a berth that no longer serves is given up. -/
def Die.rebuildStep (d : Die) (unread : Decodes) (r : Nat) (b : Rebuild) : Die :=
  if b.stage = 2 then
    if d.durableTo b.mark then
      match (d.ru r).members[b.pos]? with
      | some old =>
        let d := d.substitute r b.pos old b.dst
        ({ d with se := { d.se with rebuild := d.se.rebuild.filter (fun e => e != (r, b.port)) } } : Die).checkGroup (d.ru r).group false
      | none => d
    else d
  else if !((d.port b.dst.port).st == .online) || (d.port b.dst.port).dfence.getLsbD b.dst.die then d.rebuildBreak r b.pos
  else if b.stage = 0 then d.throughTray 6 r 0 4 (fun d => d.rebuildRow unread r b)
  else d

/-- A loaf slot of the row under rebuild loaded: with all three the PU is programmed. -/
def Die.rebuildLoaded (d : Die) (r pos slot : Nat) (o : DieOp) : Die :=
  let d := d.updRebuild r pos (fun b => if b.slots.contains slot then b else { b with slots := slot :: b.slots })
  if (d.ru r).rebuild.any (fun b => b.pos == pos && b.stage == 1 && b.slots.length == 3) then
    d.queueOp { port := o.port, die := o.die, op := opProgram, block := o.block, pu := o.pu, mp := true, tenant := tRebuild, what := .rebProg r pos }
  else d

/-- A row under rebuild has passed program, and is counted (R184, R262). -/
def Die.rebuildPassed (d : Die) (r pos : Nat) (o : DieOp) : Die :=
  (d.updRebuild r pos (fun b => if b.stage == 1 && b.row == o.pu then { b with stage := 0, row := o.pu + 1, slots := [] } else b)).countBytes
    (d.ru r).group (48 * 4096) 0

/-! ## RUs in their order -/

/-- Whether an RU can begin its rebuild: it is collected instead, or a berth has a replacement block for it; an open one closes first. -/
def Die.canBegin (d : Die) (r : Nat) : Bool :=
  let u := d.ru r
  u.rebuild.isEmpty && match u.st with
    | .opened => !u.retiring
    | .closed => decide (d.validCount r * 4 < d.ruSectors r) || ((d.replacementBerth r).bind d.pickBlock).isSome
    | _ => false

/-- The RU that is taken next: the first in the order that can begin (R262). -/
def Die.rebuildNext (d : Die) : Option Nat := (d.se.rebuild.find? (fun e => d.canBegin e.1)).map (fun e => e.1)

/-- The rebuild of a position of an RU begun on a replacement block (R262); one that a rebuild broken off has written in part is erased
first. -/
def Die.rebuildBegin (d : Die) (r p : Nat) : Die :=
  let u := d.ru r
  if u.rebuild.any (fun b => b.port == p) || d.se.partly.any (fun e => e.2 == r && d.portServes (e.1 / 8192 / 16)) then d
  else match u.members.findIdx? (fun m => m.port == p), (d.replacementBerth r).bind (fun q => (d.pickBlock q).map (fun b => ({ port := q, die := b.1, block := b.2 } : Member))) with
    | some pos, some new =>
      let d := d.updBlock (blockKey new.port new.die new.block) (fun b => { b with st := .inRu r, reads := 0, prog := d.now })
      d.updRu r (fun u => { u with rebuild := u.rebuild ++ [{ port := p, pos := pos, dst := new }] })
    | _, _ => d

/-- The entries of an RU that needs nothing more taken out of the order: it is collected, or holds no block of the port (R262). -/
def Die.rebuildNeeds (d : Die) (r p : Nat) : Bool :=
  let u := d.ru r
  (u.st == .opened || u.st == .closed || u.st == .collecting) && u.members.any (fun m => m.port == p)

/-- REBUILD_RU: one RU that holds a block of a missing or draining berth, taken in its order. An open one closes first. One whose valid fraction
is below 25 % is collected instead, and keeps its place in the order until it holds nothing; any other gets a replacement block, and every
position of it that is gone or drains goes one row on (R262, R264, R272). It comes after the reconstructions that wait for its berths
(R35). unread: the code words that fail on the way. -/
def Die.rebuildRu (d : Die) (r p : Nat) (unread : Decodes) : Die :=
  if !d.se.rebuild.contains (r, p) then d
  else if !d.rebuildNeeds r p then { d with se := { d.se with rebuild := d.se.rebuild.filter (fun e => e != (r, p)) } }
  else if d.reconWaits r || ((d.ru r).rebuild.isEmpty && d.rebuildNext != some r) then d
  else
    let u := d.ru r
    let d := d.eraseParts u.group
    if u.st == .opened then d.shutRu r
    else if u.st != .closed then d
    else if u.rebuild.isEmpty && decide (d.validCount r * 4 < d.ruSectors r) then d.updRu r (fun u => { u with st := .collecting, stage := 0 })
    else
      let d := ((d.se.rebuild.filter (fun e => e.1 == r)).map (fun e => e.2)).foldl (fun (x : Die) q => x.rebuildBegin r q) d
      (d.ru r).rebuild.foldl (fun (x : Die) b => x.rebuildStep unread r b) d

/-- REJOIN_WINDOW_END (R260). -/
def execRejoinWindowEnd (port : Nat) (s : State) : Host.Outcome State Fault Refusal := s.run (·.rejoinEnd port)
/-- REBUILD_RU (R262). -/
def execRebuildRu (ru : Nat) (port : Reading Nat) (s : State) : Host.Outcome State Fault Refusal := s.run (·.rebuildRu ru port.on port.unread)

end Sys2Proof.Machine
end

