-- ==== Sys2Proof/Machine/Wire.lean ====
section
/-! DEFINITION. What a berth port's lane carries (file 06): 130-bit blocks and the scrambler (R190), ordered sets and their bytes
(R191, R192, R194), and the bytes of the flits that the port sends (R198 to R201, R211). -/

namespace Sys2Proof.Machine

/-! ## Blocks and scrambling (R190) -/

/-- The seed of the LFSR. -/
def lfsrSeed : BitVec 23 := 0x1DBFBC#23

/-- One bit of the LFSR x²³ + x²¹ + x¹⁶ + x⁸ + x⁵ + x² + 1 (log entry 165). -/
def lfsrStep (x : BitVec 23) : BitVec 23 := (x <<< 1) ^^^ (if x.msb then 0x210125#23 else 0#23)

/-- The LFSR after some bits. -/
def lfsrAfter (x : BitVec 23) : Nat → BitVec 23
  | 0 => x
  | n + 1 => lfsrAfter (lfsrStep x) n

/-- One byte scrambled, least significant bit first. -/
def scrambleByte (x : BitVec 23) (b : Byte) : Byte :=
  (List.range 8).foldl (fun (a : Byte) i => if (lfsrAfter x i).msb then a ^^^ (1#8 <<< i) else a) b

/-- Data-block bytes scrambled, or descrambled, from a state of the LFSR on, which advances over each. -/
def scramble (x : BitVec 23) : List Byte → List Byte
  | [] => []
  | b :: r => scrambleByte x b :: scramble (lfsrAfter x 8) r

/-- The 130 bits of a block in order of transmission, the first in bit 0: the sync header, 1 then 0 for data and 0 then 1 for an ordered
set, then 16 bytes, each least significant bit first. -/
def blockBits (data : Bool) (bytes : List Byte) : BitVec 130 := BitVec.ofNat 130 ((if data then 1 else 2) + 4 * leVal (padTo 16 bytes))

/-- Bytes cut into pieces of 16, as many as a fuel allows. -/
def pieces16 : Nat → List Byte → List (List Byte)
  | 0, _ => []
  | n + 1, bs => bs.take 16 :: pieces16 n (bs.drop 16)

/-- The data blocks of a flit on a lane whose LFSR stands at a state (R198). -/
def flitBlocks (x : BitVec 23) (flit : List Byte) : List (BitVec 130) := (pieces16 (flit.length / 16) (scramble x flit)).map (blockBits true)

/-! ## Ordered sets (R191 to R194) -/

/-- The ordered sets. -/
inductive OrderedSet where
  | ts1 | ts2 | skp | eios | wake
deriving DecidableEq, Repr

/-- Byte 0 of an ordered-set block. -/
def OrderedSet.byte0 : OrderedSet → Byte
  | .ts1 => 0x1E
  | .ts2 => 0x2D
  | .skp => 0xAA
  | .eios => 0x66
  | .wake => 0x3C

/-- The ordered set that a byte 0 identifies; a set with any other is discarded (R191). A training set whose byte 0 arrives as its bit
inverse is one of an inverting lane (R196). -/
def OrderedSet.ofByte (b : Byte) : Option OrderedSet :=
  if b = 0x1E ∨ b = ~~~(0x1E#8) then some .ts1
  else if b = 0x2D ∨ b = ~~~(0x2D#8) then some .ts2
  else if b = 0xAA then some .skp
  else if b = 0x66 then some .eios
  else if b = 0x3C then some .wake
  else none

/-- XOR of some bytes: CHK of a training set (R194). -/
def xorBytes (bs : List Byte) : Byte := bs.foldl (fun a b => a ^^^ b) 0

/-- The TS1 or TS2 a port sends (R194), SRC = 0: BLP version 3, both rates. -/
def Port.tsBytes (x : Port) (p : Nat) (k : OrderedSet) : List Byte :=
  let body := k.byte0 :: le 1 3 ++ le 2 p ++ le 4 x.nonce ++ le 1 (x.presetReq % 16 + 16 * x.preset) ++ le 1 (3 + 4 * bit x.rxinv)
    ++ le 1 x.rxSeq ++ le 1 (bit (x.step == 9 && x.rate32)) ++ [0, 0, 0]
  body ++ [xorBytes body]

/-- What a receiver reads of a training set (R194, R196). -/
structure TsRead where
  ok : Bool
  inverted : Bool
  blpver : Nat
  src : Bool
  portId : Nat
  nonce : Nat
  presetReq : Nat
  presetUse : Nat
  rate32 : Bool
  rxinv : Bool
  nextRx : Nat
  eqDone : Bool
deriving DecidableEq, Repr

/-- The 16 bytes read: a set whose byte 0 arrives as its bit inverse is one of an inverting lane (R196); a wrong CHK is not ok. -/
def readTs (t : Ts) : TsRead :=
  let inv := (t.bytes[0]?).getD 0 == ~~~(0x1E#8) || (t.bytes[0]?).getD 0 == ~~~(0x2D#8)
  let b := if inv then t.bytes.map (fun v => ~~~v) else t.bytes
  { ok := xorBytes (b.take 15) == (b[15]?).getD 0 && b.length == 16, inverted := inv
    blpver := leAt b 1 1 % 128, src := leAt b 1 1 / 128 == 1, portId := leAt b 2 2, nonce := leAt b 4 4
    presetReq := leAt b 8 1 % 16, presetUse := leAt b 8 1 / 16, rate32 := leAt b 9 1 / 2 % 2 == 1, rxinv := leAt b 9 1 / 4 % 2 == 1
    nextRx := leAt b 10 1, eqDone := leAt b 11 1 % 2 == 1 }

/-- Bytes 1 to 15 of an EIOS, which the spec leaves open. -/
def eiosTail : List Byte := (List.range 15).map (fun i => BitVec.ofNat 8 (Config.eiosByte i))

/-- The 16 bytes of an ordered set that a port sends. -/
def Port.setBytes (x : Port) (p : Nat) : OrderedSet → List Byte
  | .ts1 => x.tsBytes p .ts1
  | .ts2 => x.tsBytes p .ts2
  | .skp => List.replicate 16 0xAA
  | .eios => 0x66 :: eiosTail
  | .wake => 0x3C :: (List.range 15).map (fun i => if i % 2 = 0 then 0x00 else 0xFF)

/-- An ordered set sent on a port's lane. -/
def Die.sendSet (d : Die) (p : Nat) (k : OrderedSet) : Die := d.emit (.lane p [blockBits false ((d.port p).setBytes p k)])

/-- A port's TX put into electrical idle. -/
def Die.sendIdle (d : Die) (p : Nat) : Die :=
  if (d.port p).txIdle then d else (d.updPort p (fun x => { x with txIdle := true })).emit (.laneIdle p)

/-! ## Flits (R198 to R201) -/

/-- A flit received: the descrambler goes over its bytes. -/
def Port.laneRx (x : Port) (long : Bool) : Port := { x with rxLfsr := lfsrAfter x.rxLfsr (8 * (if long then 544 else 32)) }

/-- A wake or the end of a training: the first data block of each direction finds its LFSR at the seed (R190). -/
def Port.reseed (x : Port) : Port := { x with txLfsr := lfsrSeed, rxLfsr := lfsrSeed }

/-- At a flit boundary a SKP that is due goes out first: 370 or more blocks have gone since the previous one (R192; log entry 166). -/
def Die.skpDue (d : Die) (p : Nat) : Die :=
  if 370 ≤ (d.port p).sinceSkp then (d.updPort p (fun x => { x with sinceSkp := 0 })).sendSet p .skp else d

/-- A flit sent: its blocks scrambled, the LFSR behind them. -/
def Die.sendFlit (d : Die) (p : Nat) (flit : List Byte) : Die :=
  let d := d.skpDue p
  let x := d.port p
  (d.updPort p (fun x => { x with
    txLfsr := lfsrAfter x.txLfsr (8 * flit.length), sinceSkp := x.sinceSkp + flit.length / 16, busyAt := d.now })).emit (.lane p (flitBlocks x.txLfsr flit))

/-- The header of a flit as the 64 bits of R199. -/
def hdrBits (h : FlitHdr) : Nat :=
  h.ft % 16 + 16 * bit h.long + 32 * bit h.ackv + 64 * bit h.nak + 2 ^ 8 * (h.seq % 256) + 2 ^ 16 * (h.ack % 256)
    + 2 ^ 24 * (h.crs % 256) + 2 ^ 32 * (h.crl % 256)

/-- R201: a flit's bytes with the CRC-32C over all before it, little-endian. -/
def withCrc (bs : List Byte) : List Byte := bs ++ le 4 (crc32c bs).toNat

/-- A short flit (R198): header, 20 bytes of body, CRC. -/
def shortFlit (h : FlitHdr) (body : List Byte) : List Byte := withCrc (le 8 (hdrBits h) ++ padTo 20 body)

/-- A long flit (R198): header, data descriptor, 512 bytes of payload, CRC. -/
def longFlit (h : FlitHdr) (desc : List Byte) (payload : BitVec 4096) : List Byte :=
  withCrc (le 8 (hdrBits h) ++ padTo 20 desc ++ le 512 payload.toNat)

/-- The priority operations (R212). -/
def isPri (op : Nat) : Bool := [opSuspend, opResume, opStatus, opDieReset].contains op

/-- The body of a CMD (R211). -/
def cmdBody (o : DieOp) : List Byte :=
  le 2 o.otag ++ le 1 o.op ++ le 1 (o.die % 16 + 16 * bit (isPri o.op) + 32 * bit o.slc)
    ++ le 4 (o.block % 2 ^ 13 + 2 ^ 13 * (o.pu % 2 ^ 11) + 2 ^ 24 * (o.level % 4) + 2 ^ 26 * (o.plane % 4) + 2 ^ 28 * bit o.mp)
    ++ le 1 (o.cwmask % 16) ++ le 1 0 ++ le 2 o.xlen ++ le 8 o.param

/-- The data descriptor of a WDATA flit (R215). -/
def descBody (w : WFlit) : List Byte :=
  le 2 w.otag ++ le 1 (w.die % 16 + 16 * (w.plane % 4) + 64 * (w.level % 4)) ++ le 1 (w.cw % 4) ++ le 1 w.offset ++ le 1 (bit w.last) ++ le 2 w.vlen

/-- The header of what a port sends: ACK names the last flit accepted; the port's grants are unlimited, so it returns no credit (R199,
R203, R206). -/
def Port.hdr (x : Port) (ft seq : Nat) (long nak : Bool) : FlitHdr :=
  { ft := ft, long := long, ackv := true, nak := nak, seq := seq, ack := (x.rxSeq + 255) % 256, crs := 0, crl := 0 }

/-- The bytes of a sequenced flit (R200). -/
def Port.seqFlit (x : Port) (f : TxFlit) : List Byte :=
  match f.what with
  | .cmd o => shortFlit (x.hdr 1 f.seq false false) (cmdBody o)
  | .wdata w => longFlit (x.hdr 3 f.seq true false) (descBody w) w.payload

/-- A NOP: an acknowledgement, or the request for a replay from the flit behind ACK (R203). -/
def Port.nopFlit (x : Port) (nak : Bool) : List Byte := shortFlit (x.hdr 0 0 false nak) []

/-- An LMGT flit (R209): the code in body byte 0, its argument in byte 1; the grants of a port's CREDIT_INIT are 0 (R206). -/
def Port.lmgtFlit (x : Port) (code arg : Nat) : List Byte := shortFlit (x.hdr 6 0 false false) (le 1 code ++ le 1 arg)

/-- R239: the 4,608 bytes of a code word: its information and behind it the LDPC parity; of all-zero information an all-zero code word
(R249). How the parity is computed is open (log entry 203). -/
def codeWord (x : BitVec 33280) : BitVec 36864 := if x = 0 then 0 else Config.ldpcParity x ++ x

/-- The nine WDATA flits of a code word of an operation (R198, R214). -/
def cwFlits (o : DieOp) (plane cw : Nat) (last : Bool) (x : BitVec 33280) : List WFlit :=
  let c := codeWord x
  (List.range 9).map (fun i =>
    { otag := o.otag, die := o.die, plane := plane, level := o.level, cw := cw, offset := i, last := last && i == 8, vlen := 512
      payload := c.extractLsb' (4096 * i) 4096 })

end Sys2Proof.Machine
end

