-- ==== Sys2Proof/Machine/Berth.lean ====
section
/-! DEFINITION. The berth ports (file 06): the state machine of a port (R227), training (R193 to R197), flits, credits and
replay (R199 to R206), link power (R207 to R210), admission of a berth (R224 to R226, R148, R261), faults (R230) and the
slot controllers (R233 to R235). -/

namespace Sys2Proof.Machine

/-! ## States and causes (R236, R237) -/

def PState.num : PState → Nat
  | .absent => 0
  | .present => 1
  | .powering => 2
  | .training => 3
  | .identifying => 4
  | .online => 5
  | .draining => 6
  | .released => 7
  | .fault => 8
  | .quarantine => 9

def causeShortTx : Nat := 0x01
def causeShortRx : Nat := 0x02
def causeOpenTx : Nat := 0x03
def causeOpenRx : Nat := 0x04
def causeCrossed : Nat := 0x05
def causeLooped : Nat := 0x06
def causeOvercurrent : Nat := 0x07
def causePowerGood : Nat := 0x08
def causeLinkLost : Nat := 0x09
def causeTrainFail : Nat := 0x0A
def causeSideband : Nat := 0x0B
def causeWrongType : Nat := 0x10
def causePassportCrc : Nat := 0x11
def causeGeometry : Nat := 0x12
def causeBlpVersion : Nat := 0x13
def causeForeign : Nat := 0x14
def causeDramLimit : Nat := 0x15
def causeHierarchy : Nat := 0x16

/-- LMGT codes (R209); a request is held with its argument, 1 LS or 2 LD of PWR_REQ, in the next byte. -/
def lmgtCredit : Nat := 0x01
def lmgtPwrReq : Nat := 0x02
def lmgtDock : Nat := 0x05
def lmgtRelease : Nat := 0x06
def lmgtBridge : Nat := 0x08

/-- Whether a request is outstanding on a port (R210). -/
def Port.asked (x : Port) (code : Nat) : Bool := x.lmgt.any (fun e => e.1 % 256 == code)

/-- A port without a request. -/
def Port.answered (x : Port) (code : Nat) : Port := { x with lmgt := x.lmgt.filter (fun e => e.1 % 256 != code) }

/-- Whether a port has a link to speak of. -/
def Port.linked (x : Port) : Bool := x.st == .identifying || x.st == .online || x.st == .draining

/-- Whether flits may leave the port now: its link is in L0 and neither in a retrain nor still waking. -/
def Port.flowing (x : Port) : Bool := x.linked && !x.retrain && x.lpwr == .l0 && !x.waking

/-- The port wakes its lane from LS or LD with a WAKE; from LD its TS2 at the saved presets follows, and no flit leaves until the berth's has
come (R207; how many of each: log entry 205). -/
def Die.wakeLane (d : Die) (p : Nat) : Die :=
  let deep := (d.port p).lpwr == .ld
  let d := (d.updPort p (fun x => { x with lpwr := .l0, waking := deep, txIdle := false, sinceSkp := 0, heardAt := d.now, busyAt := d.now }.reseed)).sendSet p .wake
  if deep then d.sendSet p .ts2 else d

/-- A link in LS or LD woken for what the port has to send (R208). -/
def Die.roused (d : Die) (p : Nat) : Die := if (d.port p).lpwr == .ls || (d.port p).lpwr == .ld then d.wakeLane p else d

/-- An LMGT request sent, which stays outstanding until its reply (R210); a link in LS or LD is woken first (R223), and where no flit can
leave it waits for its repetition. -/
def Die.sendLmgt (d : Die) (p code arg : Nat) : Die :=
  let d := d.roused p
  let d := d.updPort p (fun x => { x.answered code with lmgt := (x.answered code).lmgt ++ [(code + 256 * arg, d.now)] })
  if (d.port p).flowing then d.sendFlit p ((d.port p).lmgtFlit code arg) else d

/-- R227: a transition of a port with its record; a link leaves service outside TRAINING to DRAINING (R207). The TX goes idle in ABSENT and
FAULT at once; in RELEASED and QUARANTINE it stays up, and the RX termination closed, until the RELEASE is answered (log entry 206). -/
def Die.portTo (d : Die) (p : Nat) (st : PState) (cause : Nat) : Die :=
  let old := (d.port p).st
  let sev := match st with | .fault => sevError | .quarantine => sevWarning | _ => sevNotice
  let off := st == .absent || st == .released || st == .fault || st == .quarantine
  let d := d.updPort p (fun x => { x with
    st := st, cause := cause, lpwr := if off then .off else x.lpwr, rxOpen := st == .fault || (st == .quarantine && x.rxOpen)
    step := if st == .training then x.step else if off then 0 else x.step, retrain := if off then false else x.retrain
    unacked := if off then [] else x.unacked, wdata := if off then [] else x.wdata, cmds := if off then [] else x.cmds
    waking := if off then false else x.waking, rdata := if off then none else x.rdata, nak := if off then false else x.nak })
  let d := if st == .absent || st == .fault then d.sendIdle p else d
  d.record 0x0701 sev p (le 2 p ++ le 1 old.num ++ le 1 st.num ++ le 1 cause)

/-- A berth that was ONLINE or DRAINING is counted missing: a window of the owner's setting, of 0 from DRAINING (R260). -/
def Die.lostFrom (d : Die) (p : Nat) (old : PState) : Die :=
  if old == .online then (d.goMissing p d.se.rejoin).clearEmptyGroup (groupOf p)
  else if old == .draining then (d.goMissing p 0).clearEmptyGroup (groupOf p)
  else (d.loseOps p (fun _ => true)).clearEmptyGroup (groupOf p)

/-- R227, R230: a port enters FAULT; its power goes off except where the table leaves it. -/
def Die.faultPort (d : Die) (p cause : Nat) : Die :=
  let old := (d.port p).st
  let d := (d.portTo p .fault cause).updPort p (fun x => { x with
    lmgt := [], pwrEn := if cause = causeLinkLost ∨ cause = causeSideband then x.pwrEn else false })
  d.lostFrom p old

/-- R227: a port enters QUARANTINE: RELEASE, then PWR_EN is cleared when it is answered. -/
def Die.quarantine (d : Die) (p cause : Nat) : Die :=
  ((d.sendLmgt p lmgtRelease 0).portTo p .quarantine cause).loseOps p (fun _ => true)

/-! ## Retrains and losses (R202 to R204, R227) -/

/-- A retrain begins (R204): steps 3 to 9 with a new nonce, at 16 Gb/s with preset 4; the presets in use are saved. How BP_RETRAINS and its
neighbours overflow is a DESIGN CHOICE (log entry 200). -/
def Die.beginRetrain (d : Die) (p : Nat) : Die :=
  let n := d.freeVal % 2 ^ 32
  (d.drawn.updPort p (fun x => { x with
    retrain := true, retrainAt := d.now, attemptAt := d.now, stepAt := d.now, step := 5, nonce := n, okTs1 := 0, badTs1 := 0, ownTs1 := 0, ts2 := 0
    eqFails := 0, waking := false, txIdle := false, rdata := none, saved := if x.retrain then x.saved else (x.preset, x.bpreset)
    preset := 4, bpreset := 4, presetReq := 4
    retrains := (x.retrains + 1) % 2 ^ 32, losses := d.now :: x.losses.filter (fun t => decide (d.now < t + 1000000)) })).sendSet p .ts1

/-- A loss of the link: the third retrain within 1 s behind it, the port faults, else it retrains (R227, R230). -/
def Die.linkLoss (d : Die) (p : Nat) : Die :=
  if (d.port p).linked then
    if 3 ≤ ((d.port p).losses.filter (fun t => decide (d.now < t + 1000000))).length then d.faultPort p causeLinkLost
    else d.beginRetrain p
  else d

/-- R202: a flit with a good CRC that breaks a rule: an unused type, LONG disagreeing with the type, a wrong direction. -/
def hdrBad (h : FlitHdr) : Bool := decide (7 ≤ h.ft) || h.ft == 1 || h.ft == 3 || h.long != (h.ft == 4)

/-- R202: a protocol error: recorded, and the link retrains; a second one within 1 s faults the port. -/
def Die.protocolError (d : Die) (p : Nat) (h : FlitHdr) : Die :=
  let d := d.record 0x0704 sevError p (le 2 p ++ le 8 (hdrBits h))
  let again := match (d.port p).protoAt with | some t => decide (d.now < t + 1000000) | none => false
  if again then d.faultPort p causeLinkLost
  else
    let d := d.updPort p (fun x => { x with protoAt := some d.now })
    if (d.port p).linked then d.beginRetrain p else d

/-! ## Sending and acknowledgement (R203, R205, R214) -/

/-- An operation tag not in use on the link (R213). -/
def Port.freeOtag (x : Port) : Nat :=
  (((List.range (x.outst.length + 1)).map (fun i => (x.nextOtag + i) % 65536)).find? (fun t => !x.outst.any (fun o => o.otag == t))).getD x.nextOtag

/-- The information of a code word of a PU: of its P or Q, or the sector under the name that the map has for its block (R239). -/
def Die.puInfo (d : Die) (r pos row cw : Nat) : BitVec 33280 :=
  let u := d.ru r
  let loc := u.locOf row pos (cw / 16)
  if (u.dataPos row).contains pos then
    match d.rc.blockNames (blockKey loc.port loc.die loc.block) with
    | b :: _ => (d.mediaGet (secKey ((b * 2048 + row) * 4 + cw / 16) (cw % 16))).info
    | [] => 0
  else Tbl.get 0 d.rc.parity (secKey loc.key (cw % 16))

/-- The WDATA flits of an operation, in the order in which they follow its CMD (R198, R214, R221): the sixteen code words of a loaf, of
a row's P or Q as the accumulators hold them (R248), or of a PU under rebuild (R262), or a tunnel's sequence. -/
def Die.wflits (d : Die) (o : DieOp) : List WFlit :=
  match o.what with
  | .shipLoaf r pos slot =>
    let key := ((d.ru r).locOf o.pu pos slot).key
    (List.range 16).flatMap (fun i => cwFlits o (i / 4) (i % 4) (i == 15) (d.mediaGet (secKey key i)).info)
  | .shipPar r pos slot =>
    let u := d.ru r
    let acc := if pos == posP u.k o.pu then u.accP else u.accQ
    (List.range 16).flatMap (fun i => cwFlits o (i / 4) (i % 4) (i == 15) (Tbl.get 0 acc (o.pu * 64 + slot * 16 + i)))
  | .rebLoad r pos slot =>
    if o.op = opLoad then (List.range 16).flatMap (fun i => cwFlits o (i / 4) (i % 4) (i == 15) (d.puInfo r pos o.pu (slot * 16 + i))) else []
  | .tunnel bs => [{ otag := o.otag, die := o.die, plane := 0, level := 0, cw := 0, offset := 0, last := true, vlen := o.xlen
                     payload := BitVec.ofNat 4096 (leVal bs) }]
  | _ => []

/-- One sequenced flit sent for the first time: it spends its credit where the caller says, takes the next SEQ and is held (R203). -/
def Die.sendSeq (d : Die) (p : Nat) (w : TxWhat) : Die :=
  let f : TxFlit := { seq := (d.port p).txSeq, what := w }
  (d.updPort p (fun x => { x with txSeq := (x.txSeq + 1) % 256, unacked := x.unacked ++ [f] })).sendFlit p ((d.port p).seqFlit f)

/-- The CMD of an operation leaves the port; its WDATA flits follow in order (R211, R213, R214). -/
def Die.sendCmd (d : Die) (p : Nat) (o : DieOp) : Die :=
  let o' := { o with otag := (d.port p).freeOtag, issued := d.now }
  (d.updPort p (fun x => { x with
    crShort := x.crShort - 1, outst := x.outst ++ [o'], nextOtag := (o'.otag + 1) % 65536, wdata := x.wdata ++ d.wflits o' })).sendSeq p (.cmd o')

/-- What waits on a port sent as far as the credits and the window of 64 unacknowledged flits allow: CMDs first, which may come between
the WDATA flits of an operation (R203, R205, R214). -/
def Die.pumpN (d : Die) (p : Nat) : Nat → Die
  | 0 => d
  | n + 1 =>
    let x := d.port p
    if !x.flowing || decide (64 ≤ x.unacked.length) then d
    else match x.cmds, x.wdata with
      | o :: r, ws =>
        if 0 < x.crShort then ((d.updPort p (fun y => { y with cmds := r })).sendCmd p o).pumpN p n
        else match ws with
          | w :: ws => if 0 < x.crLong then ((d.updPort p (fun y => { y with wdata := ws, crLong := y.crLong - 1 })).sendSeq p (.wdata w)).pumpN p n else d
          | [] => d
      | [], w :: ws => if 0 < x.crLong then ((d.updPort p (fun y => { y with wdata := ws, crLong := y.crLong - 1 })).sendSeq p (.wdata w)).pumpN p n else d
      | [], [] => d

/-- At most the window goes out at once. -/
def Die.pump (d : Die) (p : Nat) : Die := d.pumpN p 64

/-- An operation issued: its CMD leaves with the next SEQ as soon as it can; a link in LS or LD is woken (R207, R211, R213). -/
def Die.issueOp (d : Die) (o : DieOp) : Die := ((d.roused o.port).updPort o.port (fun x => { x with cmds := x.cmds ++ [o] })).pump o.port

/-- Whether a CMD can leave the port now. -/
def Port.canSend (x : Port) : Bool :=
  x.linked && !x.retrain && x.lpwr != .off && x.cmds.isEmpty && decide (0 < x.crShort) && decide (x.unacked.length < 64)

/-- Every unacknowledged flit sent again, in order (R203, R204). -/
def Die.resend (d : Die) (p : Nat) : Die := (d.port p).unacked.foldl (fun (x : Die) f => x.sendFlit p ((x.port p).seqFlit f)) d

/-- Everything up to a sequence number acknowledged. -/
def Port.acked (x : Port) (ack now : Nat) : Port :=
  match x.unacked.findIdx? (fun u => u.seq == ack) with
  | some i => { x with unacked := x.unacked.drop (i + 1), busyAt := now }
  | none => x

/-- Credits returned by the other side (R205). -/
def Port.credited (x : Port) (s l : Nat) : Port := { x with crShort := min 4095 (x.crShort + s), crLong := min 4095 (x.crLong + l) }

/-- The header of a valid flit taken in: acknowledgement, replay, credits (R203, R205). A flit replayed four times asks for a
retrain. -/
def Die.rxAck (d : Die) (p : Nat) (h : FlitHdr) : Die :=
  let d := d.updPort p (fun x => (if h.ackv || h.nak then x.acked h.ack d.now else x).credited h.crs h.crl)
  let d := if h.nak && !(d.port p).unacked.isEmpty then
      let d := d.updPort p (fun x => { x with
        unacked := x.unacked.map (fun u => { u with replays := u.replays + 1 }), replays := (x.replays + 1) % 2 ^ 32 })
      if (d.port p).unacked.any (fun u => decide (4 ≤ u.replays)) then d.linkLoss p else d.resend p
    else d
  d.pump p

/-- A NAK sent, once until the expected flit arrives (R203). -/
def Die.sendNakOnce (d : Die) (p : Nat) : Die :=
  if (d.port p).nak then d
  else (d.updPort p (fun x => { x with nak := true, nakAt := d.now, replays := (x.replays + 1) % 2 ^ 32 })).sendFlit p ((d.port p).nopFlit true)

/-- A flit heard on a lane: the descrambler goes over it, and the link is not silent. -/
def Port.heard (x : Port) (now : Nat) (long : Bool) : Port := { x.laneRx long with heardAt := now }

/-- The header of a flit received: a protocol error, or taken in; the answer says whether a sequenced flit is accepted. An accepted flit is
acknowledged in the next header; where nothing else leaves for the berth in this step, in a NOP (log entry 207). -/
def Die.rxFlit (d : Die) (p : Nat) (h : FlitHdr) (sequenced : Bool) : Bool × Die :=
  let x := d.port p
  if !x.linked || x.lpwr == .off || x.retrain then (false, d)
  else
  let d := (d.roused p).updPort p (fun x => x.heard d.now h.long)
  if hdrBad h then (false, d.protocolError p h)
  else
    let ok := sequenced && h.seq == x.rxSeq
    let d := d.updPort p (fun y => { y with
      waking := false, rxSeq := if ok then (y.rxSeq + 1) % 256 else y.rxSeq, nak := y.nak && !ok })
    let replays := (d.port p).replays
    let d := d.rxAck p h
    if !sequenced then (true, d)
    else if !ok then (false, d.sendNakOnce p)
    else if (d.port p).txSeq = x.txSeq ∧ (d.port p).replays = replays ∧ (d.port p).flowing = true then (true, d.sendFlit p ((d.port p).nopFlit false))
    else (true, d)

/-! ## Admission of a berth (R148, R223 to R226, R261) -/

/-- DRAM fitted, bytes; a FAILED channel does not count (R356). -/
def Die.fittedDram (d : Die) : Nat := sumBy (fun e => if e.2.st == .absent || e.2.st == .failed then 0 else (e.2.cap0 + e.2.cap1) * Config.gib) d.dc.chans

/-- User capacity that counts for the DRAM need (R6): recorded, or what an unformed group would have. -/
def Die.needUser (d : Die) : Nat := sumBy (fun g => if (d.group g).formed then (d.group g).userCap else d.computeUserCap g) (List.range 8)

/-- R6: the DRAM need of user and raw capacity, bytes. -/
def dramNeed (user raw proofGib : Nat) : Nat := user * 131 / 2 ^ 20 + raw * 21 / 2 ^ 20 + proofGib * Config.gib

/-- The die with a berth counted as ONLINE, for the checks that ask what it would bring. -/
def Die.withBerth (d : Die) (p : Nat) (x : Passport) : Die :=
  (d.updPort p (fun y => { y with st := .online, passport := some x })).updGroup (groupOf p) (fun y =>
    { y with geometry := if y.geometry.isSome then y.geometry else some x.puPerBlock })

/-- R225: the first check that fails names the cause. -/
def Die.passportCause (d : Die) (p : Nat) (x : Passport) : Option Nat :=
  let e := d.withBerth p x
  if !(x.magicOk && x.plen == 512 && x.pcrcOk) then some causePassportCrc
  else if !(x.btype == 1 && (d.port p).ts1Rate32) then some causeWrongType
  else if !(decide (x.blpMin ≤ 3) && decide (3 ≤ x.blpMax)) then some causeBlpVersion
  else if !(x.planes == 4 && x.bits == 3 && x.pageData == 16384 && x.pageSpare == 2048 && decide (1 ≤ x.dies) && decide (x.dies ≤ 16)
      && decide (1 ≤ x.puPerBlock) && decide (x.puPerBlock ≤ 2048) && decide (1 ≤ x.blocks) && decide (x.blocks ≤ 8192)
      && decide (8 ≤ x.sysBlocks) && decide (x.sysBlocks ≤ 64) && decide (4 ≤ x.qdepth) && decide (x.qdepth ≤ 64)
      && decide (1 ≤ x.roSets) && decide (x.roSets ≤ 16)) then some causeGeometry
  else if !(decide (x.tReadMax < 2000) && decide (x.tProgMax ≤ 2500) && decide (x.tEraseMax < 4000) && decide (x.tSuspendMax ≤ 100)) then
    some causeGeometry
  else if !((d.group (groupOf p)).geometry.all (fun g => g == x.puPerBlock)) then some causeGeometry
  else if d.fittedDram < dramNeed e.needUser e.rawBytes d.dc.proofGib then some causeDramLimit
  else none

/-- Classes of a label (R226, R261). -/
inductive LabelClass where
  | blank | member | adopted | hierarchy | foreign
deriving DecidableEq, Repr

/-- The DSN of the hierarchy's manager as this die knows it. -/
def Die.sysid (d : Die) : BitVec 64 := if d.life.manager then Config.dsn else d.ql.mgrDsn

/-- The port in whose place the berth at a port stands in the die's records: its own, or that of a missing berth of its group which this is, by
the CRC of its passport (R261; log entry 216). -/
def Die.homePort (d : Die) (p : Nat) : Nat :=
  match (d.port p).passport with
  | none => p
  | some x =>
    let here := fun (q : Nat) => (Tbl.get none d.se.missing q).isSome && (d.port q).blockCrc == x.pcrc
    if here p then p else (((d.se.missing.map (fun e => e.1)).find? (fun q => groupOf q == groupOf p && here q)).getD p)

/-- R226, R261: the class of a label. A generation newer than the record is treated as older (DEDUCED, log entry 27). -/
def Die.labelClass (d : Die) (p : Nat) (l : Label) : LabelClass :=
  if (d.port p).eraseSys || !l.good then .blank
  else if l.sysid = d.sysid then
    if l.dieser = Config.dsn then
      if l.mgen = Tbl.get 0 d.se.mgen (d.homePort p) ∧ l.rgroup = groupOf p then .member else .blank
    else if (d.qpos d.life.quayId).st = .adopting ∧ l.dieser = (d.qpos d.life.quayId).prior then .adopted
    else .hierarchy
  else .foreign

/-- A group that has enough members forms, with its user capacity (R148). -/
def Die.formGroup (d : Die) (g : Nat) : Die :=
  if (d.group g).formed = false ∧ (d.group g).k + 2 ≤ (d.members g).length then
    d.updGroup g (fun x => { x with formed := true, userCap := d.computeUserCap g })
  else d

/-- Granules a channel holds (R337): 256 MiB each. -/
def Chan.granules (x : Chan) : Nat := (x.cap0 + x.cap1) * 4

/-- Granules in use on a channel. -/
def Dc.used (c : Dc) (ch : Nat) : Nat := (c.granules.filter (fun e => e.2.1 == ch)).length

/-- Free granules of a channel. -/
def Dc.freeOn (c : Dc) (ch : Nat) : Nat := (Tbl.get {} c.chans ch).granules - c.used ch

/-- The lowest free slot of a channel. -/
def Dc.freeSlot (c : Dc) (ch : Nat) : Option Nat :=
  (List.range (Tbl.get {} c.chans ch).granules).find? (fun s => !c.granules.any (fun e => e.2 == (ch, s)))

/-- The ACTIVE channel with the most free granules, the lowest on a tie (R353). -/
def Dc.roomiest (c : Dc) : Option Nat :=
  ((List.range 12).filter (fun ch => (Tbl.get {} c.chans ch).st == .active && decide (0 < c.freeOn ch))).foldl
    (fun a ch => match a with
      | none => some ch
      | some b => if c.freeOn b < c.freeOn ch then some ch else some b) none

/-- A logical granule placed on a channel. -/
def Dc.place (c : Dc) (g ch : Nat) : Dc :=
  match c.freeSlot ch with
  | some s => { c with granules := Tbl.set c.granules g (ch, s) }
  | none => c

/-- Slots of the crumb table (R159): 1.25 for every crumb up to the limit, and those reserved for PMASK records. -/
def Die.crumbSlots (d : Die) : Nat := ceilDiv (5 * d.crumbLimit) 4 + pmaskSlots

/-- Bytes of a region (R160, R338); a crumb slot is 16 bytes; the reclaim metadata as log entry 33 says. -/
def Die.regionBytes (d : Die) : Nat → Nat
  | 0 => sumBy (fun e => e.2.userCap) d.rc.groups / 65536 * 8 * 102 / 100
  | 1 => 16 * d.crumbSlots
  | 2 => d.rawBytes / 1048576
  | _ => d.dc.proofGib * Config.gib

/-- The granules that a region needs and lacks placed (R160, R337): one per channel in rotation where the channel is ACTIVE and
has room, else on the roomiest channel. -/
def Die.placeGranules (d : Die) : Die :=
  (List.range 4).foldl (fun x r =>
    { x with dc := (List.range (ceilDiv (x.regionBytes r) Config.limitUnit)).foldl (fun c i =>
        let g := r * 1048576 + i
        if Tbl.has c.granules g then c
        else if (Tbl.get {} c.chans (i % 12)).st = .active ∧ 0 < c.freeOn (i % 12) then c.place g (i % 12)
        else match c.roomiest with
          | some ch => c.place g ch
          | none => c) x.dc }) d

/-- A MEMBER that returns at another port of its group: what the records say of the two ports is exchanged, so that every position that was its
own is where it is (R261). -/
def Die.movePlace (d : Die) (p q : Nat) : Die :=
  if p = q then d
  else
    let sw := fun (x : Nat) => if x = p then q else if x = q then p else x
    let sk := fun (k : Nat) => sw (k / 8192 / 16) * 131072 + k % 131072
    let sm := fun (m : Member) => ({ m with port := sw m.port } : Member)
    let mine := (d.rc.rus.flatMap (fun e => e.2.members.filter (fun m => m.port == p || m.port == q))).map (fun m => blockKey m.port m.die m.block)
    let plain := mine.filter (fun b => !d.rc.subst.any (fun e => e.2 == b))
    { d with
      rc := { d.rc with
        rus := Tbl.mapVals (fun _ (u : Ru) => { u with members := u.members.map sm, rebuild := u.rebuild.map (fun b => { b with port := sw b.port }) }) d.rc.rus
        subst := d.rc.subst.map (fun e => (e.1, sk e.2)) ++ plain.map (fun b => (b, sk b))
        blocks := d.rc.blocks.map (fun e => (sk e.1, e.2)), refresh := d.rc.refresh.map (fun e => (sk e.1, e.2))
        parity := d.rc.parity.map (fun e => (sk (e.1 / 16 / 8192) * 131072 + e.1 % 131072, e.2)) }
      se := { d.se with
        missing := d.se.missing.map (fun e => (sw e.1, e.2)), mgen := d.se.mgen.map (fun e => (sw e.1, e.2))
        rebuild := d.se.rebuild.map (fun e => (e.1, sw e.2)), partly := d.se.partly.map (fun e => (sk e.1, e.2)) }
      bp := { d.bp with ports := d.bp.ports.map (fun e => (e.1, if sw e.1 = e.1 then e.2 else { e.2 with blockCrc := (d.port (sw e.1)).blockCrc })) } }

/-- A berth comes ONLINE: a MEMBER ends its window, a BLANK one gets a label of this die, an adopted one too but keeps its
generation (R148, R226, R227, R260, R261, R501). -/
def Die.berthOnline (d : Die) (p : Nat) (x : Passport) (c : LabelClass) : Die :=
  let g := groupOf p
  let d := if c == .member then d.movePlace (d.homePort p) p else d
  let fresh := (d.port p).blockCrc != x.pcrc
  let gen := match c, (d.port p).label with | .adopted, some l => l.mgen | _, _ => Tbl.get 0 d.se.mgen p
  let d := (d.portTo p .online 0).updPort p (fun y => { y with
    passport := some x, passcrc := x.pcrc, blockCrc := x.pcrc, dfence := 0, eraseSys := false, member := true
    label := if c == .member then y.label else some (Label.make d.sysid Config.dsn d.anaGroup g gen) })
  let d : Die := { d with sch := { d.sch with dies := d.sch.dies.map (fun (e : Nat × DieSch) =>
    if e.1 / 16 == p then (e.1, { e.2 with ladder := 0, polled := none, resetAt := 0 }) else e) } }
  let d : Die := if c == .adopted then { d with se := { d.se with mgen := Tbl.set d.se.mgen p (match (d.port p).label with | some l => l.mgen | none => 0) } } else d
  let d := if c == .member then { d with se := { d.se with missing := Tbl.set d.se.missing p none } }
    else if fresh then { d with rc := { d.rc with blocks := d.rc.blocks.filter (fun e => !(e.1 / 8192 / 16 == p && (match e.2.st with | .inRu _ => false | _ => true))) } }
    else d
  d.updGroup g (fun y => { y with geometry := if y.geometry.isSome then y.geometry else some x.puPerBlock })

/-- What new members change in their group: it forms, its regions are placed, and its spare is weighed (R148, R181). -/
def Die.groupJoined (d : Die) (g : Nat) : Die := ((d.formGroup g).placeGranules.checkGroup g false).checkSpare

/-- Open rows with a member on a berth closed short (R222, R249). -/
def Die.closeRowsAt (d : Die) (p : Nat) : Die :=
  ((d.openRusWith (fun u => u.members.any (fun m => m.port == p))).foldl (fun x r => x.shortRow r) d).progress

/-- A berth joins its group in service; a TEMP_CRIT that still stands takes its effect on rows then (R222). -/
def Die.joinOnline (d : Die) (p : Nat) (x : Passport) (c : LabelClass) : Die :=
  let d := (d.berthOnline p x c).groupJoined (groupOf p)
  if (d.port p).tempCrit then d.closeRowsAt p else d

/-- The label's copies stand, a PU each, at the start of the blocks 0, 1 and 2 of die 0, in SLC mode (DESIGN CHOICE, log entry 204). -/
def labelRead (p copy : Nat) : DieOp :=
  { port := p, die := 0, op := opRead, block := copy, slc := true, cwmask := 1, system := true, what := .label copy }

/-- PASSPORT_READ of a port. -/
def passportRead (p : Nat) : DieOp := { port := p, die := 0, op := opPassport, system := true, what := .passport }

/-- The passport has been read in IDENTIFYING: the checks of R225, after which its label is read from the system area (R223, R226). In
service the first berth of a group that passes every check sets its geometry, whatever its label; at a start the geometry has been
settled before (R148). -/
def Die.passportTaken (d : Die) (start : Bool) (p : Nat) (x : Passport) : Die :=
  if (d.port p).st = .identifying then
    let d := d.updPort p (fun y => { y with passport := some x, label := none })
    match d.passportCause p x with
    | some c =>
      if c = causePassportCrc ∧ x.pcrcOk = false ∧ (d.port p).reread = false then
        (d.updPort p (fun y => { y with reread := true })).issueOp (passportRead p)
      else
        let d := if c = causeDramLimit then d.record 0x0708 sevError p (le 2 p) else d
        d.quarantine p c
    | none =>
      let d := if start then d else d.updGroup (groupOf p) (fun y => { y with geometry := if y.geometry.isSome then y.geometry else some x.puPerBlock })
      d.issueOp (labelRead p 0)
  else d

/-- A copy of the label has been read in IDENTIFYING: a bad one is followed by the next, and the berth is classed by the first good one,
or as BLANK (R226, R261); at a start the groups wait for the end of discovery (R148). -/
def Die.labelTaken (d : Die) (start : Bool) (p copy : Nat) (l : Label) : Die :=
  match (d.port p).st, (d.port p).passport with
  | .identifying, some x =>
    let d := d.updPort p (fun y => { y with label := some l })
    if !l.good && decide (copy < 2) then d.issueOp (labelRead p (copy + 1))
    else match d.labelClass p l with
      | .foreign => d.quarantine p causeForeign
      | .hierarchy => d.quarantine p causeHierarchy
      | k => if start then d.berthOnline p x k else d.joinOnline p x k
  | _, _ => d

/-! ## Power and presence (R227, R235) -/

/-- The berth's power switch turned on: a latched over-current is cleared by a write of 1 first, for the switch stays off until then
(R234). -/
def Die.switchOn (d : Die) (p : Nat) : Die := d.updPort p (fun x => { x with slotOc := false, pwrEn := true })

/-- A port in PRESENT goes on to POWERING where its owner lets it. -/
def Die.powerPort (d : Die) (p : Nat) : Die :=
  if (d.port p).st == .present && (d.port p).enabled then
    (d.portTo p .powering 0).switchOn p
  else d

/-- PRESENCE_STABLE: presence unchanged for 50 ms. -/
def Die.presenceStable (d : Die) (p : Nat) (present : Bool) : Die :=
  let x := d.port p
  if x.slotPresent = present ∧ x.presAt + 50000 ≤ d.now ∧ p < Config.ports then
    if present then
      if x.st = .absent then ((d.updPort p (fun y => { y with attempts := 0, passport := none, label := none, reread := false, eraseSys := false })).portTo p .present 0).powerPort p
      else d
    else if x.st = .absent then d
    else
      let d := (d.portTo p .absent 0).updPort p (fun y => { y with pwrEn := false, attn := false, lmgt := [], tempWarn := false, tempCrit := false })
      d.lostFrom p x.st
  else d

/-- POWER_GOOD: TRAINING begins. -/
def Die.powerGood (d : Die) (p : Nat) : Die :=
  if (d.port p).st = .powering then (d.portTo p .training 0).updPort p (fun x => { x with step := 0, failed := 0, rateRetrain := false, goodAt := d.now }) else d

/-- POWER_GOOD_TIMEOUT. -/
def Die.powerGoodTimeout (d : Die) (p : Nat) : Die := if (d.port p).st = .powering then d.faultPort p causePowerGood else d

/-- OVERCURRENT: in any state but ABSENT. -/
def Die.overcurrent (d : Die) (p : Nat) : Die :=
  if (d.port p).st = .absent then d else (d.faultPort p causeOvercurrent).updPort p (fun x => { x with slotOc := true })

/-- SHORT_DETECTED: from POWERING onward, while the port drives its lane (R230, R231). -/
def Die.shortDetected (d : Die) (p : Nat) (tx : Bool) : Die :=
  let st := (d.port p).st
  if st == .powering || st == .training || (d.port p).linked then d.faultPort p (if tx then causeShortTx else causeShortRx) else d

/-- The registers of a slot controller as an IBI or a poll finds them (R234, R235). -/
def Die.slotRead (d : Die) (c : Nat) (present good oc : Byte) : Die :=
  (List.range 8).foldl (fun d i =>
    let p := 8 * c + i
    let d := d.updPort p (fun x => { x with
      slotPresent := present.getLsbD i, slotGood := good.getLsbD i, slotOc := oc.getLsbD i
      slotChg := x.slotPresent != present.getLsbD i || x.slotGood != good.getLsbD i || x.slotOc != oc.getLsbD i
      presAt := if x.slotPresent == present.getLsbD i then x.presAt else d.now })
    if oc.getLsbD i && (d.port p).st != .fault then d.overcurrent p else d) { d with bp := { d.bp with silent := d.bp.silent.filter (· != c) } }

/-- SLOT_IBI, SLOT_POLL: controllers 0 to 127. -/
def Die.slotReport (d : Die) (c : Nat) (present good oc : Byte) : Die := if c < 128 then d.slotRead c present good oc else d

/-- SLOT_CONTROLLER_SILENT: its 8 ports fault with SIDEBAND (R235). -/
def Die.slotSilent (d : Die) (c : Nat) : Die :=
  if c < 128 ∧ d.bp.silent.contains c = false then
    (List.range 8).foldl (fun d i => if (d.port (8 * c + i)).st == .fault then d else d.faultPort (8 * c + i) causeSideband)
      { d with bp := { d.bp with silent := c :: d.bp.silent } }
  else d

/-- The registers of a slot controller (R234) as Doluz knows them: SLOT_ID, SLOT_VER, then the bits of its eight ports, and SLOT_IBI_EN.
It clears SLOT_OC by a write of 1 as it turns a switch on, and SLOT_CHG as it reads it. -/
def Die.slotReg (d : Die) (c off : Nat) : Byte :=
  let bits := fun (f : Port → Bool) => (List.range 8).foldl (fun (a : Byte) i => if f (d.port (8 * c + i)) then a ||| (1#8 <<< i) else a) 0
  match off with
  | 0 => 0xB5
  | 1 => 0x01
  | 2 => bits (·.slotPresent)
  | 3 => bits (·.pwrEn)
  | 4 => bits (·.slotGood)
  | 5 => bits (·.slotOc)
  | 6 => bits (·.attn)
  | 7 => bits (·.slotChg)
  | 8 => Tbl.get 0 d.bp.ibiEn c
  | _ => 0

/-- R233: every group's slot controllers get dynamic addresses equal to their static ones by SETAASA; its code, 0x29 to the broadcast
address 0x7E, is PRESUMED (MIPI I3C Basic, log entry 208). -/
def Die.addressSlots (d : Die) : Die :=
  (List.range 32).foldl (fun (x : Die) g => x.emit (.sideband g [0xFC, 0x29])) { d with bp := { d.bp with addressed := 0xFFFFFFFF#32 } }

/-! ## Training (R193 to R197, R204) -/

/-- A step of a training begins. -/
def Port.toStep (x : Port) (n now : Nat) : Port := { x with step := n, stepAt := now, ts2 := 0 }

/-- TRAINING_ATTEMPT: steps 1 to 3: the short check, receiver detection, TS1 with a new nonce. -/
def Die.trainingAttempt (d : Die) (p : Nat) (shortTx term : Bool) : Die :=
  if (d.port p).st = .training ∧ (d.port p).step = 0 then
    let d := d.updPort p (fun x => { x with attempts := satInc 255 x.attempts })
    if shortTx then d.faultPort p causeShortTx
    else if !term then d.faultPort p causeOpenTx
    else
      let n := d.freeVal % 2 ^ 32
      (d.drawn.updPort p (fun x => { (x.toStep 5 d.now) with
        attemptAt := d.now, txIdle := false, nonce := n, okTs1 := 0, badTs1 := 0, ownTs1 := 0, eqFails := 0, ts1Rate32 := false, rxinv := false
        brxinv := false, preset := 4, bpreset := 4, presetReq := 4, txSeq := 0, rxSeq := 0, unacked := [], wdata := [], cmds := [], nak := false
        crShort := 0, crLong := 0, losses := [], protoAt := none, rateRetrain := false, waking := false, rdata := none, lmgt := [] })).sendSet p .ts1
  else d

/-- Whether a port is between the first TS1 and L0. -/
def Port.inTraining (x : Port) : Bool := (x.st == .training || x.retrain) && decide (5 ≤ x.step)

/-- R196: an inversion met for the first time is corrected and recorded. -/
def Die.noteInversion (d : Die) (p : Nat) (mine theirs : Bool) : Die :=
  let d := if mine && !(d.port p).rxinv then
      (d.updPort p (fun x => { x with rxinv := true })).record 0x0702 sevInfo p (le 2 p ++ le 1 (Config.openCode 0x0702 0)) else d
  if theirs && !(d.port p).brxinv then
    (d.updPort p (fun x => { x with brxinv := true })).record 0x0702 sevInfo p (le 2 p ++ le 1 (Config.openCode 0x0702 1)) else d

/-- R195: the echo of one TS1 compared. A TS1 that echoes PORT_ID 0xFFFF, of a berth that has received none yet, neither matches nor names
another port, and starts the counts anew (DESIGN CHOICE, log entry 167). -/
def Die.echoCheck (d : Die) (p : Nat) (t : TsRead) : Die :=
  if t.src = false then
    let d := d.updPort p (fun y => { y with ownTs1 := y.ownTs1 + 1, okTs1 := 0, badTs1 := 0 })
    if 16 ≤ (d.port p).ownTs1 then d.faultPort p causeLooped else d
  else if t.portId = 0xFFFF then d.updPort p (fun y => { y with ownTs1 := 0, okTs1 := 0, badTs1 := 0 })
  else if t.portId ≠ p ∨ t.nonce ≠ (d.port p).nonce then
    let d := d.updPort p (fun y => { y with badTs1 := y.badTs1 + 1, okTs1 := 0, ownTs1 := 0 })
    if 16 ≤ (d.port p).badTs1 then d.faultPort p causeCrossed else d
  else
    let d := d.updPort p (fun y => { y with okTs1 := y.okTs1 + 1, badTs1 := 0, ownTs1 := 0 })
    if 16 ≤ (d.port p).okTs1 then (d.updPort p (fun y => y.toStep 7 d.now)).sendSet p .ts2 else d

/-- Step 8 entered, or tried again: both sides change to 32 Gb/s and the port requests presets in its TS1: in the first try of a retrain
those saved, else what it chooses for the channel, which the spec leaves open (R193, R204). -/
def Die.equalise (d : Die) (p : Nat) (saved : Bool) : Die :=
  let d := if saved then d.updPort p (fun y => { y with preset := y.saved.1, presetReq := y.saved.2 })
    else d.drawn.updPort p (fun y => { y with presetReq := d.freeVal % 11 })
  (d.updPort p (fun y => y.toStep 8 d.now)).sendSet p .ts1

/-- TS1_RECEIVED: the echo check of step 6; in step 8 the berth's requests for the port's transmitter, and the end of it once the berth's
equalisation is settled. -/
def Die.ts1 (d : Die) (p : Nat) (s : Ts) : Die :=
  let x := d.port p
  let t := readTs s
  if !t.ok || !x.inTraining then d
  else
    let d := d.noteInversion p t.inverted t.rxinv
    let d := d.updPort p (fun y => { y with ts1Rate32 := t.rate32 })
    let d := if x.step = 5 then d.updPort p (fun y => { y.toStep 6 d.now with ts1At := d.now }) else d
    if x.step ≤ 6 then d.echoCheck p t
    else if x.step = 8 then
      let d := d.updPort p (fun y => { y with preset := if t.presetReq ≤ 10 then t.presetReq else y.preset, bpreset := t.presetUse })
      if t.eqDone then (d.updPort p (fun y => { y.toStep 9 d.now with rate32 := true })).sendSet p .ts2 else d
    else d

/-- The link goes on to step 9 at 16 Gb/s (R197). -/
def Die.toStep9At16 (d : Die) (p : Nat) : Die :=
  (d.updPort p (fun y => { y.toStep 9 d.now with rate32 := false, preset := 4, bpreset := 4 })).sendSet p .ts2

/-- The flits sent before a retrain that the berth says in NEXT_RX to have (R204) given up. -/
def Port.resumeFrom (x : Port) (nextRx : Nat) : Port :=
  { x with unacked := match x.unacked.findIdx? (fun u => u.seq == nextRx) with
    | some i => x.unacked.drop i
    | none => if x.txSeq = nextRx then [] else x.unacked }

/-- TS2_RECEIVED: sixteen end step 7, or step 9 with the exchange of credits; NEXT_RX says what the berth has of the flits sent
before a retrain (R204). A link that runs at 16 Gb/s stays there through a retrain (R197). A TS2 of a link that leaves LD ends its
waking (R207). -/
def Die.ts2Rx (d : Die) (p : Nat) (s : Ts) : Die :=
  let x := d.port p
  let t := readTs s
  if !t.ok then d
  else if x.waking && x.linked && !x.retrain then
    let d := d.updPort p (fun y => { y with waking := false, heardAt := d.now })
    (x.lmgt.foldl (fun (e : Die) c => e.sendFlit p ((e.port p).lmgtFlit (c.1 % 256) (c.1 / 256))) d).pump p
  else if !x.inTraining then d
  else if x.step = 7 then
    let d := d.updPort p (fun y => { y with ts2 := y.ts2 + 1 })
    if 16 ≤ (d.port p).ts2 then
      if t.rate32 && !(x.retrain && !x.rate32) then d.equalise p x.retrain else d.toStep9At16 p
    else d
  else if x.step = 9 then
    let d := d.updPort p (fun y => { y with ts2 := y.ts2 + 1 })
    if 16 ≤ (d.port p).ts2 then
      let d := d.updPort p (fun y => { ((if x.retrain then y.resumeFrom t.nextRx else y).toStep 10 y.stepAt).reseed.answered lmgtCredit with sinceSkp := 0 })
      let d := d.updPort p (fun y => { y with lmgt := y.lmgt ++ [(lmgtCredit, d.now)] })
      d.sendFlit p ((d.port p).lmgtFlit lmgtCredit 0)
    else d
  else d

/-- CREDIT_INIT: the berth's grants; with them a link in training is in L0, and behind a retrain the flits that the berth lacks go out first
(R193 step 9, R204, R205, R223). A grant of 0 is none, and a repeated request is one request (R210). -/
def Die.creditInit (d : Die) (p short long : Nat) : Die :=
  let x := d.port p
  if short = 0 ∨ long = 0 ∨ x.asked lmgtCredit = false then d
  else
    let d := d.updPort p (fun y => { (y.answered lmgtCredit).heard d.now false with crShort := min 4095 short, crLong := min 4095 long })
    if x.step = 10 ∧ x.inTraining = true then
      let d := d.updPort p (fun y => { y with step := 0, lpwr := .l0, retrain := false, failed := 0, busyAt := d.now })
      if x.st = .training then (d.portTo p .identifying 0).issueOp (passportRead p)
      else (d.resend p).pump p
    else d.pump p

/-- An attempt that fails starts again at step 1; the third puts the port in FAULT (R193). -/
def Die.attemptFails (d : Die) (p : Nat) : Die :=
  let d := d.updPort p (fun x => { x with failed := x.failed + 1, step := 0 })
  if 3 ≤ (d.port p).failed then d.faultPort p causeTrainFail else d

/-- From when the bounds of steps 4 and 5 count: PWR_GOOD for the first attempt, its own start for a repeat (R193). -/
def Port.boundFrom (x : Port) : Nat := if x.failed = 0 then x.goodAt else x.attemptAt

/-- TRAINING_STEP_TIMEOUT: a step of a training misses its bound (R193). Step 4's is that of the berth's TS1, 6 names the 2 ms from the first
valid TS1 to L0; step 8 fails when no preset settles, which may be sooner than its bound. A second failure of step 8 leaves the link at
16 Gb/s, in a retrain as well (R197). -/
def Die.stepTimeout (d : Die) (p step : Nat) : Die :=
  let x := d.port p
  let st := x.st == .training && decide (5 ≤ x.step)
  if step = 8 ∧ x.step = 8 ∧ x.inTraining = true then
    if 1 ≤ x.eqFails then (d.toStep9At16 p).record 0x0703 sevWarning p (le 2 p)
    else (d.updPort p (fun y => { y with eqFails := 1 })).equalise p false
  else if !st then d
  else if x.step = 5 then
    if step = 4 ∧ x.boundFrom + 50000 ≤ d.now then d.attemptFails p
    else if step = 5 ∧ x.boundFrom + 100000 ≤ d.now then d.faultPort p causeOpenRx else d
  else if step = 6 ∧ x.ts1At + 2000 ≤ d.now then d.attemptFails p
  else if step = 7 ∧ x.step = 7 ∧ x.stepAt + 50 ≤ d.now then d.attemptFails p
  else if step = 9 ∧ 9 ≤ x.step ∧ x.stepAt + 100 ≤ d.now then d.attemptFails p
  else d

/-- RETRAIN_TIMEOUT: a retrain that has not reached L0 within 2 ms counts as a loss (R204, R227). -/
def Die.retrainTimeout (d : Die) (p : Nat) : Die :=
  if (d.port p).retrain = true ∧ (d.port p).retrainAt + 2000 ≤ d.now then d.linkLoss p else d

/-! ## Flits and link management (R199 to R210, R230) -/

/-- FLIT_CRC_DISCARD (R202, R203). -/
def Die.crcDiscard (d : Die) (p : Nat) (long : Bool) : Die :=
  if (d.port p).linked && !(d.port p).retrain then
    ((d.roused p).updPort p (fun x => ({ x with crcerr := (x.crcerr + 1) % 2 ^ 32 } : Port).laneRx long)).sendNakOnce p
  else d

/-- NAK_REPEAT (R203): 4 µs behind the last. -/
def Die.nakRepeat (d : Die) (p : Nat) : Die :=
  if (d.port p).nak && (d.port p).flowing && decide ((d.port p).nakAt + 4 ≤ d.now) then
    (d.updPort p (fun x => { x with nakAt := d.now })).sendFlit p ((d.port p).nopFlit true)
  else d

/-- BERTH_LINK_SILENCE (R203): no valid flit for 200 µs in L0. -/
def Die.berthSilence (d : Die) (p : Nat) : Die :=
  if (d.port p).linked && (d.port p).lpwr == .l0 && !(d.port p).retrain && decide ((d.port p).heardAt + 200 ≤ d.now) then d.linkLoss p else d

/-- BERTH_ERROR_RATE (R230): a retrain; where the rate persists, which is when the next 10 s show it again, the link runs at 16 Gb/s
(log entry 209). -/
def Die.errorRate (d : Die) (p : Nat) : Die :=
  if (d.port p).linked then
    if (d.port p).rateRetrain && decide (d.now < (d.port p).rateAt + 20000000) then
      ((d.updPort p (fun x => { x with rate32 := false, rateRetrain := false })).record 0x0703 sevWarning p (le 2 p)).beginRetrain p
    else (d.updPort p (fun x => { x with rateRetrain := true, rateAt := d.now })).beginRetrain p
  else d

/-- RETRAIN_REQ (R209): ignored within 10 ms of a retrain. -/
def Die.retrainReq (d : Die) (p : Nat) : Die :=
  if (d.port p).linked = true ∧ ((d.port p).retrains = 0 ∨ (d.port p).retrainAt + 10000 ≤ d.now) then d.beginRetrain p else d

/-- LMGT_REPEAT (R210): every request whose 10 µs have passed; a RELEASE also while the port is in RELEASED or QUARANTINE. -/
def Die.lmgtAgain (d : Die) (p : Nat) : Die :=
  let x := d.port p
  if x.flowing || x.step == 10 || x.st == .released || x.st == .quarantine then
    let due := x.lmgt.filter (fun e => decide (e.2 + 10 ≤ d.now))
    let d := d.updPort p (fun y => { y with lmgt := y.lmgt.map (fun e => if e.2 + 10 ≤ d.now then (e.1, d.now) else e) })
    due.foldl (fun (e : Die) c => e.sendFlit p ((e.port p).lmgtFlit (c.1 % 256) (c.1 / 256))) d
  else d

/-- Nothing to send and nothing unacknowledged (R207). -/
def Port.quiet (x : Port) : Bool := x.unacked.isEmpty && x.wdata.isEmpty && x.cmds.isEmpty && x.lmgt.isEmpty

/-- LINK_IDLE_LS (R207, R208): idle for 2 µs. -/
def Die.idleLs (d : Die) (p : Nat) : Die :=
  let x := d.port p
  if x.flowing && x.quiet && decide (x.busyAt + 2 ≤ d.now) then d.sendLmgt p lmgtPwrReq 1 else d

/-- LINK_IDLE_LD (R207, R208): 1 ms in LS with nothing outstanding: the link is woken to ask for LD. -/
def Die.idleLd (d : Die) (p : Nat) : Die :=
  let x := d.port p
  if x.linked && x.lpwr == .ls && x.outst.isEmpty && x.quiet && decide (x.lsAt + 1000 ≤ d.now) then d.sendLmgt p lmgtPwrReq 2 else d

/-- PWR_ACK (R208): both sides send EIOS and go idle; what the port has got to send meanwhile wakes the link at once. -/
def Die.pwrAck (d : Die) (p : Nat) : Die :=
  match (d.port p).lmgt.find? (fun e => e.1 % 256 == lmgtPwrReq) with
  | some c =>
    let d := (d.updPort p (fun x => { (x.answered lmgtPwrReq).heard d.now false with
      lpwr := if c.1 / 256 = 1 then .ls else .ld, lsAt := d.now, txIdle := true })).sendSet p .eios
    if (d.port p).quiet then d else (d.roused p).pump p
  | none => d

/-- A reply that ends an outstanding request. -/
def Die.lmgtDone (d : Die) (p code : Nat) : Die :=
  d.updPort p (fun x => if x.asked code then (x.answered code).heard d.now false else x)

/-- RELEASE_DONE (R227): the berth has put its TX in idle, and the port does the same; a quarantined or drained berth loses its power, and
in QUARANTINE the termination opens (R231). -/
def Die.releaseDone (d : Die) (p : Nat) : Die :=
  let d := d.lmgtDone p lmgtRelease
  let st := (d.port p).st
  let d := if st == .quarantine || st == .released then d.sendIdle p else d
  d.updPort p (fun x => { x with
    pwrEn := x.pwrEn && !(x.st == .quarantine || (x.st == .released && x.attn)), rxOpen := x.rxOpen || x.st == .quarantine })

/-- WAKE_ORDERED_SET_RECEIVED (R207): the port's own lane leaves electrical idle with it. -/
def Die.wakeRx (d : Die) (p : Nat) : Die := d.roused p

/-- A berth's own condition taken in L0, LS or LD (R222): its record, where the flit is accepted in its order, which the answer says. -/
def Die.evt (d : Die) (p die code sev : Nat) (v : Evt) (f : Port → Port) : Bool × Die :=
  let q := d.rxFlit p v.hdr true
  if q.1 then (true, (q.2.updPort p f).record 0x0706 sev p (le 2 p ++ le 1 code ++ le 1 die ++ le 4 v.value.toNat)) else q

/-- EVT_TEMP_CRIT: open rows with a member on the berth close short (R222, R249). -/
def Die.tempCrit (d : Die) (p die : Nat) (v : Evt) : Die :=
  let q := d.evt p die 0x02 sevWarning v (fun x => { x with tempCrit := true })
  if q.1 then q.2.closeRowsAt p else q.2

/-- EVT_BRIDGE_ERROR: the port sends BRIDGE_RESET. -/
def Die.bridgeError (d : Die) (p die : Nat) (v : Evt) : Die :=
  let q := d.evt p die 0x05 sevError v (fun x => x)
  if q.1 then q.2.sendLmgt p lmgtBridge 0 else q.2

/-! ## Drain (R227, R264) -/

/-- DRAIN_COMPLETE: nothing of the RUs is left on the berth: the generation goes up and the berth is released. -/
def Die.drainComplete (d : Die) (p : Nat) : Die :=
  if (d.port p).st = .draining ∧ (d.rusHeld p).isEmpty = true then
    let d := { d with se := { d.se with mgen := Tbl.upd 0 d.se.mgen p (· + 1) } }
    let d := (d.sendLmgt p lmgtRelease 0).portTo p .released 0
    let d := d.updPort p (fun x => { x with attn := true, member := false })
    (((d.loseOps p (fun _ => true)).checkGroup (groupOf p) true).checkSpare).clearEmptyGroup (groupOf p)
  else d

/-! ## The meanings -/

/-- TRAINING_ATTEMPT (R193). -/
def execTrainingAttempt (port : Nat) (shortTx termination : Bool) (s : State) : Host.Outcome State Fault Refusal :=
  s.run (·.trainingAttempt port shortTx termination)
/-- TS1_RECEIVED (R195). -/
def execTs1Received (port : Nat) (ts : Ts) (s : State) : Host.Outcome State Fault Refusal := s.run (·.ts1 port ts)
/-- TS2_RECEIVED (R194). -/
def execTs2Received (port : Nat) (ts : Ts) (s : State) : Host.Outcome State Fault Refusal := s.run (·.ts2Rx port ts)
/-- SKP_RECEIVED (R192): absorbed or inserted in the elastic buffer, never passed up: nothing of the state changes. -/
def execSkpReceived (_port : Nat) (s : State) : Host.Outcome State Fault Refusal := s.run (fun d => d)
/-- EIOS_RECEIVED (R191): the far side enters electrical idle after this block; the link's own state changed with PWR_ACK (R208). -/
def execEiosReceived (_port : Nat) (s : State) : Host.Outcome State Fault Refusal := s.run (fun d => d)
/-- WAKE_ORDERED_SET_RECEIVED (R207). -/
def execWakeOrderedSetReceived (port : Nat) (s : State) : Host.Outcome State Fault Refusal := s.run (·.wakeRx port)
/-- TRAINING_STEP_TIMEOUT (R193). -/
def execTrainingStepTimeout (port step : Nat) (s : State) : Host.Outcome State Fault Refusal := s.run (·.stepTimeout port step)
/-- FLIT_CRC_DISCARD (R202): nothing of the discarded flit is used but the length it had on the lane. -/
def execFlitCrcDiscard (port : Nat) (hdr : FlitHdr) (s : State) : Host.Outcome State Fault Refusal := s.run (·.crcDiscard port hdr.long)
/-- NOP_RECEIVED (R203). -/
def execNopReceived (port : Nat) (hdr : FlitHdr) (s : State) : Host.Outcome State Fault Refusal := s.run (fun d => (d.rxFlit port hdr false).2)
/-- NAK_REPEAT (R203). -/
def execNakRepeat (port : Nat) (s : State) : Host.Outcome State Fault Refusal := s.run (·.nakRepeat port)
/-- BERTH_LINK_SILENCE (R203). -/
def execBerthLinkSilence (port : Nat) (s : State) : Host.Outcome State Fault Refusal := s.run (·.berthSilence port)
/-- RETRAIN_TIMEOUT (R204). -/
def execRetrainTimeout (port : Nat) (s : State) : Host.Outcome State Fault Refusal := s.run (·.retrainTimeout port)
/-- EVT_TEMP_WARN (R222). -/
def execEvtTempWarn (port die : Nat) (value : Evt) (s : State) : Host.Outcome State Fault Refusal :=
  s.run (fun d => (d.evt port die 0x01 sevNotice value (fun x => { x with tempWarn := true })).2)
/-- EVT_TEMP_CRIT (R222). -/
def execEvtTempCrit (port die : Nat) (value : Evt) (s : State) : Host.Outcome State Fault Refusal := s.run (·.tempCrit port die value)
/-- EVT_TEMP_OK (R222). -/
def execEvtTempOk (port die : Nat) (value : Evt) (s : State) : Host.Outcome State Fault Refusal :=
  s.run (fun d => (d.evt port die 0x03 sevNotice value (fun x => { x with tempWarn := false, tempCrit := false })).2)
/-- EVT_POWER_WARN (R222). -/
def execEvtPowerWarn (port die : Nat) (value : Evt) (s : State) : Host.Outcome State Fault Refusal :=
  s.run (fun d => (d.evt port die 0x04 sevWarning value (fun x => x)).2)
/-- EVT_BRIDGE_ERROR (R222). -/
def execEvtBridgeError (port die : Nat) (value : Evt) (s : State) : Host.Outcome State Fault Refusal := s.run (·.bridgeError port die value)
/-- CREDIT_INIT (R205). -/
def execCreditInit (port short long : Nat) (s : State) : Host.Outcome State Fault Refusal := s.run (·.creditInit port short long)
/-- PWR_ACK (R208). -/
def execPwrAck (port : Nat) (s : State) : Host.Outcome State Fault Refusal := s.run (·.pwrAck port)
/-- PWR_NAK (R208). -/
def execPwrNak (port : Nat) (s : State) : Host.Outcome State Fault Refusal := s.run (·.lmgtDone port lmgtPwrReq)
/-- DOCK_ECHO (R209). -/
def execDockEcho (port : Nat) (s : State) : Host.Outcome State Fault Refusal := s.run (·.lmgtDone port lmgtDock)
/-- RELEASE_DONE (R227). -/
def execReleaseDone (port : Nat) (s : State) : Host.Outcome State Fault Refusal := s.run (·.releaseDone port)
/-- RETRAIN_REQ (R209). -/
def execRetrainReq (port : Nat) (s : State) : Host.Outcome State Fault Refusal := s.run (·.retrainReq port)
/-- LMGT_REPEAT (R210). -/
def execLmgtRepeat (port : Nat) (s : State) : Host.Outcome State Fault Refusal := s.run (·.lmgtAgain port)
/-- LINK_IDLE_LS (R207). -/
def execLinkIdleLs (port : Nat) (s : State) : Host.Outcome State Fault Refusal := s.run (·.idleLs port)
/-- LINK_IDLE_LD (R207). -/
def execLinkIdleLd (port : Nat) (s : State) : Host.Outcome State Fault Refusal := s.run (·.idleLd port)
/-- BERTH_ERROR_RATE (R230). -/
def execBerthErrorRate (port : Nat) (s : State) : Host.Outcome State Fault Refusal := s.run (·.errorRate port)
/-- SLOT_POLL (R235). -/
def execSlotPoll (controller : Nat) (present pwrGood oc : Byte) (s : State) : Host.Outcome State Fault Refusal :=
  s.run (·.slotReport controller present pwrGood oc)
/-- SLOT_CONTROLLER_SILENT (R235). -/
def execSlotControllerSilent (controller : Nat) (s : State) : Host.Outcome State Fault Refusal := s.run (·.slotSilent controller)
/-- POWER_GOOD (R227). -/
def execPowerGood (port : Nat) (s : State) : Host.Outcome State Fault Refusal := s.run (·.powerGood port)
/-- POWER_GOOD_TIMEOUT (R227). -/
def execPowerGoodTimeout (port : Nat) (s : State) : Host.Outcome State Fault Refusal := s.run (·.powerGoodTimeout port)
/-- OVERCURRENT (R227). -/
def execOvercurrent (port : Nat) (s : State) : Host.Outcome State Fault Refusal := s.run (·.overcurrent port)
/-- SHORT_DETECTED (R230). -/
def execShortDetected (port : Nat) (tx : Bool) (s : State) : Host.Outcome State Fault Refusal := s.run (·.shortDetected port tx)
/-- DRAIN_COMPLETE (R264). -/
def execDrainComplete (port : Nat) (s : State) : Host.Outcome State Fault Refusal := s.run (·.drainComplete port)

end Sys2Proof.Machine
end

