-- ==== Sys2Proof/Machine/DieOps.lean ====
section
/-! DEFINITION. The operations at the NAND dies: dispatch by fair tags and deadline (R273, R278), suspension and
reconstruct-read (R283 to R285), what the device does with each RSP and RDATA (R213 to R220, R248, R251), and the die ladder
(R232). -/

namespace Sys2Proof.Machine

/-! ## Costs (R273) -/

/-- Charged cost of an operation, die µs; system writes, fillers and PROGRAMs behind charged loaves cost nothing. -/
def Die.opCost (d : Die) (o : DieOp) : Nat :=
  match (d.port o.port).passport with
  | none => 0
  | some x =>
    if o.system then 0
    else if o.op = opRead then x.tReadTyp
    else if o.op = opErase then 10 * x.tEraseTyp
    else match o.what with
      | .shipLoaf r _ _ => x.tProgTyp * ((d.ru r).k + 2) / (3 * (d.ru r).k)
      | .rebLoad r _ _ => if o.op = opLoad then x.tProgTyp * ((d.ru r).k + 2) / (3 * (d.ru r).k) else 0
      | _ => 0

/-- Typical time of a program or erase, µs. -/
def typTime (x : Passport) (o : DieOp) : Nat := if o.op = opErase then 10 * x.tEraseTyp else x.tProgTyp

/-- Time that an operation takes of its die by its typical time, µs. -/
def Die.dieTime (d : Die) (o : DieOp) : Nat :=
  match (d.port o.port).passport with
  | none => 0
  | some x => if o.op = opRead then x.tReadTyp else if o.op = opProgram ∨ o.op = opErase then typTime x o else 0

/-! ## Choice (R278) -/

/-- The key of a tenant at a die. -/
def DieSch.key (s : DieSch) (t : Nat) : Nat := max s.v (Tbl.get 0 s.f t)

/-- R278: a tenant charged at a die: the operation starts at its key, and the die's virtual time with it. -/
def DieSch.charge (s : DieSch) (t cost w : Nat) : DieSch :=
  let start := s.key t
  { s with v := start, f := Tbl.set s.f t (start + cost * 1024 / w) }

/-- R273: an erase charged in slices of 500 µs: the slices that begin before a point of its cost and are not charged yet (DEDUCED, log
entry 175). -/
def DieSch.chargeErase (s : DieSch) (t cost w upto : Nat) : DieSch :=
  let due := min (ceilDiv cost 500) (upto / 500 + 1)
  let done := ceilDiv s.sliced 500
  { (List.range' done (due - done)).foldl (fun (x : DieSch) i => x.charge t (min 500 (cost - 500 * i)) w) s with
    sliced := max s.sliced (min cost (500 * due)) }

/-- Time that the running operation has been at work, µs (R283): since its CMD or the last STATUS, suspended time left out. -/
def DieSch.elapsed (s : DieSch) (now : Nat) : Nat := (if s.suspended then s.suspAt else now) - s.began

/-- The slices of a running erase charged as its time goes on; all of them at its end. -/
def Die.eraseSlices (d : Die) (k : Nat) (ended : Bool) : Die :=
  match (d.dsch k).running with
  | some o =>
    if o.op = opErase then
      let c := d.opCost o
      d.updDsch k (fun s => s.chargeErase o.tenant c (d.weight o.tenant) (if ended then c else s.elapsed d.now))
    else d
  | none => d

/-- Work that the throttle factor scales (R289): programs, erases and internal work. -/
def DieOp.scaled (o : DieOp) : Bool := !o.system && ([opProgram, opErase].contains o.op || decide (2048 ≤ o.tenant))

/-- An operation that loads or programs a die. -/
def DieOp.writes (o : DieOp) : Bool := [opLoad, opLoadZero, opProgram].contains o.op

/-- The fair choice among some operations: of the tenant with the lowest key, ties to the lower S0, the one with the earliest deadline,
those without one behind in S0 order. -/
def DieSch.fairest (s : DieSch) (l : List DieOp) : Option DieOp :=
  match l.foldl (fun (a : Option DieOp) o => match a with
      | none => some o
      | some b => if s.key o.tenant < s.key b.tenant ∨ (s.key o.tenant = s.key b.tenant ∧ o.s0 < b.s0) then some o else some b) none with
  | none => none
  | some h => (l.filter (fun o => o.tenant == h.tenant)).foldl (fun (a : Option DieOp) o => match a with
      | none => some o
      | some b =>
        let first := if o.dlv && b.dlv then timeBefore o.deadline b.deadline else if o.dlv then true else if b.dlv then false else decide (o.s0 < b.s0)
        if first then some o else some b) none

/-- The operation a die takes of some: a system write first; else the fair choice, in whose place, where it is a write, a heel or staging
that the fall of the rescue limit makes urgent goes (R21). -/
def DieSch.choose (s : DieSch) (l : List DieOp) : Option DieOp :=
  match l.find? (fun o => o.system) with
  | some o => some o
  | none => match s.fairest l with
    | none => none
    | some o => if o.writes then some ((l.find? (fun u => u.urgent && u.writes)).getD o) else some o

/-- TEMP_WARN halves the admission of programs and erases to a berth (R222): while it stands, at most half of the berth's dies run
one (log entry 168). -/
def Die.halved (d : Die) (o : DieOp) : Bool :=
  (d.port o.port).tempWarn && [opProgram, opErase].contains o.op
    && (match (d.port o.port).passport with
      | some x => decide (ceilDiv x.dies 2 ≤ ((d.port o.port).outst.filter (fun y => [opProgram, opErase].contains y.op)).length)
      | none => false)

/-- R289: while the throttle factor H is below 1, a die takes programs, erases and internal work for H of its time: after each, none until
the windows have made room for it (DESIGN CHOICE, log entry 176). -/
def Die.throttledAt (d : Die) (o : DieOp) : Bool :=
  o.scaled && d.aon.step != 0 && (d.dsch (dieKey o.port o.die)).throttled != 0

/-- R287: the programs queued for a die behind the running one stay within the profile's limit: a LOAD waits while as many are queued
(DEDUCED, log entry 178). -/
def Die.programsFull (d : Die) (o : DieOp) : Bool :=
  [opLoad, opLoadZero].contains o.op
    && decide (d.prof.queueMax ≤ (d.sch.queued.filter (fun y => y.port == o.port && y.die == o.die && y.op == opProgram)).length)

/-- The jobs that an operation reads for. -/
def DieOp.readJobs (o : DieOp) : List Nat := match o.what with | .readSec js => js.map (fun j => j.2) | .recon jn _ => [jn] | _ => []

/-- R112: in an activation hold a command in ADMITTED stays there: the first operation for it is not issued. -/
def Die.heldOp (d : Die) (o : DieOp) : Bool :=
  d.qe.hold && o.readJobs.any (fun jn => match d.job jn with | some j => (d.tag j.tag).st == .admitted | none => false)

/-- Whether a queued operation may go to its die now: a LOAD only to the open row; nothing that programs or erases under
TEMP_CRIT, half as much under TEMP_WARN, and no LOAD to a row whose accumulators are frozen (R222, R248, R251); within the throttle
factor and the profile's queue of programs (R287, R289), and none that an activation hold keeps back (R112). A source in an open row is read
once its PU has passed program (R255). -/
def Die.mayGo (d : Die) (o : DieOp) : Bool :=
  !((d.port o.port).tempCrit && [opLoad, opLoadZero, opProgram, opErase].contains o.op) && !d.halved o && !d.throttledAt o && !d.programsFull o && !d.heldOp o
    && match o.what with
      | .shipLoaf r _ _ => (d.ru r).row == o.pu && (d.ru r).st == .opened && !(d.ru r).frozen
      | .fill r _ _ => (d.ru r).row == o.pu && (d.ru r).st == .opened && !(d.ru r).frozen
      | .recon jn p => match (d.job jn).bind (fun j => d.slotRu j.loc.key) with
        | some q => !(d.ru q.1).openRow q.2.1 || (d.ru q.1).passed.contains (q.2.1 * 64 + p)
        | none => true
      | _ => true

/-- The trigger that a source read of a reconstruction works for (R254); 0 of any other operation. -/
def Die.reconTrig (d : Die) (o : DieOp) : Nat :=
  match o.what with
  | .recon jn _ => match d.job jn with | some j => j.trig | none => 0
  | _ => 0

/-- The operations outstanding at a die, those whose CMD waits among them. -/
def Die.outstAt (d : Die) (p die : Nat) : List DieOp := ((d.port p).outst ++ (d.port p).cmds).filter (fun o => o.die == die)

/-- The operations queued for a die that may go now: source reads for a deadline wait for those after an uncorrectable read (R35), and
while the die runs soft-decision re-reads its other reads wait (R243). -/
def Die.waitingAt (d : Die) (p die : Nat) : List DieOp :=
  let l := d.sch.queued.filter (fun o => o.port == p && o.die == die && d.mayGo o)
  let l := if l.any (fun o => d.reconTrig o ≠ 0 ∧ d.reconTrig o ≠ 4) then l.filter (fun o => d.reconTrig o != 4) else l
  if l.any (fun o => o.offset != 0) || (d.outstAt p die).any (fun o => o.op == opRead && o.offset != 0)
  then l.filter (fun o => o.offset != 0 || o.op != opRead) else l

/-- R213: the non-PRI operations outstanding on a die leave room for some more within the berth's QDEPTH. -/
def Die.depthFor (d : Die) (p die n : Nat) : Bool :=
  match (d.port p).passport with
  | some x => decide (((d.outstAt p die).filter (fun o => !isPri o.op)).length + n ≤ x.qdepth)
  | none => false

/-- A queued operation taken out of the queue. -/
def Die.unqueue (d : Die) (o : DieOp) : Die := { d with sch := { d.sch with queued := d.sch.queued.erase o } }

/-- R206, R359: the trays of a read reserved before it is issued: one for the data and one for the tails of its code words; a
reconstruction for T1 to T3 draws on its own reserve (R362). A re-read lands in the trays its code word has. None: it waits. -/
def Die.reserveFor (d : Die) (o : DieOp) : Option Die :=
  let js := o.readJobs.filterMap (fun jn => (d.job jn).map (fun j => (jn, j)))
  let need := match o.what with | .recon _ _ => js | _ => js.filter (fun j => j.2.trays.isEmpty)
  match need with
  | [] => some d
  | (_, j) :: _ =>
    let rec_ := match o.what with | .recon _ _ => j.trig != 4 | _ => false
    (d.takeTrays 7 (d.tag j.tag).fn (if rec_ then 2 else 5) (some (j.tag, j.gen)) [4096 * need.length, 512 * need.length]).map (fun q =>
      need.foldl (fun (x : Die) e => x.setJob e.1 { e.2 with trays := e.2.trays ++ q.2 }) q.1)

/-- The commands that an operation reads for reach MEDIA as it is issued (R85). -/
def Die.reachMedia (d : Die) (o : DieOp) : Die :=
  o.readJobs.foldl (fun (x : Die) jn => match x.job jn with
    | some j => x.updTag j.tag (fun y => if y.st == .admitted then { y with st := .media } else y)
    | none => x) d

/-- R220, R224: the SET_FEATUREs that put an offset set in force: one for each feature address that RO_FADDR lists, with the parameters
that RO_MAP gives the set's seven offsets. -/
def offsetOps (x : Passport) (o : DieOp) : List DieOp :=
  ((List.range 4).filter (fun a => x.roFaddr a != 0)).map (fun a =>
    let par := (List.range 4).map (fun i => match (List.range 7).find? (fun t => x.roMap t == 4 * a + i) with
      | some t => x.roOffset o.offset t
      | none => 0)
    { port := o.port, die := o.die, op := opSetFeature, offset := o.offset, system := true
      param := x.roFaddr a + 256 * leVal (par.map (fun v => BitVec.ofNat 8 v)) })

/-- The SET_FEATUREs that an operation needs first. -/
def Die.featuresFor (d : Die) (o : DieOp) : List DieOp :=
  if o.op = opRead ∧ o.offset ≠ (d.dsch (dieKey o.port o.die)).offsetSet then
    (match (d.port o.port).passport with | some x => offsetOps x o | none => [])
  else []

/-- An operation tagged, charged and issued (R278), its trays reserved first. The offset set is changed before it where it must be (R220).
One credit and one place of the window admit each CMD (R203, R205), and all stay within QDEPTH (R213): where the change of the offset set
and the read do not fit together, the change goes first and the read waits for it. -/
def Die.dispatchOp (d : Die) (o : DieOp) : Die :=
  let fs := d.featuresFor o
  if (d.port o.port).crShort ≤ fs.length ∨ 64 ≤ (d.port o.port).unacked.length + fs.length then d
  else if d.depthFor o.port o.die (fs.length + 1) = false then
    if !fs.isEmpty && d.depthFor o.port o.die fs.length then
      (fs.foldl (fun (x : Die) f => x.issueOp f) d).updDsch (dieKey o.port o.die) (fun s => { s with offsetSet := o.offset })
    else d
  else
  match d.reserveFor o with
  | none => d
  | some d =>
  let d := d.reachMedia o
  let k := dieKey o.port o.die
  let s := d.dsch k
  let d := d.unqueue o
  let d := if o.op = opRead ∧ o.offset ≠ s.offsetSet then
      (fs.foldl (fun (x : Die) f => x.issueOp f) d).updDsch k (fun s => { s with offsetSet := o.offset })
    else d
  let d := if o.system then d
    else d.updDsch k (fun s => { (if o.op = opErase then ({ s with sliced := 0 } : DieSch).chargeErase o.tenant (d.opCost o) (d.weight o.tenant) 0
        else s.charge o.tenant (d.opCost o) (d.weight o.tenant)) with throttled := s.throttled + if o.scaled && d.aon.step != 0 then d.dieTime o else 0 })
  let d := d.issueOp o
  if o.op = opProgram ∨ o.op = opErase then
    d.updDsch k (fun s => { s with
      running := some { o with issued := d.now }, began := d.now, suspended := false, suspends := 0, suspTime := 0, readsInSusp := 0 })
  else d

/-! ## Suspend and reconstruct-read (R283 to R285) -/

/-- Slack to a deadline, µs. -/
def Die.slack (d : Die) (o : DieOp) : Nat :=
  let x := (o.deadline + 2 ^ 32 - d.now % 2 ^ 32) % 2 ^ 32
  if x < 2 ^ 31 then x else 0

/-- Time that the running operation still takes, by its typical time (R283). -/
def Die.remaining (d : Die) (x : Passport) (s : DieSch) (o : DieOp) : Nat := typTime x o - s.elapsed d.now

/-- A program of a row that is being closed short, which is never suspended (R284). -/
def Die.closesShort (d : Die) (o : DieOp) : Bool := match o.what with | .progPu r _ => (d.ru r).short.any (fun e => e.1 == o.pu) | _ => false

/-- R255: a row qualifies for T4 when it is closed and at most one other position is busy or unavailable. -/
def Die.rowQualifies (d : Die) (key : Nat) : Bool :=
  match d.slotRu key with
  | none => false
  | some (r, row, pos, slot) =>
    let busy := d.busyAt r row pos slot
    !(d.ru r).openRow row && decide (busy.length ≤ 1) && (d.reconSources r row pos slot busy).isSome

/-- Code words that wait for decoding in a port group's LDPC cluster (R285). -/
def Die.clusterQueue (d : Die) (p : Nat) : Nat :=
  (d.se.jobs.filter (fun e => match e.2 with | some j => j.stage == .arrived && (d.resolve j.loc).port / 32 == p / 32 | none => false)).length

/-- The jobs a queued read serves. -/
def DieOp.jobs (o : DieOp) : List Nat := match o.what with | .readSec js => js.map (fun j => j.2) | _ => []

/-- R283, R285: whether a queued read may be served by reconstruct-read. -/
def Die.t4Allowed (d : Die) (o : DieOp) : Bool :=
  let g := groupOf o.port
  !o.jobs.isEmpty && d.prof.reconClasses.contains o.cls
    && o.jobs.all (fun jn => match d.job jn with | some j => d.rowQualifies j.loc.key | none => false)
    && decide ((Tbl.get 0 d.sch.t4Now g + o.jobs.length) * 1000 ≤ Tbl.get 0 d.sch.readsPrev g * d.prof.reconCap)
    && decide (d.reconCount + o.jobs.length ≤ Config.maxRecon) && decide (d.clusterQueue o.port ≤ 256)

/-- A queued read replaced by reconstruct-reads of its sectors (T4). -/
def Die.goT4 (d : Die) (o : DieOp) : Die :=
  let d := d.unqueue o
  let d := { d with sch := { d.sch with t4Now := Tbl.upd 0 d.sch.t4Now (groupOf o.port) (· + o.jobs.length) } }
  o.jobs.foldl (fun x jn => match x.job jn with | some j => x.startRecon jn j 4 | none => x) d

/-- R283: a read with a deadline at the head of a die that runs a program or erase: wait, suspend, reconstruct or wait. -/
def Die.headRead (d : Die) (x : Passport) (s : DieSch) (run o : DieOp) : Die :=
  let need := x.tSuspendMax + x.tReadTyp + 6
  let slack := d.slack o
  let g := d.prof.guard
  if d.remaining x s run + need + g ≤ slack then d
  else if d.prof.suspClasses.contains o.cls && decide (s.suspends < min d.prof.suspMax x.maxSuspends) && decide (s.suspTime < d.prof.suspTime)
      && decide (need + g ≤ slack) && !run.parity && !run.system && !d.closesShort run then
    let d := (d.issueOp { port := o.port, die := o.die, op := opSuspend, system := true }).updDsch (dieKey o.port o.die) (fun s => { s with suspends := s.suspends + 1 })
    o.jobs.foldl (fun y jn => match y.job jn with | some j => y.reportBit j.tag 1 | none => y) d
  else if d.t4Allowed o then d.goT4 o else d

/-- R284, R287, R288: a suspended die serves reads whose deadline falls before the estimated end of its operation, up to the limits in
force when the suspension began, then resumes. -/
def Die.suspendedDie (d : Die) (x : Passport) (s : DieSch) (run : DieOp) (p die : Nat) : Die :=
  let rs := (d.waitingAt p die).filter (fun o => o.op == opRead && o.dlv && decide (d.slack o < d.remaining x s run))
  match (if s.readsInSusp < s.limits.1 ∧ s.suspTime + (d.now - s.suspAt) < s.limits.2 then s.choose rs else none) with
  | some o => (d.dispatchOp o).updDsch (dieKey p die) (fun s => { s with readsInSusp := s.readsInSusp + 1 })
  | none => d.issueOp { port := p, die := die, op := opResume, system := true }

/-- R243: a read that would miss its deadline while it waits for the re-reads of a die, and may be served by reconstruct-read. -/
def Die.missesBehind (d : Die) (x : Passport) (p die : Nat) : Option DieOp :=
  let mine := d.sch.queued.filter (fun o => o.port == p && o.die == die && o.op == opRead)
  let n := ((mine ++ d.outstAt p die).filter (fun o => o.op == opRead && o.offset != 0)).length
  if n = 0 then none
  else mine.find? (fun o => o.offset == 0 && o.dlv && decide (d.slack o < (n + 1) * x.tReadTyp + 6 + d.prof.guard) && d.t4Allowed o)

/-- What a die does next (R278, R283, R284). -/
def Die.dispatchAt (d : Die) (p die : Nat) : Die :=
  let s := d.dsch (dieKey p die)
  match (d.port p).passport with
  | none => d
  | some x =>
    if d.portServes p && (d.port p).canSend && !(d.port p).dfence.getLsbD die && !s.tunnel then
      let d := (match d.missesBehind x p die with | some o => d.goT4 o | none => d).reconNext.eraseSlices (dieKey p die) false
      let s := d.dsch (dieKey p die)
      let out := d.outstAt p die
      match s.running with
      | some run =>
        if s.suspended then (if out.any (fun o => o.op == opRead || isPri o.op) then d else d.suspendedDie x s run p die)
        else if out.any (fun o => isPri o.op) then d
        else match s.choose (d.waitingAt p die) with
          | some o => if o.op = opRead ∧ o.dlv = true then d.headRead x s run o else d
          | none => d
      | none =>
        if !out.isEmpty then d
        else match s.choose (d.waitingAt p die) with
          | some o => d.dispatchOp o
          | none => d
    else d

/-- The read that a suspension was sent for, issued at once where its die has become free (R284, R292). -/
def Die.readAtOnce (d : Die) (p die : Nat) : Die :=
  let s := d.dsch (dieKey p die)
  if d.portServes p && (d.port p).canSend && !(d.port p).dfence.getLsbD die && !s.tunnel && s.running.isNone && (d.outstAt p die).isEmpty then
    match s.choose ((d.waitingAt p die).filter (fun o => o.op == opRead && o.dlv)) with
    | some o => d.dispatchOp o
    | none => d
  else d

/-- DIE_DISPATCH: at a gated port group the request waits for its island to wake (R18). -/
def Die.dieDispatch (d : Die) (p die : Nat) : Die := d.atIsland (p / 32) (·.dispatchAt p die)

/-! ## What comes back (R214 to R217, R248, R251) -/

/-- A code word has arrived for a job: the last of the reads it waits for sends it to decoding (R242, R255). -/
def Die.arrive (d : Die) (jn : Nat) : Die :=
  match d.job jn with
  | none => (d.endJob jn).staleReport
  | some j => if j.stage = .wait then d.setJob jn { j with left := j.left - 1, stage := if j.left ≤ 1 then .arrived else .wait } else d

/-- A code word of a source has arrived; one that its reconstruction uses no more counts for nothing (R255). -/
def Die.arriveSrc (d : Die) (jn p : Nat) : Die :=
  match d.job jn with
  | none => (d.endJob jn).staleReport
  | some j =>
    if j.stage = .recon then d.setJob jn { j with srcs := j.srcs.map (fun s => if s.pos == p then { s with left := s.left - 1 } else s) } else d

/-- Whether a descriptor is one of an operation's data (R215): of a page read its die, level, and a plane and code word that it asked for,
512 bytes and no LAST before the last flit of a code word; of a passport one flit of 512 bytes. -/
def DieOp.dataFits (o : DieOp) (c : DataDesc) : Bool :=
  match o.what with
  | .passport => c.offset == 0 && c.vlen == 512 && c.last
  | .tunnel _ => decide (1 ≤ c.vlen) && decide (c.vlen ≤ 512)
  | _ => c.die == o.die && c.level == o.level && (o.mp || c.plane == o.plane) && o.cwmask / 2 ^ c.cw % 2 == 1 && c.vlen == 512
           && (!c.last || c.offset == 8)

/-- The order of RDATA (R214): a code word's flits come in ascending OFFSET from 0, with none of another between. The answer is what is under
way behind a flit; none: it breaks the order and counts for nothing (log entry 210). -/
def nextData (under : Option (Nat × Nat × Nat × Nat)) (c : DataDesc) : Option (Option (Nat × Nat × Nat × Nat)) :=
  let at' := match under with | some u => u | none => (c.otag, c.plane, c.cw, 0)
  if at' == (c.otag, c.plane, c.cw, c.offset) then some (if c.offset == 8 then none else some (c.otag, c.plane, c.cw, c.offset + 1)) else none

/-- RDATA_RECEIVED: the last flit of a code word completes it in its tray (R214, R215); what the die reads as it is, a passport, the start of
a label's copy or a tunnel's bytes, is kept for the RSP. -/
def Die.rdata (d : Die) (p : Nat) (h : FlitHdr) (c : DataDesc) : Die :=
  let q := d.rxFlit p h true
  if !q.1 then q.2
  else match (q.2.port p).outst.find? (fun o => o.otag == c.otag) with
    | none => q.2
    | some o =>
      if !o.dataFits c then q.2
      else match o.what with
        | .passport => q.2.updPort p (fun x => { x with sysData := c.payload })
        | .tunnel _ => q.2.updPort p (fun x => { x with sysData := x.sysData ++ c.payload.take c.vlen })
        | w =>
          match nextData (q.2.port p).rdata c with
          | none => q.2.updPort p (fun x => { x with rdata := none })
          | some n =>
            let d := q.2.updPort p (fun x => { x with rdata := n })
            match w with
            | .readSec js => if c.offset = 8 then (js.filter (fun j => j.1 == c.plane * 4 + c.cw)).foldl (fun x j => x.arrive j.2) d else d
            | .recon jn p => if c.offset = 8 then d.arriveSrc jn p else d
            | .label _ => if c.offset = 0 then d.updPort p (fun x => { x with sysData := c.payload }) else d
            | _ => d

/-- A LOAD that returned OK (R248); a PU with its three loaves is programmed (R24). -/
def Die.loadDone (d : Die) (r row pos slot : Nat) : Die :=
  if (d.ru r).loaded.contains ((row * 64 + pos) * 4 + slot) || (d.ru r).st != .opened || (d.ru r).row != row then d
  else
    let d := d.loadOk r row pos slot
    let d := if (List.range 3).all (fun s => (d.ru r).loaded.contains ((row * 64 + pos) * 4 + s)) then d.queueProgram r row pos false else d
    (d.parityDue r row).progress

/-- A LOAD of P or Q that returned OK (R248): with its three loaf slots the parity PU is programmed. -/
def Die.parityLoaded (d : Die) (r row pos slot : Nat) : Die :=
  let u := d.ru r
  if u.loaded.contains ((row * 64 + pos) * 4 + slot) || u.st != .opened || u.row != row then d
  else
    let d := d.updRu r (fun u => { u with loaded := ((row * 64 + pos) * 4 + slot) :: u.loaded })
    if (List.range 3).all (fun s => (d.ru r).loaded.contains ((row * 64 + pos) * 4 + s)) then (d.queueProgram r row pos true).progress else d

/-- A PROGRAM that passed (R165, R248). -/
def Die.programDone (d : Die) (r row pos : Nat) (unread : Decodes) : Die :=
  let u := d.ru r
  if u.passed.contains (row * 64 + pos) || u.st != .opened then d
  else
    let d := if (u.dataPos row).contains pos then d.puPassed r row pos else d.updRu r (fun u => { u with passed := (row * 64 + pos) :: u.passed })
    ((d.recoverDue r unread).rowDone r row).progress

/-- The page read of an operation counted (R177). -/
def Die.countRead (d : Die) (o : DieOp) : Die := d.countPage o.port o.die o.block

/-- One block of an RU erased. -/
def Die.eraseDone (d : Die) (r i : Nat) (o : DieOp) : Die :=
  let d : Die := { d with rc := { d.rc with erasedBytes := d.rc.erasedBytes + 196608 * d.pusPerBlock (groupOf o.port) } }
  (d.updBlock (blockKey o.port o.die o.block) (fun b => { b with ec := b.ec + 1 })).updRu r (fun u => { u with toErase := u.toErase.filter (· != i) })

/-- A block that a rebuild broken off had written in part is erased, or, where the erase fails, retired (R178, R262). -/
def Die.partErased (d : Die) (o : DieOp) : Die :=
  let k := blockKey o.port o.die o.block
  let d : Die := { d with rc := { d.rc with erasedBytes := d.rc.erasedBytes + 196608 * d.pusPerBlock (groupOf o.port) } }
  ({ d with se := { d.se with partly := d.se.partly.filter (fun e => e.1 != k) } } : Die).updBlock k (fun b => { b with st := .free, ec := b.ec + 1 })
def Die.partLost (d : Die) (o : DieOp) : Die :=
  let k := blockKey o.port o.die o.block
  ({ d with se := { d.se with partly := d.se.partly.filter (fun e => e.1 != k) } } : Die).retireBlock o.port o.die o.block 0

/-- ERASE_FAIL: the block is retired, and a good free block of the berth takes its place and is erased (R170, R178). -/
def Die.eraseFailed (d : Die) (r i : Nat) (o : DieOp) : Die :=
  let d := d.retireBlock o.port o.die o.block 0
  match d.pickBlock o.port with
  | some b =>
    let d := d.updBlock (blockKey o.port b.1 b.2) (fun x => { x with st := .inRu r })
    let d := d.updRu r (fun u => { u with members := u.members.map (fun m =>
      if m.port == o.port && m.die == o.die && m.block == o.block then { port := o.port, die := b.1, block := b.2 } else m) })
    d.queueOp { o with die := b.1, block := b.2, what := .erase r i, otag := 0, issued := 0 }
  | none => d.updRu r (fun u => { u with toErase := u.toErase.filter (· != i) })

/-- The die is no longer busy with a program or erase. -/
def Die.opEnded (d : Die) (o : DieOp) : Die :=
  if o.op = opProgram ∨ o.op = opErase then
    (d.eraseSlices (dieKey o.port o.die) true).updDsch (dieKey o.port o.die) (fun s => { s with running := none, suspended := false })
  else d

/-- The operation once more in its die's queue. -/
def Die.requeue (d : Die) (o : DieOp) : Die := d.queueOp { o with otag := 0, issued := 0 }

/-- R217: an operation ended by a reset: a read is issued again and a program recovered; an erase or a LOAD, of which R217 says nothing, is
queued again (DESIGN CHOICE, log entry 169). -/
def Die.aborted (d : Die) (o : DieOp) : Die :=
  match o.what with
  | .progPu r pos => d.progFail r o.pu pos false {}
  | .rebLoad r pos _ => d.rebuildBreak r pos
  | .rebProg r pos => d.rebuildBreak r pos
  | .control => d
  | .tunnel _ => d.updDsch (dieKey o.port o.die) (fun s => { s with tunnelRsp := some 0x09 })
  | .passport => if (d.port o.port).st == .identifying then d.issueOp (passportRead o.port) else d
  | .label i => if (d.port o.port).st == .identifying then d.issueOp (labelRead o.port i) else d
  | _ => d.requeue o

/-- What was loaded on dies that a condition names and not programmed is lost with their reset and recovered (R218, R223). -/
def Die.loadsLost (d : Die) (f : Member → Bool) : Die :=
  (d.openRusWith (fun u => u.members.any f)).foldl (fun x r =>
    let u := x.ru r
    let par := [posP u.k u.row, posQ u.k u.row].filter (fun p => (match u.members[p]? with | some m => f m | none => false)
      && !u.isHole u.row p && !u.passed.contains (u.row * 64 + p))
    let x := par.foldl (fun (y : Die) p => y.dropFills r u.row p) x
    let x := (x.updRu r (fun u => { u with loaded := u.loaded.filter (fun k => !par.any (fun p => k / 4 == u.row * 64 + p)) })).parityDue r u.row
    ((List.range u.members.length).filter (fun p => (match u.members[p]? with | some m => f m | none => false)
        && (u.dataPos u.row).contains p && !u.isHole u.row p && !u.passed.contains (u.row * 64 + p)
        && (List.range 3).any (fun s => u.loaded.contains ((u.row * 64 + p) * 4 + s)))).foldl (fun y p =>
      y.progFail r u.row p false {}) x) d

/-! ## The die ladder (R232) -/

/-- A step of the die ladder recorded. -/
def Die.ladderRecord (d : Die) (p die step op sev : Nat) : Die := d.record 0x0707 sev p (le 2 p ++ le 1 die ++ le 1 step ++ le 1 op)

/-- Step 3: the die is fenced: no further operation, its data as that of a lost member. -/
def Die.fenceDie (d : Die) (p die op : Nat) : Die :=
  let d := d.updPort p (fun x => { x with dfence := x.dfence ||| bit16 die })
  let d := d.updDsch (dieKey p die) (fun s => { s with ladder := 3, running := none, suspended := false })
  let d := (d.loseOps p (fun i => i == die)).dropMembers (fun m => m.port == p && m.die == die)
  (d.ladderRecord p die 3 op sevWarning).progress

/-- Step 2: DIE_RESET. What the die runs ends by it: each operation's RSP says ABORTED_BY_RESET, and what has had none when the reset's own
RSP comes has ended with it (R213, R217, R223). -/
def Die.resetDie (d : Die) (p die op : Nat) : Die :=
  let d := d.updDsch (dieKey p die) (fun s => { s with ladder := 2, polled := none, resetAt := d.now })
  (d.issueOp { port := p, die := die, op := opDieReset, system := true }).ladderRecord p die 2 op sevNotice

/-- A DIE_RESET has been answered: what was loaded on the die is recovered, and the die serves again (R220, R221, R223). -/
def Die.dieReset (d : Die) (p die : Nat) : Die :=
  let left := d.outstAt p die
  let d := d.updPort p (fun x => { x with outst := x.outst.filter (fun o => o.die != die), cmds := x.cmds.filter (fun o => o.die != die) })
  let d := d.updDsch (dieKey p die) (fun s => { s with
    ladder := if s.ladder = 3 then 3 else 0, polled := none, running := none, suspended := false, tunnel := false, offsetSet := 0 })
  ((left.foldl (fun x o => x.aborted o) d).loadsLost (fun m => m.port == p && m.die == die)).progress

/-- The ladder of a die climbed by one failure of an operation: a STATUS poll, then a reset, then the fence, which is also where a reset that
fails and a second failure within 1 s lead. -/
def Die.dieLadder (d : Die) (o : DieOp) (resetFails : Bool) : Die :=
  let s := d.dsch (dieKey o.port o.die)
  if s.resetAt ≠ 0 ∧ d.now < s.resetAt + 1000000 ∨ o.op = opDieReset then d.fenceDie o.port o.die o.op
  else if s.ladder = 0 then
    let d := d.updDsch (dieKey o.port o.die) (fun s => { s with ladder := 1, polled := some o.otag })
    let d := d.updPort o.port (fun x => { x with outst := x.outst.map (fun y => if y.otag == o.otag then { y with issued := d.now } else y) })
    (d.issueOp { port := o.port, die := o.die, op := opStatus, system := true }).ladderRecord o.port o.die 1 o.op sevNotice
  else
    let d := d.resetDie o.port o.die o.op
    if resetFails then d.fenceDie o.port o.die o.op else d

/-- Whether a die state that STATUS returns (R216) is that of a die still busy on an operation. -/
def busyOn (o : DieOp) (st : Nat) : Bool :=
  if o.op = opProgram then st == 2 || st == 4 else if o.op = opErase then st == 3 || st == 4 else st == 1

/-- The answer to step 1's poll (R232): a die still busy on the operation has one more limit for it; else the ladder goes on. -/
def Die.statusAnswer (d : Die) (p die st : Nat) : Die :=
  let s := d.dsch (dieKey p die)
  if s.ladder ≠ 1 then d
  else match s.polled.bind (fun t => (d.port p).outst.find? (fun o => o.otag == t)) with
    | some o =>
      if busyOn o st then d.updPort p (fun x => { x with outst := x.outst.map (fun y => if y.otag == o.otag then { y with issued := d.now } else y) })
      else d.resetDie p die o.op
    | none => d.updDsch (dieKey p die) (fun s => { s with ladder := 0, polled := none })

/-- An operation that has ended well leaves the ladder. -/
def Die.offLadder (d : Die) (o : DieOp) : Die :=
  d.updDsch (dieKey o.port o.die) (fun s => if s.ladder == 1 && s.polled == some o.otag then { s with ladder := 0, polled := none } else s)

/-- Limit of an operation from its CMD, µs (R232); the rule gives none for LOADs and control operations, and the model gives them that of
reads, 2 ms (DESIGN CHOICE, log entry 170). -/
def opLimit (o : DieOp) : Nat := if o.op = opErase then 40000 else if o.op = opProgram then 10000 else 2000

/-- NAND_OP_TIMEOUT: an operation outstanding past its limit, suspended time excluded. -/
def Die.nandTimeout (d : Die) (p otag : Nat) (resetFails : Bool) : Die :=
  match (d.port p).outst.find? (fun o => o.otag == otag) with
  | some o =>
    let s := d.dsch (dieKey p o.die)
    let susp := if o.op = opProgram ∨ o.op = opErase then s.suspTime + (if s.suspended then d.now - s.suspAt else 0) else 0
    if o.issued + opLimit o + susp ≤ d.now then d.dieLadder o resetFails else d
  | none => d

/-! ## RSP (R216, R217) -/

/-- A control operation that returned OK (R216, R219, R220). -/
def Die.controlOk (d : Die) (o : DieOp) (r : Rsp) : Die :=
  let k := dieKey o.port o.die
  if o.op = opSuspend then d.updDsch k (fun s => match s.running, (d.port o.port).passport with
    | some y, some x => { s with suspended := true, suspAt := d.now, readsInSusp := 0, limits := (d.prof.suspReads, d.prof.suspTime)
                                 began := d.now + r.detail % 65536 - typTime x y }
    | _, _ => s)
  else if o.op = opResume then d.updDsch k (fun s =>
    if s.suspended then { s with suspended := false, suspTime := s.suspTime + (d.now - s.suspAt), began := s.began + (d.now - s.suspAt) } else s)
  else if o.op = opStatus then
    (d.updDsch k (fun s =>
      if s.running.isSome && !s.suspended && r.detail % 256 != 0 then { s with began := d.now - r.detail / 256 % 65536 } else s)).statusAnswer o.port o.die (r.detail % 256)
  else if o.op = opDieReset then d.dieReset o.port o.die
  else d

/-- An operation that returned OK. -/
def Die.opOk (d : Die) (o : DieOp) (r : Rsp) (unread : Decodes) : Die :=
  let d := d.offLadder o
  match o.what with
  | .readSec _ => d.countRead o
  | .recon _ _ => d.countRead o
  | .shipLoaf ru pos slot => d.loadDone ru o.pu pos slot
  | .shipPar ru pos slot => d.parityLoaded ru o.pu pos slot
  | .fill ru pos slot => d.loadDone ru o.pu pos slot
  | .progPu ru pos => d.programDone ru o.pu pos unread
  | .rebLoad ru pos slot => d.rebuildLoaded ru pos slot o
  | .rebProg ru pos => d.rebuildPassed ru pos o
  | .erasePart => d.partErased o
  | .erase ru i => d.eraseDone ru i o
  | .passport => (d.updPort o.port (fun x => { x with sysData := [] })).passportTaken false o.port { raw := padTo 512 (d.port o.port).sysData }
  | .label i => (d.updPort o.port (fun x => { x with sysData := [] })).labelTaken false o.port i { raw := padTo 64 (d.port o.port).sysData }
  | .tunnel _ =>
    (d.updDsch (dieKey o.port o.die) (fun s => { s with tunnelRsp := some r.status })).issueOp
      { port := o.port, die := o.die, op := opDieReset, system := true }
  | .control => d.controlOk o r

/-- The first command byte of a tunnel's sequence (R221, R478). -/
def DieOp.firstCommand (o : DieOp) : Nat :=
  match o.what with
  | .tunnel bs => (((List.range (bs.length / 2)).find? (fun i => leAt bs (2 * i) 1 == 1)).map (fun i => leAt bs (2 * i + 1) 1)).getD 0
  | _ => 0

/-- R217: the device acts on the status of an RSP. What becomes of an operation that a protocol error ends is a DESIGN CHOICE (log entry
199): it is taken as one that a reset aborted. -/
def Die.actOn (d : Die) (o : DieOp) (r : Rsp) (unread : Decodes) : Die :=
  match r.status with
  | 0x00 => (d.opEnded o).opOk o r unread
  | 0x01 => match o.what with
    | .progPu ru pos => ((d.opEnded o).progFail ru o.pu pos true unread).progress
    | .rebProg ru pos => ((d.opEnded o).retireBlock o.port o.die o.block 1).rebuildBreak ru pos
    | _ => d.opEnded o
  | 0x02 => match o.what with
    | .erase ru i => (d.opEnded o).eraseFailed ru i o
    | .erasePart => (d.opEnded o).partLost o
    | _ => d.opEnded o
  | 0x05 => (d.updPort o.port (fun x => { x with outst := x.outst ++ [o] })).dieLadder o false
  | 0x06 => (d.updPort o.port (fun x => { x with outst := x.outst ++ [o] })).dieLadder o false
  | 0x07 => d.readAtOnce o.port o.die
  | 0x08 => d.updDsch (dieKey o.port o.die) (fun s => { s with suspends := 255 })
  | 0x09 => ((d.opEnded o).aborted o).progress
  | 0x0B => (d.record 0x0705 sevError o.port (le 2 o.port ++ le 1 o.die ++ le 1 o.firstCommand)).updDsch (dieKey o.port o.die)
      (fun s => { s with tunnel := false, tunnelRsp := some 0x0B })
  | _ => ((d.opEnded o).aborted o).protocolError o.port r.hdr

/-- RSP_RECEIVED: the final answer of an operation outstanding. unread: the code words that fail where it has a row read back (R251). -/
def Die.rsp (d : Die) (p : Nat) (r : Rsp) (unread : Decodes) : Die :=
  let q := d.rxFlit p r.hdr true
  if q.1 then
    match (q.2.port p).outst.find? (fun o => o.otag == r.otag) with
    | some o =>
      let d := q.2.updPort p (fun x => { x with outst := x.outst.filter (fun y => y.otag != r.otag), ops := (x.ops + 1) % 2 ^ 32 })
      d.actOn o r unread
    | none => q.2
  else q.2

/-- BRIDGE_RESET_DONE: every operation of the berth has ended by the reset, loaded data is lost, credits are exchanged anew (R223); the dies
keep their offsets (R220). -/
def Die.bridgeDone (d : Die) (p : Nat) : Die :=
  let x := d.port p
  if x.asked lmgtBridge then
    let d := (d.lmgtDone p lmgtBridge).updPort p (fun y => { y with outst := [], cmds := [], wdata := [], rdata := none, crShort := 0, crLong := 0 })
    let d := { d with sch := { d.sch with dies := d.sch.dies.map (fun (e : Nat × DieSch) =>
      if e.1 / 16 == p then (e.1, { e.2 with running := none, suspended := false }) else e) } }
    let d := ((x.outst ++ x.cmds).foldl (fun (y : Die) o => y.aborted o) d).loadsLost (fun m => m.port == p)
    (d.sendLmgt p lmgtCredit 0).progress
  else d

/-! ## The meanings -/

/-- DIE_DISPATCH (R278). -/
def execDieDispatch (port die : Nat) (s : State) : Host.Outcome State Fault Refusal := s.run (·.dieDispatch port die)
/-- RSP_RECEIVED (R217). -/
def execRspReceived (port : Nat) (rsp : Reading Rsp) (s : State) : Host.Outcome State Fault Refusal := s.run (·.rsp port rsp.on rsp.unread)
/-- RDATA_RECEIVED (R214). -/
def execRdataReceived (port : Nat) (hdr : FlitHdr) (desc : DataDesc) (s : State) : Host.Outcome State Fault Refusal :=
  s.run (·.rdata port hdr desc)
/-- BRIDGE_RESET_DONE (R223). -/
def execBridgeResetDone (port : Nat) (s : State) : Host.Outcome State Fault Refusal := s.run (·.bridgeDone port)
/-- NAND_OP_TIMEOUT (R232). -/
def execNandOpTimeout (port otag : Nat) (resetFails : Bool) (s : State) : Host.Outcome State Fault Refusal :=
  s.run (·.nandTimeout port otag resetFails)

end Sys2Proof.Machine
end

