-- ==== Sys2Proof/Machine/Kanex.lean ====
section
/-! DEFINITION. The Kanex mailbox (R366 to R388): the catalogue, acceptance and the order of the checks, responses, paging,
progress, and forwarding to other dies. A request arrives as the operand of its command's own row (log entry 28). -/

namespace Sys2Proof.Machine

/-! ## The catalogue (R376, R386) -/

/-- A row of the catalogue: opcode, privilege (0 Owner, 1 Tenant: own, 2 Any, 3 Tenant: own with Owner: any) and class
(0 Fast, 1 Normal, 2 Long). -/
abbrev CatRow := Nat × Nat × Nat

def catalogueA : List CatRow := [
  (0x0101, 2, 0), (0x0102, 2, 0), (0x0103, 0, 0), (0x0104, 0, 1), (0x0201, 0, 1), (0x0202, 0, 2), (0x0203, 0, 0),
  (0x0204, 3, 0), (0x0205, 0, 0), (0x0206, 0, 1), (0x0207, 0, 1), (0x0208, 0, 1), (0x0301, 0, 1), (0x0302, 0, 2),
  (0x0303, 0, 0), (0x0304, 0, 1), (0x0401, 3, 0), (0x0402, 3, 1), (0x0403, 1, 1), (0x0404, 3, 1), (0x0405, 3, 2),
  (0x0406, 3, 1), (0x0407, 0, 2), (0x0408, 1, 1), (0x0409, 1, 0), (0x040A, 2, 0)]
def catalogueB : List CatRow := [
  (0x0501, 0, 0), (0x0502, 0, 1), (0x0503, 0, 1), (0x0504, 3, 0), (0x0505, 0, 0), (0x0506, 0, 0), (0x0507, 0, 1),
  (0x0508, 0, 0), (0x0509, 0, 2), (0x050A, 0, 1), (0x0601, 0, 0), (0x0602, 0, 0), (0x0603, 0, 0), (0x0701, 0, 1),
  (0x0702, 0, 0), (0x0703, 0, 1), (0x0704, 0, 0), (0x0705, 0, 0), (0x0706, 0, 1), (0x0707, 0, 0), (0x0708, 0, 0),
  (0x0709, 0, 0), (0x070A, 0, 0), (0x0801, 0, 2), (0x0802, 0, 0), (0x0803, 0, 0), (0x0804, 0, 1)]
def catalogueC : List CatRow := [
  (0x0901, 0, 1), (0x0902, 0, 1), (0x0903, 0, 2), (0x0904, 0, 2), (0x0905, 0, 1), (0x0906, 0, 0), (0x0907, 0, 1),
  (0x0A01, 0, 0), (0x0A02, 0, 2), (0x0A03, 0, 2), (0x0A04, 0, 2), (0x0A05, 0, 1), (0x0B01, 0, 0), (0x0B02, 0, 1),
  (0x0B03, 0, 1), (0x0B04, 0, 1), (0x0B05, 0, 1), (0x0B06, 0, 1), (0x0B07, 0, 1), (0x0B08, 0, 0), (0x0B09, 0, 1),
  (0x0B0A, 0, 0), (0x0C01, 0, 0), (0x0C02, 0, 2), (0x0C03, 0, 1), (0x0C04, 0, 2), (0x0C05, 0, 1), (0x0C06, 0, 1),
  (0x0D01, 0, 0), (0x0D02, 0, 0), (0x0D03, 0, 0)]

/-- The commands of Kanex protocol version 3, in ascending opcode order. -/
def catalogue : List CatRow := catalogueA ++ catalogueB ++ catalogueC

/-- The catalogue's row of an opcode. -/
def catRow (op : Nat) : Option CatRow := catalogue.find? (fun r => r.1 == op)

/-- Class of an opcode: 0 Fast, 1 Normal, 2 Long. -/
def kClass (op : Nat) : Nat := match catRow op with | some r => r.2.2 | none => 0

/-- Privilege of an opcode. -/
def kPriv (op : Nat) : Nat := match catRow op with | some r => r.2.1 | none => 0

/-- Whether an opcode is hierarchy-wide (R376, R384). -/
def hierWide (op : Nat) : Bool := [2, 3, 4, 9, 10].contains (op / 256) || [0x0103, 0x0104, 0x0504, 0x070A].contains op

/-- The per-die commands that take TDIE = 0xFF (R376). -/
def everyDie : List Nat := [0x0502, 0x0503, 0x0507, 0x050A, 0x0703, 0x0705, 0x0706, 0x0707, 0x0708, 0x0801, 0x0804,
  0x0B02, 0x0B03, 0x0B04, 0x0B05, 0x0B06, 0x0B09, 0x0B0A, 0x0C02, 0x0C03, 0x0C04, 0x0C05, 0x0C06, 0x0D01, 0x0D02, 0x0D03]

/-- Scope of an opcode: 0 hierarchy-wide, 1 per-die, 2 per-die with 0xFF (R376, R384). -/
def kScope (op : Nat) : Nat :=
  if hierWide op then 0
  else if everyDie.contains op then 2 else 1

/-- The timeout of a class (R379), µs. -/
def classLimit : Nat → Nat
  | 0 => 10000
  | 1 => 1000000
  | _ => 60000000

/-- The tenant a request acts on (R369). -/
def kTenant (q : KReq) : Nat := if q.tfunc = 0xFFFF then q.fn else q.tfunc

/-! ## Responses (R366, R367, R373, R374) -/

/-- An event bit of a mailbox set, and its vector sent where it is enabled (R366, R367). -/
def Die.mbxEvent (d : Die) (fn i : Nat) (send : Bool) : Die :=
  let d := d.updMbx fn (fun m => { m with event := m.event ||| BitVec.ofNat 3 (2 ^ i) })
  if send then d.countVec fn (d.vecOf fn (bitsOf (d.fn fn).mbx.ctrl 16 11)) false false else d

/-- A response written: the response area, then STATE DONE, then the event and the vector; a worker answers its manager (R492). -/
def Die.respondFull (d : Die) (fn status : Nat) (synth more : Bool) (detail total : Nat) (payload : List Byte) : Die :=
  let d := d.updMbx fn (fun m => { m with
    st := .done, held := false, answers := [], kept := []
    resp := some { opcode := m.opcode, seq := m.seq, status := status, synth := synth, more := more, detail := detail,
                   total := total, elapsed := min 0xFFFFFFFF ((d.now - m.accepted) / 1000), payload := payload } })
  let d := if d.life.manager then d else d.quayMgmtSend d.life.quayId (.kanexResponse fn status detail payload)
  d.mbxEvent fn 0 ((d.fn fn).mbx.ctrl.getLsbD 0)

/-- A synthetic response (R374). -/
def Die.synthetic (d : Die) (fn status detail : Nat) : Die := d.respondFull fn status true false detail 0 []

/-- Where every present die has answered a command for all of them: the payload of R376 and its status. -/
def answerEntry (a : Nat × Option Nat) : List Byte := le 1 a.1 ++ le 1 0 ++ le 2 (a.2.getD kNotPresent)

/-- The present dies' answers: all OK, some OK, or the status of the lowest-numbered group (R376). -/
def answerStatus (l : List (Nat × Option Nat)) : Nat :=
  let here := l.filter (fun a => a.2 != some kNotPresent)
  if here.all (fun a => a.2 == some kOk) then kOk
  else if here.any (fun a => a.2 == some kOk) then kPartial
  else (((here.head?).map (fun a => a.2.getD kOk)).getD kOk)

/-- A command for every present die ends when each has answered: one with TDIE = 0xFF with the entries of R376, a hierarchy-wide one with
its own payload, and HIER_PROFILE_SET with the entries when the status is PARTIAL (R323, R387, R504). -/
def Die.gathered (d : Die) (fn : Nat) : Die :=
  let m := (d.fn fn).mbx
  let l := m.answers
  if l.all (fun a => a.2.isSome) then
    let done := (l.filter (fun a => a.2 == some kOk)).length
    let st := if hierWide m.opcode && m.opcode != 0x0A05 then (((l.filter (fun a => a.2 != some kOk)).head?).map (fun a => a.2.getD kOk)).getD kOk else answerStatus l
    let payload := if hierWide m.opcode && !(m.opcode == 0x0A05 && st == kPartial) then (if st = kOk then m.kept else []) else l.flatMap answerEntry
    d.respondFull fn st false false (if st = kPartial then done else 0) 0 payload
  else d

/-- The answer of one die noted. -/
def Die.answerOf (d : Die) (fn g status : Nat) : Die :=
  (d.updMbx fn (fun m => { m with answers := m.answers.map (fun a => if a.1 = g then (g, some status) else a) })).gathered fn

/-- The end of a command on this die: its response, or its part of the answer of every die. -/
def Die.kanexEnd (d : Die) (fn status detail : Nat) (payload : List Byte) : Die :=
  if (d.fn fn).mbx.answers.isEmpty then d.respondFull fn status false false detail 0 payload
  else d.answerOf fn d.anaGroup status

/-- The end of a Long command of an opcode, where that command is the one running. -/
def Die.kanexEndOf (d : Die) (fn op status detail : Nat) (payload : List Byte) : Die :=
  if (d.fn fn).mbx.st = .running ∧ (d.fn fn).mbx.opcode = op then d.kanexEnd fn status detail payload else d

/-- PCT (R366). -/
def Mbx.pct (m : Mbx) : Nat :=
  if m.st == .done then 100 else if kClass m.opcode = 2 ∧ m.progTotal ≠ 0 then min 100 (100 * m.progress / m.progTotal) else 0

/-- MBX_PROGRESS advanced (R375): the class timer starts again, and PROGRESS is set at most once every 100 ms, for a PCT other
than it last told (R366, R367). -/
def Die.kanexProgress (d : Die) (fn n : Nat) : Die :=
  let old := (d.fn fn).mbx.progPct
  let d := d.updMbx fn (fun m => { m with progress := n, classFrom := d.now })
  let due := match (d.fn fn).mbx.progAt with | none => true | some t => decide (t + 100000 ≤ d.now)
  if (d.fn fn).mbx.pct ≠ old ∧ due = true then
    (d.updMbx fn (fun m => { m with progAt := some d.now, progPct := m.pct })).mbxEvent fn 1 ((d.fn fn).mbx.ctrl.getLsbD 1)
  else d

/-! ## Acceptance and the checks of R383 -/

/-- What a command's own part answers. -/
inductive KAns where
  /-- The status with DETAIL, the payload, and the die after the command. -/
  | ans (d : Die) (status detail : Nat) (payload : List Byte)
  /-- A paged result of items of a size (R373). -/
  | paged (d : Die) (total size : Nat) (item : Nat → List Byte)
  /-- A command that goes on, with the units of work it has. -/
  | go (d : Die) (total : Nat)
  /-- A command that waits for commands in flight: its row runs it again (log entry 31). -/
  | wait (d : Die)
  /-- A hierarchy-wide command done as requested on this die: it ends when every worker that serves has applied it (R323). -/
  | all (d : Die) (payload : List Byte)

/-- Nothing done, with a status. -/
def KAns.no (d : Die) (status : Nat) : KAns := .ans d status 0 []

/-- Done as requested. -/
def KAns.ok (d : Die) (payload : List Byte) : KAns := .ans d kOk 0 payload

/-- What a command adds to the frame: its opcode, the bytes its payload has and those that R387 lists, whether it acts on the
tenant that TFUNC names, the payload offset of its first wrong field, and its own part. -/
structure KCmd where
  op : Nat
  need : Nat := 0
  used : List (Nat × Nat) := []
  acts : Bool := false
  bad : Die → Option Nat := fun _ => none
  body : Die → KAns

/-- The smaller of two offsets. -/
def minOffset (a b : Option Nat) : Option Nat :=
  match a, b with
  | some x, some y => some (min x y)
  | some x, none => some x
  | none, y => y

/-- The first payload byte that R387 does not list and that is not zero (R13). -/
def kRsvAt (q : KReq) (used : List (Nat × Nat)) : Option Nat :=
  (List.range q.len).find? (fun i => !(used.any (fun u => decide (u.1 ≤ i) && decide (i < u.1 + u.2))) && q.get i 1 != 0)

/-- The first wrong header field (R369, R383), by its byte offset; bulk: the opcode takes bulk data. -/
def kHeaderBad (q : KReq) (bulk : Bool) : Option Nat :=
  if 4064 < q.len then some 4
  else if q.rsv11 ≠ 0 then some 11
  else if 1048576 < q.dlen ∨ (q.dlen ≠ 0 ∧ bulk = false) then some 16
  else if q.rsv20 ≠ 0 then some 20
  else if q.dptr % 4096 ≠ 0 then some 24 else none

/-- A VF, or a command without Owner: any, names another tenant than its own (R382). -/
def kForeign (q : KReq) (priv : Nat) : Bool := q.tfunc != 0xFFFF && q.tfunc != q.fn && (priv == 1 || (priv == 3 && q.fn != 0))

/-- The NOTICE record of a NOT_PERMITTED (R382). -/
def Die.deniedRecord (d : Die) (fn op : Nat) : Die := d.record 0x0C02 sevNotice fn (le 2 fn ++ le 2 op)

/-- NOT_PERMITTED with its record (R382). -/
def Die.kanexDenied (d : Die) (fn op : Nat) : Die := (d.deniedRecord fn op).synthetic fn kNotPermitted 0

/-- A command's own NOT_PERMITTED, with its record (R382). -/
def KAns.denied (d : Die) (q : KReq) (op : Nat) : KAns := .no (d.deniedRecord q.fn op) kNotPermitted

/-- Whether a die of the hierarchy is present: this one, or a position admitted with its link up (DEDUCED, log entry 29). -/
def Die.diePresent (d : Die) (g : Nat) : Bool :=
  g == d.anaGroup || (d.life.manager && decide (2 ≤ g) && decide (g ≤ 17) &&
    (match (d.qpos (g - 2)).st with | .joining | .serving | .leaving | .adopting => true | _ => false))

/-- The ANA group of the die that TDIE names: 0 names the manager; this die takes what is forwarded to it. -/
def Die.tdieGroup (d : Die) (tdie : Nat) : Nat := if tdie = 0 then d.anaGroup else tdie

/-- The items of a page (R373). -/
def pageItems (total size roffset : Nat) : List Nat := (List.range' roffset (4064 / size)).filter (fun i => decide (i < total))

/-- The answers of this die and of the workers that serve awaited for a hierarchy-wide command (R323). -/
def Die.awaitAll (d : Die) (fn : Nat) : Die :=
  if d.servingWorkers.isEmpty || !(d.fn fn).mbx.answers.isEmpty then d
  else d.updMbx fn (fun m => { m with answers := (d.anaGroup, none) :: d.servingWorkers.map (fun p => (p + 2, none)) })

/-- A hierarchy-wide command applied on this die: its response, or its part of the answer of every die (R323). -/
def Die.appliedHere (d : Die) (fn : Nat) (payload : List Byte) : Die :=
  let d := d.awaitAll fn
  if (d.fn fn).mbx.answers.isEmpty then d.respondFull fn kOk false false 0 0 payload
  else (d.updMbx fn (fun m => { m with kept := payload })).answerOf fn d.anaGroup kOk

/-- The command's own part carried out and answered. -/
def kanexRun (fn : Nat) (roffset : Nat) (a : KAns) : Die :=
  match a with
  | .ans e st detail payload => e.kanexEnd fn st detail payload
  | .paged e total size item =>
    let ix := pageItems total size roffset
    if ix.isEmpty then e.respondFull fn kOk false false 0 total []
    else e.respondFull fn kOk false (decide (roffset + ix.length < total)) 0 total (ix.flatMap (fun i => padTo size (item i)))
  | .go e total => e.updMbx fn (fun m => { m with progTotal := total })
  | .wait e => e.updMbx fn (fun m => { m with held := true })
  | .all e payload => e.appliedHere fn payload

/-- Checks 7 to 11 and the command, on this die: a payload shorter than its layout, then its first wrong or reserved byte (R387;
log entry 138). -/
def Die.kanexHere (d : Die) (q : KReq) (c : KCmd) : Die :=
  if q.len < c.need then d.kanexEnd q.fn kBadParameter (32 + q.len) []
  else match minOffset (kRsvAt q c.used) (c.bad d) with
    | some o => d.kanexEnd q.fn kBadParameter (32 + o) []
    | none => kanexRun q.fn q.roffset (c.body d)

/-- The request goes to another die over its Quay link, class MGMT (R376, R492). -/
def Die.kanexForward (d : Die) (g op : Nat) (q : Option KReq) : Die := d.quayMgmtSend (g - 2) (.kanexCommand op q)

/-- Checks 6: where the command acts, and the answers of every die (R376). -/
def Die.kanexRoute (d : Die) (q : KReq) (c : KCmd) : Die :=
  if q.tdie = 0xFF ∧ kScope c.op = 2 then
    let l := (List.range' 1 17).map (fun g => (g, if d.diePresent g then none else some kNotPresent))
    let d := d.updMbx q.fn (fun m => { m with answers := l })
    let others := ((List.range' 1 17).filter (fun g => g != d.anaGroup && d.diePresent g))
    (others.foldl (fun x g => x.kanexForward g c.op (some q)) d).kanexHere q c
  else if (kScope c.op = 0 ∧ q.tdie ≠ 0) ∨ 17 < q.tdie then d.kanexEnd q.fn kBadParameter 10 []
  else if d.diePresent (d.tdieGroup q.tdie) = false then d.kanexEnd q.fn kNotPresent 0 []
  else if c.acts = true ∧ (d.tenant (kTenant q)).alive = false then d.kanexEnd q.fn kNotPresent 0 []
  else if d.tdieGroup q.tdie = d.anaGroup then d.kanexHere q c
  else d.kanexForward (d.tdieGroup q.tdie) c.op (some q)

/-- A function whose mailbox answers BUSY: TEARDOWN or FENCED (R368). -/
def Die.mbxUnavailable (d : Die) (fn : Nat) : Bool := (d.fn fn).st == .teardown || (d.fn fn).st == .fenced

/-- R381: a timed-out command is still stopping; it ends within 1 s (DESIGN CHOICE of 1 s, log entry 30). -/
def Die.mbxStopping (d : Die) (fn : Nat) : Bool := (d.fn fn).mbx.stopping && decide (d.now < (d.fn fn).mbx.classFrom + 1000000)

/-- The mailbox as an accepted request leaves it; the harbour core that holds the command is a free value (log entry 2). -/
def Mbx.taken (m : Mbx) (q : KReq) (op now core : Nat) : Mbx :=
  { m with st := .running, seq := q.dbSeq % 65536, opcode := op, progress := 0, progTotal := 0, accepted := now, classFrom := now, core := core,
           stopping := false, cmd := some q, held := false, answers := [], kept := [], progAt := none, progPct := 0 }

/-- Checks 2 to 6 of an accepted request, then the command. -/
def Die.kanexChecks (d : Die) (q : KReq) (c : KCmd) : Die :=
  if (d.tenant q.fn).alive = false then d.kanexDenied q.fn c.op
  else if q.dbSeq ≠ q.seq then d.synthetic q.fn kBadParameter 2
  else match kHeaderBad q (c.op == 0x0403 || c.op == 0x0902 || (catRow c.op).isNone) with
    | some o => d.respondFull q.fn kBadParameter false false o 0 []
    | none =>
      if (catRow c.op).isNone then d.respondFull q.fn kUnknown false false 0 0 []
      else if (kPriv c.op = 0 ∧ q.fn ≠ 0) ∨ kForeign q (kPriv c.op) = true then d.kanexDenied q.fn c.op
      else d.kanexRoute q c

/-- The status of a response for which the spec names none (log entry 34). -/
def openStatus (op n : Nat) : Nat := Config.openCode op n

/-- Whether the phase serves a command: all once ready; in maintenance and fault hold groups 0x01, 0x06, 0x08 and 0x09, in
thermal hold every owner command, on the PF mailbox (R428, R483, R520). -/
def Die.phaseServes (d : Die) (fn op : Nat) : Bool :=
  match d.life.phase with
  | .maintHold | .faultHold => fn == 0 && [1, 6, 8, 9].contains (op / 256)
  | .thermalHold => fn == 0
  | _ => true

/-- A SUBMIT (R370 to R372, R381, R383, R388): dropped while a command runs, answered BUSY, answered by the response that
stands, held by an activation hold, or checked and carried out. A command that waits, for the end of a hold or for commands in
flight, runs when its row comes again (log entry 31). -/
def Die.kanex (d : Die) (q : KReq) (c : KCmd) : Die :=
  let m := (d.fn q.fn).mbx
  if Config.functions ≤ q.fn ∨ d.mbxPresent q.fn = false then d
  else if d.phaseServes q.fn c.op = false ∧ m.st ≠ .running then
    (d.updMbx q.fn (fun m => m.taken q c.op d.now (d.freeVal % 17))).respondFull q.fn (openStatus c.op 9) false false 0 0 []
  else if d.mbxUnavailable q.fn = true then (d.updMbx q.fn (fun m => m.taken q c.op d.now (d.freeVal % 17))).synthetic q.fn kBusy 0
  else if m.st = .running then
    if m.held = true ∧ m.cmd = some q ∧ m.opcode = c.op ∧ d.qe.hold = false then
      (d.updMbx q.fn (fun m => { m with held := false })).kanexChecks q c
    else d.mbxEvent q.fn 2 false
  else if (match m.resp with | some r => r.seq == q.seq && r.opcode == c.op && q.dbSeq == q.seq | none => false) = true then
    d.updMbx q.fn (fun m => { m with st := .done })
  else if d.mbxStopping q.fn = true then (d.updMbx q.fn (fun m => { m.taken q c.op d.now (d.freeVal % 17) with stopping := true, classFrom := m.classFrom })).synthetic q.fn kBusy 0
  else
    let d := (d.updMbx q.fn (fun m => m.taken q c.op d.now (d.freeVal % 17))).drawn
    if d.qe.hold = true ∧ c.op ≠ 0x0904 then d.updMbx q.fn (fun m => { m with held := true }) else d.kanexChecks q c

/-! ## Movements (R378) -/

/-- A channel vacate or rejoin. -/
def Die.dramMoving (d : Die) : Bool := d.dc.chans.any (fun e => e.2.st == .vacating || e.2.st == .rejoining) || d.dc.back.isSome

/-- A berth drain or rebuild. -/
def Die.berthMoving (d : Die) : Bool := !d.se.rebuild.isEmpty || d.bp.ports.any (fun e => e.2.st == .draining)

/-- A worker join or departure. -/
def Die.workerMoving (d : Die) : Bool := d.ql.pos.any (fun e => e.2.st == .joining || e.2.st == .leaving || e.2.st == .adopting)

end Sys2Proof.Machine
end

