-- ==== Sys2Proof/Machine/Dram.lean ====
section
/-! DEFINITION. The DRAM controller (R334 to R356): drains, the merge buffer, patrol, refresh windows, vacate
and rejoin, channel failure, and the Kanex commands of group 0x0C and DRAM_INJECT. -/

namespace Sys2Proof.Machine

/-- DRAM_PATROL (R349): free granules are skipped; the last line ends a pass. Patrol reads are served when no other read waits (R344). -/
def Die.dramPatrol (d : Die) (ch line word : Nat) (o : DramOutcome) : Die :=
  let x := d.chan ch
  if x.st = .active ∧ line < x.lines ∧ word < 8 ∧ x.rq = [] then
    let d := if line + 1 = x.lines ∧ word = 7 then d.updChan ch (fun y => { y with patrolAt := d.now }) else d
    if (d.dc.byteAt ch line word).isNone then d else d.foundWord ch line word o
  else d

/-- DRAM_WRITE_DRAIN (R345): from 48 lines down to 16; below 48, when no read has waited for 1 µs, one line at a time. -/
def Die.writeDrain (d : Die) (ch : Nat) : Die :=
  let x := d.chan ch
  let quiet := x.rq.isEmpty && (match x.readAt with | some t => decide (t + 1 ≤ d.now) | none => true)
  if x.draining then { d with dc := d.dc.drainTo d.now ch 16 }
  else if quiet then { d with dc := d.dc.drainTo d.now ch (x.wq.length - 1) } else d

/-- MERGE_BUFFER_TIMEOUT (R347): a line that has been in the buffer for 2 µs leaves it. -/
def Die.mergeTimeout (d : Die) (ch line : Nat) : Die :=
  if (d.chan ch).merge.any (fun m => m.1 == line && decide (m.2.2 + 2 ≤ d.now)) then { d with dc := d.dc.mergeOut d.now ch line } else d

/-- REFRESH_WINDOW (R348): every tracker is cleared. -/
def Die.refreshWindow (d : Die) : Die :=
  { d with dc := { d.dc with chans := Tbl.mapVals (fun _ (x : Chan) => { x with acts := [] }) d.dc.chans } }

/-! ## Vacate, rejoin, failure (R352 to R356) -/

def opDramVacate : Nat := 0x0C02
def opDramRejoin : Nat := 0x0C04

/-- R353 steps 4 and 5: a channel that holds no used granule is drained and switched off. -/
def Die.vacated (d : Die) (ch : Nat) : Die :=
  let d := { d with dc := d.dc.empty d.now ch }
  let d := d.updChan ch (fun x => { x with st := .vacated })
  let d := ({ d with life := { d.life with alert := true } }).record 0x0B04 sevNotice ch (le 2 ch)
  d.kanexEndOf 0 opDramVacate kOk 0 []

/-- R355: whether a channel of the others still holds more than an even share beside the rejoined one. -/
def Dc.uneven (c : Dc) (b : Nat) : Bool :=
  (List.range 12).any (fun ch => ch != b && (Tbl.get {} c.chans ch).st == .active && decide (c.used b + 2 ≤ c.used ch))

/-- One granule's copy done: the poison bits of its lost words go with it, and its entry switches in one step (R341, R353). The words that
are stored with flips are decoded by the copy, and an injection armed at its destination takes its line (R365). -/
def Die.granuleTo (d : Die) (g ch slot dst : Nat) (bad : List Nat) : Die :=
  let d := ((d.chan ch).flips.filter (fun e => e.1 / 33554432 == slot)).foldl (fun (x : Die) e => x.foundWord ch (e.1 / 8) (e.1 % 8) .clean) d
  let d := bad.foldl (fun x w => if (x.chan ch).marked w then x.lostWord ch (w / 8) (w % 8) else x.uncorrectable ch (w / 8) (w % 8) false) d
  let lost := ((d.chan ch).pbits.filter (fun w => w / 33554432 == slot)).map (fun w => w % 33554432)
  let d := d.updChan ch (fun x => { x with pbits := x.pbits.filter (fun w => w / 33554432 != slot) })
  match d.dc.freeSlot dst with
  | some s =>
    ({ d with dc := { d.dc with granules := Tbl.set d.dc.granules g (dst, s) } }).updChan dst (fun x => { (match x.inject with | some i => if i.line / 4194304 = s then x.injected i.line 0xFF else x | none => x) with
      pbits := lost.map (fun w => s * 33554432 + w) ++ x.pbits })
  | none => d

/-- GRANULE_COPY_DONE (R353, R355). -/
def Die.granuleCopied (d : Die) (g : Nat) (bad : List Nat) : Die :=
  match d.dc.granules.find? (fun e => e.1 == g) with
  | none => d
  | some e =>
    let ch := e.2.1
    if (d.chan ch).st = .vacating then
      match d.dc.roomiest with
      | none => d
      | some dst =>
        let d := (d.granuleTo g ch e.2.2 dst bad).kanexProgress 0 ((d.fn 0).mbx.progress + 1)
        if d.dc.used ch = 0 then d.vacated ch else d
    else match d.dc.back with
      | some b =>
        if ch ≠ b ∧ (d.chan ch).st = .active ∧ d.dc.used b + 2 ≤ d.dc.used ch then
          let d := (d.granuleTo g ch e.2.2 b bad).kanexProgress 0 ((d.fn 0).mbx.progress + 1)
          if d.dc.uneven b then d else ({ d with dc := { d.dc with back := none } }).kanexEndOf 0 opDramRejoin kOk 0 []
        else d
      | none => d

/-- R356: a channel that stops answering and fails its retrain. -/
def Die.channelFailed (d : Die) (ch : Nat) : Die :=
  let old := (d.chan ch).st
  if old = .active ∨ old = .vacating ∨ old = .rejoining then
    let d := (d.ladderTake 10 ch 11 1 false).ladderTake 10 ch 11 3 false
    let d := d.updChan ch (fun x => { x with st := .failed, wq := [], merge := [], rq := [], flips := [], pbits := [], inject := none })
    let d := d.record 0x0B05 sevError ch (le 2 ch ++ le 1 (Config.openCode 0x0B05 1))
    let mine := d.dc.granules.filter (fun (e : Nat × Nat × Nat) => e.2.1 == ch)
    let lost : Tbl Sector := d.te.proof.filter (fun p => (List.range 3).any (fun i =>
      match d.dc.lineOf 3 ((p.1 * 256 + i * 2176) % (d.dc.proofGib * Config.gib)) with | some l => l.1 == ch | none => false))
    let d : Die := { d with dc := { d.dc with granules := d.dc.granules.filter (fun e => e.2.1 != ch), back := if d.dc.back = some ch then none else d.dc.back } }
    let d : Die := { d with dc := mine.foldl (fun (c : Dc) (e : Nat × Nat × Nat) => match c.roomiest with | some x => c.place e.1 x | none => c) d.dc }
    let d := if lost.isEmpty then d else (lost.foldl (fun x p => x.loseProof p.1) d).regionLoss sevAlert ch (Config.openCode 0x0B02 4) 3
    let d := if mine.any (fun e => regionOf e.1 == 2) then d.regionLoss sevNotice ch (Config.openCode 0x0B02 4) 2 else d
    let d := if mine.any (fun e => decide (regionOf e.1 < 2)) then d.regionLoss sevWarning ch (Config.openCode 0x0B02 4) 0 else d
    let d := if mine.all (fun e => Tbl.has d.dc.granules e.1) then d
      else (({ d with te := { d.te with heldDram := true } }).ladderTake 10 ch 11 4 false).regionLoss sevCritical ch (Config.openCode 0x0B02 4) 4
    if old = .vacating then d.kanexEndOf 0 opDramVacate (openStatus opDramVacate 0) 0 []
    else d.kanexEndOf 0 opDramRejoin (openStatus opDramRejoin 1) 0 []
  else d

/-- R335: whether a channel's population keeps the rules. -/
def chanGood (f : ChanFind) : Bool :=
  f.popOk && (f.dimms == 1 || (f.dimms == 2 && f.cap0 == f.cap1)) && decide (8 ≤ f.cap0 + f.cap1) && decide (f.cap0 + f.cap1 ≤ 64)

/-- A channel brought into service with what was found on it, swept (R343, R355). -/
def Chan.fitted (x : Chan) (f : ChanFind) (st : ChState) : Chan :=
  { x with st := st, dimms := f.dimms, rate := f.rate, drfm := f.drfm, cap0 := f.cap0, cap1 := f.cap1, wq := [], merge := [], rq := [], flips := [], pbits := [], acts := [], raa := [] }

/-- R335: all channels train to the lowest rate that any of them reaches. A channel that comes back slower takes the others down with it
(DEDUCED, log entry 219). -/
def Die.levelRates (d : Die) : Die :=
  let on := (List.range 12).filter (fun c => (d.chan c).st == .active || (d.chan c).st == .vacating)
  let low := on.foldl (fun a c => min a (d.chan c).rate) 2
  on.foldl (fun (x : Die) c => x.updChan c (fun y => { y with rate := low })) d

/-- DRAM_REJOIN's own part (R355). -/
def Die.dramRejoin (d : Die) (ch : Nat) (f : ChanFind) : KAns :=
  if (d.chan ch).st ≠ .vacated ∧ (d.chan ch).st ≠ .failed then .no d kStateConflict
  else if chanGood f = false then
    let d := (d.updChan ch (fun x => { x with st := .failed })).record 0x0B01 sevError ch (le 2 ch ++ le 1 (Config.openCode 0x0B01 0))
    .no (d.record 0x0B05 sevError ch (le 2 ch ++ le 1 (Config.openCode 0x0B05 2))) (openStatus opDramRejoin 0)
  else if f.trainOk = false then
    .no ((d.updChan ch (fun x => { x with st := .failed })).record 0x0B05 sevError ch (le 2 ch ++ le 1 (Config.openCode 0x0B05 0)))
      (openStatus opDramRejoin 0)
  else
    let d := (d.updChan ch (fun x => x.fitted f .active)).levelRates.placeGranules
    let d := { d with dc := { d.dc with trained := ch :: d.dc.trained.filter (· != ch) } }
    let whole := (List.range 4).all (fun r => decide (ceilDiv (d.regionBytes r) Config.limitUnit ≤ d.dc.placed r))
    let d := { d with te := { d.te with heldDram := d.te.heldDram && !whole } }
    if d.dc.uneven ch then
      .go { d with dc := { d.dc with back := some ch } } (d.dc.granules.length / ((List.range 12).filter (fun c => (d.chan c).st == .active)).length)
    else .ok d []

/-- DRAM_VACATE's own part (R353, R354). -/
def Die.dramVacate (d : Die) (ch : Nat) : KAns :=
  let others := sumBy (fun c => if c != ch && (d.chan c).st == .active then d.dc.freeOn c else 0) (List.range 12)
  if (d.chan ch).st ≠ .active ∨ (List.range 12).any (fun c => c != ch && ((d.chan c).st == .vacating || (d.chan c).st == .rejoining)) = true then
    .no d kStateConflict
  else if others < d.dc.used ch then .no d kExhausted
  else
    let d := d.updChan ch (fun x => { x with st := .vacating })
    if d.dc.used ch = 0 then
      let d := { d with dc := d.dc.empty d.now ch }
      let d := d.updChan ch (fun x => { x with st := .vacated })
      .ok (({ d with life := { d.life with alert := true } }).record 0x0B04 sevNotice ch (le 2 ch)) []
    else .go d (d.dc.used ch)

/-- A vacate stopped in steps 2 and 3: the granules that have switched stay (R354). -/
def Die.vacateStop (d : Die) : Die :=
  { d with dc := { d.dc with chans := Tbl.mapVals (fun _ (x : Chan) => if x.st == .vacating then { x with st := .active } else x) d.dc.chans } }

/-- DRAM_CANCEL's own part (R354). -/
def Die.dramCancel (d : Die) (ch : Nat) : KAns :=
  if (d.chan ch).st = .vacating then .ok (d.updChan ch (fun x => { x with st := .active })) []
  else .no d kStateConflict

/-- State of a channel by number (R350). -/
def ChState.num : ChState → Nat
  | .absent => 0
  | .training => 1
  | .active => 2
  | .vacating => 3
  | .vacated => 4
  | .failed => 5
  | .rejoining => 6

/-- The 32-byte record of a channel (R350). -/
def Die.chanRecord (d : Die) (ch : Nat) : List Byte :=
  let x := d.chan ch
  le 4 (x.st.num + 8 * x.dimms + 32 * x.rate + 128 * bit x.drfm + 256 * x.cap0 + 65536 * x.cap1) ++ le 2 x.granules ++ le 2 (d.dc.used ch)
    ++ le 4 x.ce ++ le 4 x.ue ++ le 4 x.addrErr ++ le 4 x.dref ++ le 4 ((d.now - x.patrolAt) / 1000000) ++ le 4 0

/-- A channel number at payload byte 0 that names no channel. -/
def badChannel (q : KReq) : Option Nat := if 12 ≤ q.get 0 1 then some 0 else none

/-- The first wrong field of DRAM_INJECT's block (R351). -/
def injectBad (q : KReq) : Option Nat :=
  if 12 ≤ q.get 0 1 then some 0
  else if 8 ≤ q.get 1 1 ∧ q.get 1 1 ≠ 0xFF then some 1
  else if 2 ≤ q.get 6 1 then some 6
  else if 2 ≤ q.get 7 1 then some 7
  else if 16 ≤ q.get 22 1 then some 22 else none

/-- DRAM_INJECT's own part (R351). -/
def Die.dramInject (d : Die) (q : KReq) : KAns :=
  let ch := q.get 0 1
  if d.testLock = true then .no d kLocked
  else if q.get 23 1 = 0 then .ok (d.updChan ch (fun x => { x with inject := none })) []
  else if (d.chan ch).inject.isSome = true then .no d kStateConflict
  else .ok (d.updChan ch (fun x => { x with
    inject := some { word := q.get 1 1, line := q.get 2 5, mode := q.get 7 1, mask := BitVec.ofNat 80 (q.get 8 10),
                     amask := BitVec.ofNat 36 (q.get 18 5), count := q.get 23 1 } })) []

/-- PROOF_SIZE_SET's own part (R338). -/
def Die.proofSizeSet (d : Die) (q : KReq) : KAns :=
  if d.fittedDram < dramNeed d.needUser d.rawBytes (q.get 0 2) then .no d kExhausted
  else .ok { d with dc := { d.dc with proofNext := q.get 0 2 } } []

/-! ## The meanings -/

/-- DRAM_WRITE_DRAIN (R345, R348). -/
def execDramWriteDrain (ch : Nat) (s : State) : Host.Outcome State Fault Refusal := s.run (·.writeDrain ch)
/-- MERGE_BUFFER_TIMEOUT (R347). -/
def execMergeBufferTimeout (ch line : Nat) (s : State) : Host.Outcome State Fault Refusal := s.run (·.mergeTimeout ch line)
/-- DRAM_PATROL (R349, R340 to R342). -/
def execDramPatrol (ch line word : Nat) (outcome : DramOutcome) (s : State) : Host.Outcome State Fault Refusal :=
  s.run (·.dramPatrol ch line word outcome)
/-- REFRESH_WINDOW (R348). -/
def execRefreshWindow (s : State) : Host.Outcome State Fault Refusal := s.run (·.refreshWindow)
/-- GRANULE_COPY_DONE (R353). -/
def execGranuleCopyDone (granule : Nat) (uncorrectable : List Nat) (s : State) : Host.Outcome State Fault Refusal :=
  s.run (·.granuleCopied granule uncorrectable)
/-- CHANNEL_FAILURE (R356). -/
def execChannelFailure (ch : Nat) (s : State) : Host.Outcome State Fault Refusal := s.run (·.channelFailed ch)
/-- DRAM_STATUS (R350). -/
def execDramStatus (q : KReq) (s : State) : Host.Outcome State Fault Refusal :=
  s.run (·.kanex q { op := 0x0C01, body := fun d => .paged d 12 32 d.chanRecord })
/-- DRAM_VACATE (R353, R354). -/
def execDramVacate (q : KReq) (s : State) : Host.Outcome State Fault Refusal :=
  s.run (·.kanex q { op := 0x0C02, need := 1, used := [(0, 1)], bad := fun _ => badChannel q, body := fun d => d.dramVacate (q.get 0 1) })
/-- DRAM_CANCEL (R354). -/
def execDramCancel (q : KReq) (s : State) : Host.Outcome State Fault Refusal :=
  s.run (·.kanex q { op := 0x0C03, need := 1, used := [(0, 1)], bad := fun _ => badChannel q, body := fun d => d.dramCancel (q.get 0 1) })
/-- DRAM_REJOIN (R355). -/
def execDramRejoin (q : KReq) (f : ChanFind) (s : State) : Host.Outcome State Fault Refusal :=
  s.run (·.kanex q { op := 0x0C04, need := 1, used := [(0, 1)], bad := fun _ => badChannel q, body := fun d => d.dramRejoin (q.get 0 1) f })
/-- PROOF_SIZE_SET (R338). -/
def execProofSizeSet (q : KReq) (s : State) : Host.Outcome State Fault Refusal :=
  s.run (·.kanex q { op := 0x0C05, need := 2, used := [(0, 2)],
                     bad := fun _ => if q.get 0 2 < 8 ∨ 128 < q.get 0 2 then some 0 else none, body := fun d => d.proofSizeSet q })
/-- DRAM_INJECT (R351). -/
def execDramInject (q : KReq) (s : State) : Host.Outcome State Fault Refusal :=
  s.run (·.kanex q { op := 0x0D01, need := 24, used := [(0, 24)], bad := fun _ => injectBad q, body := fun d => d.dramInject q })

end Sys2Proof.Machine
end

