-- ==== Sys2Proof/Machine/Events.lean ====
section
/-! DEFINITION. The event controller (R389 to R398) and the moderation registers of the queue engines (R399 to R405). -/

namespace Sys2Proof.Machine

/-! ## A source's configuration (R390) -/

def Src.en (x : Src) : Bool := x.cfg.getLsbD 0
def Src.fast (x : Src) : Bool := x.cfg.getLsbD 1
def Src.isRecord (x : Src) : Bool := x.cfg.getLsbD 2
def Src.prio (x : Src) : Nat := bitsOf x.cfg 3 4
def Src.targets (x : Src) (core : Nat) : Bool := x.cfg.getLsbD (8 + core)

/-- A configuration as it is stored (R390): RSV bits zero, FAST with RECORD becomes DIRECT, PRIO clamped to its class. -/
def srcCfg (v : Word) : Word :=
  let fast := v.getLsbD 1
  let mode := v.getLsbD 2 && !fast
  let p := bitsOf v 3 4
  let prio := if fast then max 12 p else min 11 p
  BitVec.ofNat 32 (bitsOf v 0 1 + 2 * bit fast + 4 * bit mode + 8 * prio + 256 * bitsOf v 8 17)

/-! ## The record queue (R395, R396) -/

/-- One record written at the tail, where there is room. -/
def Mc.putRecord (m : Mc) (src time : Nat) (ovf inj : Bool) (payload : Nat) : Mc :=
  { m with recs := Tbl.set m.recs m.tail { src := src, ovf := ovf, inj := inj, rseq := m.rseq, time := time % 2 ^ 32, payload := payload }
           tail := (m.tail + 1) % Config.recordQueue, fill := m.fill + 1, rseq := (m.rseq + 1) % 2 ^ 16 }

/-- One OVF record for a source that has counted overflows, where there is room (R396). -/
def Mc.putOvf (m : Mc) (src time : Nat) : Mc :=
  let x := Tbl.get ({} : Src) m.srcs src
  if x.ovf ≠ 0 ∧ m.fill < Config.recordQueue then
    let m := m.putRecord src time true false x.ovf
    { m with srcs := Tbl.set m.srcs src { x with ovf := 0 } }
  else m

/-- An occurrence of a DIRECT source (R393). -/
def Src.occurs (x : Src) (payload : Word64) : Src :=
  match x.st with
  | .idle => { x with st := .pending, count := 1, payload := payload }
  | .pending => { x with count := satInc 0xFFFF x.count, payload := payload }
  | .active => { x with st := .activePending, count := 1, payload := payload }
  | .activePending => { x with count := satInc 0xFFFF x.count, payload := payload }

/-- An occurrence of source 0x000 or 0x001, which follows from another's: a RECORD source that finds no room is counted. -/
def Die.occurInner (d : Die) (n : Nat) : Die :=
  let x := d.src n
  if x.isRecord then
    if d.mc.fill < Config.recordQueue then { d with mc := d.mc.putRecord n d.now false false 0 }
    else
      let d := d.updSrc n (fun y => { y with ovf := (y.ovf + 1) % 2 ^ 32 })
      { d with mc := { d.mc with ovf := (d.mc.ovf + 1) % 2 ^ 32 } }
  else d.updSrc n (fun y => y.occurs 0)

/-- An occurrence of a source (R393, R395, R396). -/
def Die.occur (d : Die) (n : Nat) (payload : Word64) (inj : Bool) : Die :=
  let x := d.src n
  if x.isRecord then
    let empty := decide (d.mc.fill = 0)
    let d := { d with mc := d.mc.putOvf n d.now }
    if d.mc.fill < Config.recordQueue ∧ (d.src n).ovf = 0 then
      let d := { d with mc := d.mc.putRecord n d.now false inj payload.toNat }
      if empty then d.occurInner 0x000 else d
    else
      let d := d.updSrc n (fun y => { y with ovf := (y.ovf + 1) % 2 ^ 32 })
      let d := { d with mc := { d.mc with ovf := (d.mc.ovf + 1) % 2 ^ 32 } }
      (d.occurInner 0x001).record 0x0C03 sevWarning noInst (le 4 (d.mc.ovf))
  else d.updSrc n (fun y => y.occurs payload)

/-- EVENT_OCCURRENCE: sources 0xF00 to 0xFEF never occur, and the test sources only by EVENT_INJECT (R389). -/
def Die.eventOccurrence (d : Die) (n : Nat) (payload : Word64) : Die := if n < 0xF00 then d.occur n payload false else d

/-! ## Routing and claims (R391 to R394) -/

/-- The handler a core runs: its source and PRIO, none where it is idle. -/
def Die.handler (d : Die) (core : Nat) : Option (Nat × Nat) := (Tbl.get [] d.mc.run core).head?

/-- The running priority of a core plus 1 (R392). -/
def Die.runPrio (d : Die) (core : Nat) : Nat := match d.handler core with | some h => h.2 + 1 | none => 0

/-- Whether a core may take a source: it serves, and a bit that it takes is set; a core with a
FAST handler takes no other (R391, R392). -/
def Die.coreMay (d : Die) (x : Src) (core : Nat) : Bool :=
  d.unit 3 core == .inService
    && (List.range 17).any (fun j => x.targets j && d.bitCore j == core)
    && decide (d.runPrio core < x.prio + 1)
    && !(match d.handler core with | some h => (d.src h.1).fast | none => false)

/-- The core that claims a source (R392): the lowest running priority, then the lowest number. -/
def Die.coreFor (d : Die) (x : Src) : Option Nat :=
  ((List.range 17).filter (d.coreMay x)).foldl (fun a c => match a with
    | none => some c
    | some b => if d.runPrio c < d.runPrio b then some c else some b) none

/-- A source that can be claimed now (R393, R394). -/
def Die.claimable (d : Die) (x : Src) : Bool := x.st == .pending && x.en && d.mc.gen

/-- Whether another source goes first at a core (R392). -/
def Die.goesFirst (d : Die) (core n : Nat) : Bool :=
  let x := d.src n
  d.mc.srcs.any (fun e => e.1 != n && d.claimable e.2 && d.coreFor e.2 == some core
    && (decide (x.prio < e.2.prio) || (e.2.prio == x.prio && decide (e.1 < n))))

/-- EVENT_CLAIM: the source goes ACTIVE on its core; a test source's handler writes its record (R393, R398). -/
def Die.claim (d : Die) (n : Nat) : Die :=
  let x := d.src n
  match d.coreFor x with
  | none => d
  | some c =>
    if d.claimable x = true ∧ d.goesFirst c n = false then
      let d := d.updSrc n (fun y => { y with st := .active, count := 0, core := c })
      let d := { d with mc := { d.mc with run := Tbl.upd [] d.mc.run c (fun l => (n, x.prio) :: l) } }
      if 0xFF0 ≤ n then
        (d.record 0x0C04 sevInfo noInst (le 2 n ++ le 8 x.payload.toNat ++ le 2 x.count ++ le 1 c ++ le 1 (bit x.redeliver) ++ le 4 d.freeVal)).drawn
      else d
    else d

/-- EOI: a core's innermost handler ends (R393, R395). -/
def Die.eoi (d : Die) (core n : Nat) : Die :=
  match Tbl.get [] d.mc.run core with
  | [] => d
  | h :: r =>
    if h.1 = n then
      let d := { d with mc := { d.mc with run := Tbl.set d.mc.run core r } }
      let d := d.updSrc n (fun y => { y with st := if y.st == .activePending then .pending else .idle, redeliver := false })
      if n = 0 ∧ 0 < d.mc.fill then d.occurInner 0x000 else d
    else d

/-- R397: a core reset or fenced: the sources it had claimed return to PENDING with REDELIVER, a count of at least 1. -/
def Die.coreReset (d : Die) (core : Nat) : Die :=
  let hs := Tbl.get [] d.mc.run core
  let d := hs.foldl (fun y h => y.updSrc h.1 (fun s => { s with st := .pending, redeliver := true, count := max 1 s.count })) d
  { d with mc := { d.mc with run := Tbl.set d.mc.run core [] } }

/-! ## Register writes (R390, R394, R396) -/

/-- EVC_SRC_CFG_WRITE (R390, R393). -/
def Die.srcCfgWrite (d : Die) (n : Nat) (v : Word) : Die := if n < 4096 then d.updSrc n (fun y => { y with cfg := srcCfg v }) else d

/-- EVC_GCTRL_WRITE (R394). -/
def Die.gctrlWrite (d : Die) (v : Word) : Die := { d with mc := { d.mc with gen := v.getLsbD 0 } }

/-- EVC_RQ_HEAD_WRITE: space frees, and each source with an overflow count writes its OVF record (R396). -/
def Die.rqHeadWrite (d : Die) (v : Word) : Die :=
  let h := bitsOf v 0 13
  let used := (h + Config.recordQueue - d.mc.head) % Config.recordQueue
  let m : Mc := { d.mc with head := h, fill := d.mc.fill - used }
  let waiting := (m.srcs.filter (fun e => e.2.ovf != 0)).map (fun e => e.1)
  let m' : Mc := waiting.foldl (fun (y : Mc) n => y.putOvf n d.now) m
  let d := { d with mc := m' }
  if m.fill = 0 ∧ 0 < m'.fill then d.occurInner 0x000 else d

/-! ## Injection (R398) -/

/-- EVENT_INJECT's occurrences of a test source, 1 µs apart; for a RECORD source its handler writes one record each. -/
def Die.injectEvents (d : Die) (n : Nat) (payload : Word64) : Nat → Die
  | 0 => d
  | k + 1 =>
    let d := d.occur n payload true
    let d := if (d.src n).isRecord then
        (d.record 0x0C04 sevInfo noInst (le 2 n ++ le 8 payload.toNat ++ le 2 1 ++ le 1 (d.freeVal % 17) ++ le 1 0 ++ le 4 (d.freeVal / 17))).drawn
      else d
    let d : Die := { d with aon := { d.aon with time := d.aon.time + 1 } }
    d.injectEvents n payload k

/-! ## Moderation registers (R399 to R402, R405) -/

/-- QE_VMOD_WRITE (R400): THR of 0 is stored as 1, TIME above 1,000 as 1,000; a vector the function does not hold drops it. -/
def Die.vmodWrite (d : Die) (fn v : Nat) (w : Word) : Die :=
  if v < (d.tenant fn).vectors ∧ d.fnPresent fn = true then
    let x := BitVec.ofNat 32 (max 1 (bitsOf w 0 8) + 256 * min 1000 (bitsOf w 8 10) + 2 ^ 18 * bitsOf w 18 3)
    d.updFn fn (fun f => f.updVec v (fun y => { y with vmod := x }))
  else d

/-- QE_NDEF_WRITE (R399, R400): its THR and TIME are clamped as those of QE_VMOD (DEDUCED, log entry 26). -/
def Die.ndefWrite (d : Die) (fn : Nat) (w : Word) : Die :=
  if d.fnPresent fn then d.updFn fn (fun f => { f with ndef := BitVec.ofNat 32 (max 1 (bitsOf w 0 8) + 256 * min 1000 (bitsOf w 8 10)) }) else d

/-- A function's listed vectors: those with a nonzero count (R405). -/
def Func.listed (f : Func) : List Nat := (f.vecs.filter (fun v => v.2.count != 0)).map (fun v => v.1)

/-- R405 steps 1 to 3: every listed vector has its message sent, or its PBA bit set. -/
def Die.sweepVecs (d : Die) : Die := d.funcs.foldl (fun y e => e.2.listed.foldl (fun z v => z.sendVec e.1 v) y) d

/-- R405: the sweep before sleep, accepted: each function that had a vector swept counts it. -/
def Die.sweep (d : Die) : Die :=
  (d.funcs.filter (fun e => !e.2.listed.isEmpty)).foldl (fun y e => y.updFn e.1 (fun f => { f with nsweep := (f.nsweep + 1) % 2 ^ 32 })) d.sweepVecs

/-! ## The meanings -/

/-- EVENT_OCCURRENCE (R393). -/
def execEventOccurrence (src : Nat) (payload : Word64) (s : State) : Host.Outcome State Fault Refusal := s.run (·.eventOccurrence src payload)
/-- EVENT_CLAIM (R392). -/
def execEventClaim (src : Nat) (s : State) : Host.Outcome State Fault Refusal := s.run (·.claim src)
/-- EOI (R393). -/
def execEoi (core src : Nat) (s : State) : Host.Outcome State Fault Refusal := s.run (·.eoi core src)
/-- EVC_SRC_CFG_WRITE (R393). -/
def execEvcSrcCfgWrite (src : Nat) (value : Word) (s : State) : Host.Outcome State Fault Refusal := s.run (·.srcCfgWrite src value)
/-- EVC_GCTRL_WRITE (R394). -/
def execEvcGctrlWrite (value : Word) (s : State) : Host.Outcome State Fault Refusal := s.run (·.gctrlWrite value)
/-- EVC_RQ_HEAD_WRITE (R396). -/
def execEvcRqHeadWrite (value : Word) (s : State) : Host.Outcome State Fault Refusal := s.run (·.rqHeadWrite value)
/-- QE_VMOD_WRITE (R402). -/
def execQeVmodWrite (fn v : Nat) (value : Word) (s : State) : Host.Outcome State Fault Refusal := s.run (·.vmodWrite fn v value)
/-- QE_NDEF_WRITE (R402). -/
def execQeNdefWrite (fn : Nat) (value : Word) (s : State) : Host.Outcome State Fault Refusal := s.run (·.ndefWrite fn value)

end Sys2Proof.Machine
end

