-- ==== Sys2Proof/Machine/Dock.lean ====
section
/-! DEFINITION. Dock-down (R28, R29, R36, R253, R511, R512, R523, R527): what each of its steps does as far as the energy
carries it, its record, and park. -/

namespace Sys2Proof.Machine

/-- Causes of a DOCK_DOWN record (R550). -/
def dockPfN : Nat := 1
def dockRail : Nat := 2
def dockColdRst : Nat := 3
def dockFail : Nat := 4
def dockThermal : Nat := 5
def dockUpstream : Nat := 6

/-- Number of a rail in a DOCK_DOWN record (R550). -/
def Rail.num : Rail → Nat
  | .vcore => 1
  | .vsram => 2
  | .vserdes => 3
  | .vucie => 4
  | .vddq => 5

/-- Every command in flight of every function abandoned: none is completed (R29). -/
def Die.abandonEvery (d : Die) : Die := (d.qe.tags.map (fun (e : Nat × Tag) => e.1)).foldl (fun x t => if (x.tag t).st == .free then x else x.abandonTag t) d

/-- The end of a scrub on command (R269): its summary kept, its record written. -/
def Die.scrubEnded (d : Die) (result : Nat) : Die :=
  if d.se.scrub.st = 1 then
    let s : Scrub := { d.se.scrub with st := 2, result := result, seconds := (d.now - d.se.scrub.begun) / 1000000 }
    let d : Die := { d with se := { d.se with scrub := s, scrubDone := s } }
    d.record 0x0604 sevNotice noInst (le 8 s.id ++ le 1 result ++ le 8 s.recon ++ le 8 s.poisoned)
  else d

/-- What a dock-down stops besides commands: a channel vacate or rejoin, a breakwater test, a scrub, slices and self-test (R36,
R269, R438). -/
def Die.dockStops (d : Die) : Die :=
  let d := d.vacateStop.scrubEnded 2
  { d with
    dc := { d.dc with back := none }
    aon := { d.aon with bwTest := false, chgEn := false, testFn := none, entering := false }
    units := { d.units with run := none, queue := [] } }

/-! ## What was not durable (R169, R173, R515) -/

/-- What stood before a record put back. -/
def Die.undo (d : Die) : Undo → Die
  | .loaf ns l e cs m => d.updNs ns (fun n => if n.alive then { n with
      map := if e = {} then Tbl.del n.map l else Tbl.set n.map l e
      crumbs := cs.foldl (fun t c => Tbl.set t c.1 c.2) (n.crumbs.filter (fun c => c.1 / 16 != l))
      pmask := if m = 0 then Tbl.del n.pmask l else Tbl.set n.pmask l m } else n)
  | .zone ns z w => d.updNs ns (fun n => if n.alive then n.updZone z (fun _ => w) else n)
  | .form ns f size => d.updNs ns (fun n => if n.alive then { n with lbaf := f, nsze := size } else n)

/-- One write generation newer than another, modulo 256. -/
def newerGen (a b : BitVec 8) : Bool := decide (0 < (a - b).toNat) && decide ((a - b).toNat < 128)

/-- R515: whether a sector found on the media is newer than what the map has: nothing, the same place, or an older generation. -/
def Die.foundNewer (d : Die) (n : Ns) (x key : Nat) (s : Sector) : Bool :=
  match n.placeOf x with
  | .media l _ => l.key == key || newerGen s.md.wgen (d.sectorAt (n.placeOf x)).md.wgen
  | .proof a => !Tbl.has d.te.proof a || newerGen s.md.wgen (d.proofGet a).md.wgen
  | _ => true

/-- R515: a programmed loaf slot whose record was not durable read by its self-description: newer sectors are mapped and journalled. -/
def Die.remapSlot (d : Die) (key : Nat) : Die :=
  let loc := Loc.ofKey key
  let d := match d.rc.owner.find? (fun (o : Nat × Nat × Nat) => o.1 == key) with
    | none => d
    | some o =>
      let n := d.ns o.2.1
      let at' := fun (i : Nat) => d.mediaGet (secKey key i)
      let xs := (List.range 16).filter (fun i => Tbl.has d.rc.media (secKey key i) && (at' i).md.sect == o.2.2 * 16 + i)
      let mask := xs.foldl (fun a i => a ||| bit16 i) (0 : BitVec 16)
      if n.alive && xs.any (fun i => d.foundNewer n (o.2.2 * 16 + i) key (at' i)) then
        d.remap o.2.1 o.2.2 [key] (fun n => { n with map := Tbl.set n.map o.2.2 { n.entry o.2.2 with
          typ := if n.isZoned && mask != 0xFFFF then .part else .loaf, loc := loc, prot := 0, vmask := mask } })
      else d
  ((Tbl.get [] d.rc.crumbSlots key).zip (List.range 16)).foldl (fun (x : Die) (c : (Nat × Nat) × Nat) =>
    let n := x.ns c.1.1
    let s := x.mediaGet (secKey key c.2)
    if n.alive && s.md.sect == c.1.2 && x.foundNewer n c.1.2 key s then
      x.remap c.1.1 (c.1.2 / 16) [key] (fun n => { n with
        crumbs := Tbl.set n.crumbs c.1.2 { st := .media, loc := loc, sslot := loc.slot * 16 + c.2, wgen := s.md.wgen }
        map := Tbl.upd {} n.map (c.1.2 / 16) (fun e => { e with vmask := e.vmask &&& ~~~ (bit16 (c.1.2 % 16)), crb := true }) })
    else x) d

/-- The proofing addresses that the map names. -/
def Die.proofNamed (d : Die) (a : Nat) : Bool :=
  d.nss.any (fun e => e.2.map.any (fun m => (m.2.typ == .staged || m.2.typ == .heel)
      && (List.range 16).any (fun i => m.2.vmask.getLsbD i && m.2.prot + sectorUnits * i == a))
    || e.2.crumbs.any (fun c => c.2.st == .staged && c.2.prot == a)
    || e.2.zones.any (fun z => (List.range 16).any (fun i => z.2.heelMask.getLsbD i && z.2.heelProt + sectorUnits * i == a)))

/-- A stop without step 5: the next start loads the last checkpoint and replays the durable journal, which is the map without the changes
whose records were not durable (R169); open-row recovery then finds what was programmed (R515). -/
def Die.replay (d : Die) : Die :=
  let lost := d.te.writing.flatMap (fun s => s.recs) ++ d.te.buf
  let gone := lost.flatMap (fun r => r.what)
  let d : Die := { d with
    te := { d.te with buf := [], writing := [] }
    rc := { d.rc with rus := Tbl.mapVals (fun r (u : Ru) => if gone.contains (.pendingErase r) then { u with stage := 1 }
      else if gone.contains (.erased r) then { u with stage := 3 }
      else { u with rebuild := u.rebuild.map (fun b => if gone.contains (.ruSubst r b.pos) then { b with stage := 0 } else b) }) d.rc.rus } }
  let d := ((lost.flatMap (fun r => r.undo)).reverse).foldl (fun (x : Die) u => x.undo u) d
  let d := (lost.flatMap (fun r => r.placed)).foldl (fun (x : Die) k => x.remapSlot k) d
  { d with te := { d.te with proof := d.te.proof.filter (fun e => d.proofNamed e.1) } }

/-! ## What was not programmed (R29, R503) -/

/-- A zone of which a loaf was lost, not filled or finished: its write pointer stands at the end of the last loaf before it (R29, R503),
and Doluz writes an ALERT. -/
def Die.cutZone (d : Die) (nsid z l : Nat) : Die :=
  let n := d.ns nsid
  let wp := l * 16 - z * n.zoneLbas
  let last := (z + 1) * n.zoneLbas / 16
  if wp < (n.zone z).wp then
    (d.updNs nsid (fun n => ({ n with map := n.map.filter (fun m => !(decide (l ≤ m.1) && decide (m.1 < last))) } : Ns).updZone z (fun y =>
      { y with wp := wp, wpNext := wp, heelMask := 0, heelProt := 0, settled := false }))).regionLoss sevAlert noInst 0 3
  else d

/-- The zones that a command in flight has filled: it is not completed, so none of its sectors need be applied (R29). -/
def Die.filling (d : Die) : List (Nat × Nat) :=
  d.qe.tags.filterMap (fun (u : Nat × Tag) => match u.2.entry with
    | some e =>
      let n := d.ns e.ns
      let z := u.2.wlba / n.zoneLbas
      if u.2.st == .committed && (e.opc == 0x01 || e.opc == 0x7D) && n.isZoned && (n.zone z).st == .zsf && u.2.wlba + e.nlb == (z + 1) * n.zoneLbas
      then some (e.ns, z) else none
    | none => none)

/-- Zones whose filling is undone as far as their data is lost (R29): they count as open until what was lost is known, and those of which
nothing was lost are full. -/
def Die.unfill (d : Die) (zs : List (Nat × Nat)) (f : Die → Die) : Die :=
  let d := f (zs.foldl (fun (x : Die) z => x.updZone z.1 z.2 (fun y => { y with st := .zsio })) d)
  zs.foldl (fun (x : Die) z => x.updZone z.1 z.2 (fun y => if y.wp = (x.ns z.1).zoneLbas then { y with st := .zsf } else y)) d

/-- A loaf slot whose PU was never programmed: what it holds of a namespace is lost (R29, R515, R503): of a zone its write pointer goes
back, and the sectors of a conventional loaf, or of a zone that is full, are poisoned. -/
def Die.loseSlot (d : Die) (key : Nat) : Die :=
  let d := match d.rc.owner.find? (fun (o : Nat × Nat × Nat) => o.1 == key) with
    | none => d
    | some o =>
      let n := d.ns o.2.1
      let e := n.entry o.2.2
      let z := o.2.2 * 16 / n.zoneLbas
      if d.stillMapped key && (e.typ == .inflight || e.typ == .part) then
        if n.isZoned && (n.zone z).st != .zsf then d.cutZone o.2.1 z o.2.2
        else
          let d := ((List.range 16).filter (fun i => e.vmask.getLsbD i)).foldl (fun (x : Die) i => x.poisonHere o.2.1 (o.2.2 * 16 + i)) d
          d.updNs o.2.1 (fun n => { n with map := Tbl.upd {} n.map o.2.2 (fun y => { y with typ := .loaf }) })
      else d
  let cs := Tbl.get [] d.rc.crumbSlots key
  let d := cs.foldl (fun (x : Die) c => x.updNs c.1 (fun n =>
    if (n.crumb c.2).st == .staged && (n.crumb c.2).loc.key / 4 == key / 4 then
      { n with crumbs := Tbl.upd {} n.crumbs c.2 (fun y => { y with loc := {}, sslot := 0 }) } else n)) d
  { d with rc := { d.rc with
    crumbSlots := Tbl.del d.rc.crumbSlots key, moves := Tbl.del d.rc.moves key
    media := d.rc.media.filter (fun (e : Nat × Sector) => e.1 / 16 != key) } }

/-- The rows of an open RU that hold loaf slots not programmed: of each position, what was loaded or assigned is lost. -/
def Die.loseRow (d : Die) (r row : Nat) : Die :=
  ((d.ru r).slotPos row).foldl (fun x pos =>
    if (x.ru r).passed.contains (row * 64 + pos) then x
    else ((x.ru r).slotKeys row pos).foldl (fun y k => y.loseSlot k) x) d

/-- Step 2 not completed: the page registers and the recovery trays lose what was not programmed. -/
def Die.loseUnprogrammed (d : Die) : Die :=
  let d : Die := { d.rc.owed.foldl (fun (x : Die) k => x.loseSlot k) d with rc := { (d.rc.owed.foldl (fun (x : Die) k => x.loseSlot k) d).rc with owed := [] } }
  (d.openRusWith (fun _ => true)).foldl (fun x r =>
    let d := (x.ru r).openRows.foldl (fun (y : Die) row => y.loseRow r row) x
    d.updRu r (fun u => { u with loaded := u.loaded.filter (fun k => u.passed.contains (k / 4)), accP := [], accQ := [] })) d

/-- Step 2 for one row of an open RU: every committed tray shipped, every partly filled page register padded and programmed. A program
that fails is not recovered: its position is recorded as missing (R253). -/
def Die.programRow (d : Die) (r row n : Nat) (failed : List (Nat × Nat)) : Die :=
  let d := d.loadRest r row n
  ((d.ru r).usePos row).foldl (fun (x : Die) p =>
    let u := x.ru r
    if u.passed.contains (row * 64 + p) || !(List.range 3).any (fun s => u.loaded.contains ((row * 64 + p) * 4 + s)) then x
    else if failed.contains (r, p) || (u.failing.any (fun f => f.1 == p) && u.row == row) then x.updRu r (fun u => { u with lost := (p, row) :: u.lost })
    else x.puPassed r row p) d

/-- Step 2 (R28): committed trays shipped, page registers padded, programs finished, erases not yet started abandoned. -/
def Die.shipAll (d : Die) (failed : List (Nat × Nat)) : Die :=
  let d := (List.range 8).foldl (fun (x : Die) g => x.shipOwed g) d
  let d : Die := { d with sch := { d.sch with queued := d.sch.queued.filter (fun o => o.op != opErase) } }
  (d.openRusWith (fun _ => true)).foldl (fun (x : Die) r =>
    let u := x.ru r
    u.openRows.foldl (fun (y : Die) row => y.programRow r row (if row = u.arow then u.slots else 3 * (u.slotPos row).length) failed) (x.failingLost r)) d

/-- R253: a program of P or Q that fails in step 3 leaves its position recorded as missing. -/
def Die.loseParity (d : Die) (failed : List (Nat × Nat)) : Die :=
  failed.foldl (fun (x : Die) f => x.updRu f.1 (fun u =>
    let rows := u.openRows.filter (fun row => u.st == .opened && !(u.dataPos row).contains f.2 && !u.lost.contains (f.2, row))
    if rows.isEmpty then u else { u with lost := rows.map (fun row => (f.2, row)) ++ u.lost })) d

/-- R36: a berth removed in step 3: the open rows close with its positions missing. -/
def Die.loseMembers (d : Die) (ports : List Nat) : Die :=
  (d.openRusWith (fun _ => true)).foldl (fun (x : Die) r =>
    let u := x.ru r
    let ps := (List.range u.members.length).filter (fun p => match u.members[p]? with | some m => ports.contains m.port | none => false)
    x.updRu r (fun u => { u with lost := ps.flatMap (fun p => u.openRows.map (fun row => (p, row))) ++ u.lost })) d

/-- The berths that take system-area items while berths are being removed: the next mirror berth takes the place of one that is gone (R36). -/
def Die.mirrorsBut (d : Die) (gone : List Nat) : List Nat :=
  ((List.range Config.ports).filter (fun p => (d.port p).st == .online && !gone.contains p)).take 3

/-- Bytes that step 4 writes to the rescue region: none where no three berths take the copies (R36). -/
def Die.rescued (d : Die) (e : DockEnv) : Nat :=
  if (d.mirrorsBut (e.removed3 ++ e.removed4)).length < 3 then 0
  else if 4 ≤ e.steps then d.unsettled else min (e.rescueBytes / 4096 * 4096) d.unsettled

/-- Step 4: unsettled content kept, oldest first as far as it goes (R21). -/
def Die.rescue (d : Die) (e : DockEnv) : Die :=
  let n := d.rescued e
  let d := d.readPlaces 2 ((d.te.proof.take (n / 4096)).map (fun s => Place.proof s.1))
  { d with te := { d.te with proof := d.te.proof.take (n / 4096) }, life := { d.life with lostBytes := d.unsettled - n } }

/-- Step 5: the journal flushed, each slot's exact next counter written, the stop mark DOCKED (R28, R326, R512). -/
def Die.dockJournal (d : Die) : Die :=
  let d := d.journalFlush
  { d with
    cl := { d.cl with slots := Tbl.mapVals (fun _ (s : Slot) => { s with exact := some s.next }) d.cl.slots }
    life := { d.life with stopMark := .docked d.te.seg } }

/-- Step 6: the DOCK_DOWN record, the gathered segment and the dock-down sector (R474, R550). -/
def Die.dockRecord (d : Die) (cause rail written : Nat) (e : DockEnv) : Die :=
  let ends := (List.range 7).map (fun i => if i < e.steps then min 0xFFFF ((e.ends[i]?).getD 0) else 0)
  let d := d.record 0x0E01 (if 7 ≤ e.steps then sevNotice else sevCritical) noInst
    (le 1 (min 7 e.steps) ++ le 1 cause ++ le 1 rail ++ ends.flatMap (fun t => le 2 t) ++ le 8 written)
  let l := d.lb.flush d.opsec
  { d with lb := { l with dock := l.ring.take 64 } }

/-- A berth in service released without a drain: the port goes from ONLINE or DRAINING to RELEASED (R227). -/
def Die.releaseBerth (d : Die) (p : Nat) : Die :=
  match (d.port p).st with
  | .online | .draining =>
    let d : Die := { d with se := { d.se with rebuild := d.se.rebuild.filter (fun e => !(e.2 == p && (d.port p).st == .draining)) } }
    ((d.sendLmgt p lmgtRelease 0).portTo p .released 0).updPort p (fun x => { x with outst := [] })
  | _ => d

/-- Every berth in service released. -/
def Die.releaseBerths (d : Die) : Die := (d.bp.ports.map (fun (e : Nat × Port) => e.1)).foldl (fun x p => x.releaseBerth p) d

/-- Step 7: park. Berths are released, domains isolated, the host link is down. -/
def Die.park (d : Die) (steps : Nat) : Die :=
  let d := if 7 ≤ steps then d.releaseBerths else d
  { d with
    life := { d.life with phase := .parked, dockStep := min 7 steps, stopAt := d.now }
    link := { d.link with st := .down }
    qe := { d.qe with stopped := true }
    aon := { d.aon with chgEn := false, pstate := 0, target := 0, entering := false, committed := false } }

/-- R229: DOCK to every port whose link is in L0, LS or LD. -/
def Die.dockPorts (d : Die) : Die :=
  (d.bp.ports.map (fun (e : Nat × Port) => e.1)).foldl (fun (x : Die) p =>
    if (x.port p).linked && (x.port p).lpwr != .off then x.sendLmgt p lmgtDock 0 else x) d

/-- Number of a thermal state (R425). -/
def ThState.num : ThState → Nat
  | .normal => 0
  | .warning => 1
  | .throttle => 2
  | .shutdown => 3

/-- R36: a thermal SHUTDOWN while dock-down runs: the dock-down has gone on, and the power-off request follows step 7. -/
def Die.shutdownAfter (d : Die) (e : DockEnv) : Die :=
  match e.shutdown with
  | none => d
  | some _ => { d with life := { d.life with alert := true, powerOffFlag := true } }

/-- The thermal SHUTDOWN noted as it falls, before the dock-down's own record is written (R36, R425). -/
def Die.shutdownNoted (d : Die) (e : DockEnv) : Die :=
  match e.shutdown with
  | none => d
  | some s =>
    if d.aon.th == .shutdown then d
    else ({ d with aon := { d.aon with th := .shutdown, thAt := d.now } } : Die).record 0x0E04 sevCritical noInst
      (le 1 d.aon.th.num ++ le 1 3 ++ le 1 s.1 ++ le 1 s.2)

/-- Dock-down: from P0 to P2 its seven steps as far as the energy lasts; from P3 its record and park (R28, R438). During a start
Doluz parks at once, and stop mark, journal and rescue generation stay (R528). -/
def Die.dockDown (d : Die) (cause rail : Nat) (e : DockEnv) : Die :=
  if d.life.phase = .starting ∨ d.life.phase = .waitPf then ({ d with life := { d.life with phase := .parked } } : Die).shutdownAfter e
  else if d.life.phase = .parked ∨ d.life.phase = .off ∨ d.life.phase = .inReset ∨ d.life.phase = .romHold then d
  else if d.aon.pstate = 3 then (((d.shutdownNoted e).dockRecord cause rail 0 e).park 7).shutdownAfter e
  else
    let d : Die := ({ d with qe := { d.qe with stopped := true } } : Die).dockPorts
    let zs := d.filling
    let d := d.abandonEvery.dockStops
    let d := if 2 ≤ e.steps then d.shipAll e.failed else d.unfill zs (fun d => d.replay.loseUnprogrammed)
    let d := if 3 ≤ e.steps then ((d.loseMembers e.removed3).loseParity e.failed).closeAllRows else d
    let written := d.rescued e
    let d := d.rescue e
    let d := if 5 ≤ e.steps ∧ (d.mirrorsBut (e.removed3 ++ e.removed4)).length = 3 then d.dockJournal
      else if 2 ≤ e.steps then d.replay else d
    let d := d.shutdownNoted e
    let d := if 6 ≤ e.steps then d.dockRecord cause rail written e else d
    (d.park e.steps).shutdownAfter e

/-- R21, R503: what was not rescued: a staged sector is poisoned, a zone whose heel is lost has its write pointer at the end of
its last durable loaf. -/
def Die.settleRescue (d : Die) : Die :=
  let here := fun (x : Die) (a : Nat) => Tbl.has x.te.proof a
  let stagedLost (n : Ns) (x : Die) : List Nat :=
    n.map.flatMap (fun (m : Nat × LoafEntry) => if m.2.typ == .staged then
        ((List.range 16).filter (fun i => m.2.vmask.getLsbD i && !here x (m.2.prot + sectorUnits * i))).map (fun i => m.1 * 16 + i) else [])
      ++ (n.crumbs.filter (fun (c : Nat × Crumb) => c.2.st == .staged && !here x c.2.prot)).map (fun c => c.1)
  let heelLost (n : Ns) (x : Die) : List Nat :=
    (n.zones.filter (fun (z : Nat × Zone) =>
      (z.2.heelMask != 0 && (List.range 16).any (fun i => z.2.heelMask.getLsbD i && !here x (z.2.heelProt + sectorUnits * i)))
        || (let e := n.entry (n.wpLoaf z.1)
            decide (z.2.wp < n.zoneLbas) && e.typ == .heel && (List.range 16).any (fun i => e.vmask.getLsbD i && !here x (e.prot + sectorUnits * i))))).map (fun z => z.1)
  d.nss.foldl (fun (y : Die) (e : Nat × Ns) =>
    let y := (stagedLost e.2 y).foldl (fun x k => if (x.ns e.1).isPoisoned k then x else x.poisonHere e.1 k) y
    (heelLost e.2 y).foldl (fun (x : Die) z =>
      let l := (x.ns e.1).wpLoaf z
      let x := x.updNs e.1 (fun n =>
        let en := n.entry l
        let m := if en.typ == .heel then Tbl.del n.map l else n.map
        let wp := if en.typ == .part then (n.zone z).wp / 16 * 16 + popcount en.vmask else (n.zone z).wp / 16 * 16
        ({ n with map := m }).updZone z (fun s => { s with wp := wp, wpNext := wp, heelMask := 0, heelProt := 0 }))
      x.regionLoss sevAlert noInst 0 3) y) d

/-- R132: a power cycle leaves a zone with nothing written in ZSE (log entry 134). -/
def Die.emptyZones (d : Die) : Die :=
  { d with nss := d.nss.map (fun (e : Nat × Ns) => (e.1, { e.2 with zones := e.2.zones.map (fun (z : Nat × Zone) =>
      if z.2.st == .zsc && z.2.wp == 0 then (z.1, { z.2 with st := .zse, group := none }) else z) })) }

end Sys2Proof.Machine
end

