-- ==== Sys2Proof/Machine/Functions.lean ====
section
/-! DEFINITION. Functions: enabling, readiness, shutdown, resets, teardown and fencing (R53 to R56, R59, R106, R109, R293,
R294, R306 to R308), the writes of FERR, MSI-X and Mask bits (R56, R403, R404) and host errors that name a function
(R67). -/

namespace Sys2Proof.Machine

/-! ## Stopping a Long command (R377, R380, R388) -/

def opNsDelete : Nat := 0x0302
def opTenantDelete : Nat := 0x0202
def opCryptoErase : Nat := 0x0407
def opKeyMigrate : Nat := 0x0405
def opBreakwaterTest : Nat := 0x0509
def opSelftestRun : Nat := 0x0801

/-- A breakwater test ended early: BW_TEST released, the charger on again (R438, R439). -/
def Die.testStop (d : Die) : Die :=
  { d with aon := { d.aon with bwTest := false, chgEn := true, testFn := none } }

/-- The Long command that runs on a mailbox stopped at its next safe point, with the partial effect of its chapter. -/
def Die.stopLong (d : Die) (fn : Nat) : Die :=
  let m := (d.fn fn).mbx
  if m.st = .running ∧ kClass m.opcode = 2 then
    if m.opcode = opDramVacate then d.vacateStop
    else if m.opcode = opDramRejoin then { d with dc := { d.dc with back := none } }
    else if m.opcode = opBreakwaterTest ∧ d.aon.testFn = some fn then d.testStop
    else if m.opcode = opSelftestRun then { d with units := { d.units with run := none } }
    else if m.opcode = opKeyMigrate then
      { d with cl := { d.cl with migrating := d.cl.migrating.filter (fun t => t != (match m.cmd with | some q => kTenant q | none => fn)) } }
    else if m.opcode = opNsDelete then
      (match m.cmd with | some q => d.updNs (q.get 0 4) (fun n => { n with busy := false }) | none => d)
    else if m.opcode = opTenantDelete ∨ m.opcode = opCryptoErase then
      { d with nss := Tbl.mapVals (fun _ (n : Ns) => match m.cmd with
        | some q => if n.owner = kTenant q then { n with busy := false, hold := none } else n
        | none => n) d.nss }
    else d
  else d

/-! ## Resets of a function -/

/-- The controller state that a teardown or a fence discards (R306, R308, R404): queue contexts, moderation, events, and what
of the controller a reset clears. -/
def Func.dropped (f : Func) : Func :=
  { f with
    rdy := false, cfs := false, shst := 0, pp := false, fetchStopped := false
    vecs := f.vecs.map (fun (e : Nat × Vec) => (e.1, { e.2 with count := 0, due := none, pba := false }))
    sqs := [], cqs := [], feats := [], errLog := [], aers := [], held := [], unread := [], changedNs := [], changedZones := [] }

/-- Configuration space, MSI-X table and the registers of BAR0 as a function-level reset leaves them (R53); FENCED stays until
the function is enabled again, and FIRST with it, since FERR has not been all clear (R56). -/
def Func.reset (f : Func) : Func :=
  { f with
    cc := 0, aqa := 0, asq := 0, acq := 0, d3 := false, d3Rdy := false, relaxed := true, aer := {}
    ferr := ferrClear f.ferr 0xFFFFFF7F#32 ||| (if f.ferr.getLsbD 7 then f.ferr &&& 0xFF0000#32 else 0), ferrMask := 0, ferrAddr := 0, msixEn := false, funcMask := false, ndef := 1, nsweep := 0, vecs := [] }

/-- The open zones of some namespaces closed, but those that a write still pending opened or will write: they are open for it (R132). -/
def Die.closeIdle (d : Die) (f : Nat → Ns → Bool) : Die := d.closeZones f (fun i z => !(d.pendingZone i z).isEmpty)

/-- The workers told to close the open zones of the namespaces that a function had there (R132). -/
def Die.closeAway (d : Die) (n : Nat) : Die :=
  d.servingWorkers.foldl (fun (x : Die) q =>
    let ids := (d.nss.filter (fun (e : Nat × Ns) => e.2.alive && e.2.isZoned && e.2.home == q + 2 && e.2.attached.contains n)).map (fun e => e.1)
    if ids.isEmpty then x else x.quayMgmtSend q (.closeZones ids)) d

/-- Commands in flight abandoned, a running Long command stopped, contexts discarded (R306, R388, R109), and the open zones of
the function's namespaces closed (R132; log entry 18), on the workers too. -/
def Die.discardFn (d : Die) (n : Nat) : Die :=
  ((((d.stopLong n).abandonAll n).updFn n Func.dropped).closeIdle (fun _ x => x.attached.contains n)).closeAway n

/-- An event of R306: a function that is enabled enters TEARDOWN; in TEARDOWN a remembered re-enable is forgotten. -/
def Die.teardown (d : Die) (n : Nat) : Die :=
  match (d.fn n).st with
  | .enabling | .ready => (d.discardFn n).updFn n (fun f => { f with st := .teardown, since := d.now, reenable := false })
  | .teardown => d.updFn n (fun f => { f with reenable := false })
  | _ => d

/-- A function-level reset of one function (R53, R54). A mailbox that is not torn down keeps its response, since teardown is
what returns it to its reset values (R368). -/
def Die.flrOne (d : Die) (n : Nat) : Die := (d.teardown n).updFn n Func.reset

/-- The functions that the die keeps state of. -/
def Die.fnList (d : Die) : List Nat := d.funcs.map (fun e => e.1)

/-- Every VF torn down and VF Enable cleared (R53). -/
def Die.clearVfs (d : Die) : Die :=
  let d := (d.fnList.filter (fun n => n != 0)).foldl (fun x n => x.flrOne n) d
  { d with link := { d.link with vfEnable := false, numVfs := 0 } }

/-- FLR. -/
def Die.flr (d : Die) (n : Nat) : Die :=
  if d.fnPresent n = false then d else if n = 0 then (d.flrOne 0).clearVfs else d.flrOne n

/-- CONVENTIONAL_RESET: every function. -/
def Die.conventionalReset (d : Die) : Die := (d.flrOne 0).clearVfs

/-- VF_ENABLE_WRITE: NumVFs takes 0 to 2,047; VFs that go are torn down (R48, R306). A worker answers no host (R3). -/
def Die.vfWrite (d : Die) (en : Bool) (k : Nat) : Die :=
  if 2047 < k ∨ d.hasHostLink = false then d
  else if en then
    let gone := d.fnList.filter (fun n => decide (k < n))
    let d := gone.foldl (fun x n => x.flrOne n) d
    { d with link := { d.link with vfEnable := true, numVfs := k } }
  else
    let d := d.clearVfs
    { d with link := { d.link with numVfs := k } }

/-! ## Enabling (R59, R293, R294, R307) -/

/-- CC.CSS. -/
def ccCss (cc : Word) : Nat := bitsOf cc 4 3

/-- An attempt to enable: no tenant or a CSS that is not accepted leaves the function where it is, with a record. The record of
R294 has no code in R478 (log entry 17). -/
def Die.enable (d : Die) (n : Nat) (stay : FState) : Die :=
  if (d.tenant n).alive = false then
    (d.updFn n (fun f => { f with st := stay })).record (Config.openCode 0x0294 0 % 65536) sevNotice n (le 2 n)
  else if ccCss (d.fn n).cc ≠ 0 ∧ ccCss (d.fn n).cc ≠ 6 then
    (d.updFn n (fun f => { f with st := stay })).record 0x0201 sevNotice n (le 2 n ++ le 1 (ccCss (d.fn n).cc))
  else d.updFn n (fun f => { f with st := .enabling, since := d.now, cfs := false, ferr := ferrClear f.ferr 0x80#32 })

/-- CC as a write stores it: its RSV bits, 3:1 and 31:24, are dropped (R13). -/
def ccStored (cc : Word) : Word := cc &&& 0x00FFFFF1#32

/-- CC_EN_SET: a write of CC with EN = 1. -/
def Die.ccEnSet (d : Die) (n : Nat) (cc : Word) : Die :=
  if d.fnPresent n = false ∨ (d.fn n).d3 = true ∨ cc.getLsbD 0 = false then d
  else
    let was := (d.fn n).cc.getLsbD 0
    let st := (d.fn n).st
    let d := d.updFn n (fun f => { f with cc := ccStored cc })
    match st with
    | .off => if was then d else d.enable n .off
    | .teardown => d.updFn n (fun f => { f with reenable := true })
    | .fenced => if was then d else (d.updFn n (fun f => { f with mbx := {} })).enable n .fenced
    | _ => d

/-- CC_EN_CLEAR: a write of CC with EN = 0. -/
def Die.ccEnClear (d : Die) (n : Nat) (cc : Word) : Die :=
  if d.fnPresent n = false ∨ (d.fn n).d3 = true ∨ cc.getLsbD 0 = true then d
  else (d.updFn n (fun f => { f with cc := ccStored cc })).teardown n

/-- FUNCTION_READY: the admin queues are made from AQA and the function is READY; none becomes ready in a hold (R307, R428,
R483, R520). -/
def Die.fnReady (d : Die) (n : Nat) : Die :=
  if (d.fn n).st = .enabling ∧ d.life.phase = .ready then
    d.updFn n (fun f => { f with
      st := .ready, rdy := true
      sqs := [(0, ({ size := bitsOf f.aqa 0 12 + 1 } : Sq))]
      cqs := [(0, ({ size := bitsOf f.aqa 16 12 + 1, ien := true } : Cq))] })
  else d

/-- TEARDOWN_COMPLETE: the mailbox is at its reset values; a remembered re-enable starts ENABLING (R307, R368). -/
def Die.teardownDone (d : Die) (n : Nat) : Die :=
  if (d.fn n).st = .teardown then
    let again := (d.fn n).reenable
    let d := d.updFn n (fun f => { f with st := .off, reenable := false, mbx := {} })
    if again then d.enable n .off else d
  else d

/-- A function fenced with forced cleanup (R307, R308). -/
def Die.fence (d : Die) (n cause : Nat) : Die :=
  let d := (d.discardFn n).updFn n (fun f => { f with st := .fenced, cfs := true, reenable := false })
  (d.ferr n 7).record 0x0205 sevWarning n (le 2 n ++ le 1 cause)

/-- TEARDOWN_LATE: 2 s of teardown, time in an activation hold left out (R306, R307). -/
def Die.teardownLate (d : Die) (n : Nat) : Die :=
  if (d.fn n).st = .teardown ∧ d.qe.hold = false ∧ (d.fn n).since + 2000000 ≤ d.now then
    let d := (d.record 0x0204 sevError n (le 2 n)).ladderTake 8 n 2 3 false
    (d.fence n 2).ferr n 8
  else d

/-! ## Shutdown (R55, R106) -/

/-- CC.SHN in the stored CC. -/
def Func.withShn (f : Func) (shn : Nat) : Func := { f with cc := (f.cc &&& ~~~ 0xC000#32) ||| BitVec.ofNat 32 (shn * 16384) }

/-- CC_SHN_NORMAL: fetching stops, commands in flight complete normally; an Asynchronous Event Request, which nothing else would
complete, completes with Successful, and DW0, for which there is no event, is a free value (DEDUCED, log entry 37). -/
def Die.shnNormal (d : Die) (n : Nat) : Die :=
  if (d.fn n).st = .ready then
    let d := ((d.fn n).aers).foldl (fun (x : Die) t => (x.finishDw0 t stOk (BitVec.ofNat 32 x.freeVal)).drawn) d
    (d.updFn n (fun f => { f.withShn 1 with fetchStopped := true, shst := 0b01, aers := [] })).checkShutdown n
  else d

/-- CC_SHN_ABRUPT: what has not reached POSTING is abandoned. -/
def Die.shnAbrupt (d : Die) (n : Nat) : Die :=
  if (d.fn n).st = .ready then
    let d := (d.tagsOf n).foldl (fun (x : Die) t => if (x.tag t).st == .posting then x else x.abandonTag t) d
    d.updFn n (fun f => { f.withShn 2 with fetchStopped := true, shst := 0b10, aers := [] })
  else d

/-- D3HOT_ENTRY: with CSTS.RDY = 1 an abrupt shutdown, which tears the controller down (R55, R306). -/
def Die.d3Entry (d : Die) (n : Nat) : Die :=
  if d.fnPresent n = false ∨ (d.fn n).d3 = true then d
  else if (d.fn n).rdy then
    (d.teardown n).updFn n (fun f => { f with d3 := true, d3Rdy := true, shst := 0b10 })
  else d.updFn n (fun f => { f with d3 := true })

/-- RETURN_TO_D0: the function is reset, as No_Soft_Reset = 0 has it, and one that went down ready has its controller reset (R47,
R55; log entry 131). -/
def Die.toD0 (d : Die) (n : Nat) : Die :=
  if (d.fn n).d3 = false then d
  else
    let was := (d.fn n).d3Rdy
    let d := d.updFn n Func.reset
    if was then (d.updFn n (fun f => { f with shst := 0 })).teardown n else d

/-! ## Vectors and register writes -/

/-- MSIX_ENABLE_WRITE: cleared, the function keeps no counts (R404). -/
def Die.msixWrite (d : Die) (n : Nat) (en : Bool) : Die :=
  if d.fnPresent n = false then d
  else d.updFn n (fun f => { f with
    msixEn := en
    vecs := if en then f.vecs else f.vecs.map (fun (e : Nat × Vec) => (e.1, { e.2 with count := 0, due := none })) })

/-- A vector that is unmasked with its PBA bit set sends its message (R403). -/
def Die.unmasked (d : Die) (n v : Nat) : Die :=
  let f := d.fn n
  if (f.vec v).pba && !(f.vec v).mask && !f.funcMask && f.msixEn then d.sendVec n v else d

/-- VECTOR_MASK_WRITE: a vector's Mask bit, or the Function Mask (R403). -/
def Die.maskWrite (d : Die) (n : Nat) (v : Option Nat) (mask : Bool) : Die :=
  if d.fnPresent n = false then d
  else match v with
    | some v => if v < (d.tenant n).vectors then (d.updFn n (fun f => f.updVec v (fun y => { y with mask := mask }))).unmasked n v else d
    | none =>
      let d := d.updFn n (fun f => { f with funcMask := mask })
      ((d.fn n).vecs.map (fun e => e.1)).foldl (fun x v => x.unmasked n v) d

/-- FERR_WRITE: the RW1C bits; FIRST clears with the last of them (R56). -/
def Die.ferrWrite (d : Die) (n : Nat) (value : Word) : Die :=
  if d.fnPresent n = false then d
  else d.updFn n (fun f => { f with ferr := ferrClear f.ferr (value &&& 0x17F#32) })

/-! ## Host errors that name a function (R67) -/

/-- AER's record of an error (R47, R67): the set it belongs to, and where it is the first recorded the first-error pointer and the
header log, whose content the spec leaves open. -/
def Die.aerRecord (d : Die) (n : Nat) (x : AerError) (advisory : Bool) : Die :=
  let v := d.freeVal
  (d.updFn n (fun f =>
    let a := f.aer
    let a : Aer := if advisory then { a with advisory := a.advisory.filter (· != x) ++ [x] }
      else { a with uncorrectable := a.uncorrectable.filter (· != x) ++ [x] }
    { f with aer := if a.first.isNone then { a with first := some x, header := v % 2 ^ 128 } else a })).drawn

/-- A command whose data or list could not be had ends with Data Transfer Error; a descriptor found malformed in a list ends it with
its own status (R118): the operand's status is the PCIe completion status (below 8), or that status. -/
def Die.hostRead (d : Die) (t status : Nat) : Die :=
  let x := d.tag t
  match x.entry with
  | none => d
  | some e =>
    if x.st = .bound ∨ x.st = .admitted ∨ x.st = .pull ∨ x.st = .media then
      if Config.listStatuses.contains status then d.failTag t (0x0, status)
      else
        let d := (d.failTag t stDataTransfer).record 0x0105 sevError x.fn (le 2 x.fn ++ le 2 x.sq ++ le 2 e.cid ++ le 1 status)
        (d.aerRecord x.fn (.readFailed status) false).ferr x.fn 1
    else d

/-- A poisoned TLP among a command's write data. -/
def Die.poisonedTlp (d : Die) (t : Nat) : Die :=
  let x := d.tag t
  match x.entry with
  | none => d
  | some e =>
    if x.st = .pull ∨ x.st = .admitted then
      let d := (d.failTag t stDataTransfer).record 0x0106 sevError x.fn (le 2 x.fn ++ le 2 x.sq ++ le 2 e.cid)
      (d.aerRecord x.fn .poisonedTlp true).ferr x.fn 2
    else d

/-- A submission-entry fetch fails: CSTS.CFS of that controller, its commands as at a reset. -/
def Die.sqFetchFail (d : Die) (n q : Nat) : Die :=
  if (d.fn n).st = .ready ∧ ((d.fn n).sq q).size ≠ 0 then
    let d := (d.abandonAll n).updFn n (fun f => { f with cfs := true, fetchStopped := true, aers := [] })
    (d.record 0x0203 sevError n (le 2 n ++ le 2 q)).ferr n 6
  else d

/-! ## The meanings -/

/-- OUT_OF_BAR_REQUEST (R50); a worker answers no host (R3). -/
def execOutOfBarRequest (fn addr : Nat) (_write : Bool) (s : State) : Host.Outcome State Fault Refusal :=
  s.run (fun d => if d.hasHostLink then d.emit (.unsupportedRequest fn addr) else d)
/-- FERR_WRITE (R56). -/
def execFerrWrite (fn : Nat) (value : Word) (s : State) : Host.Outcome State Fault Refusal := s.run (·.ferrWrite fn value)
/-- HOST_READ_FAILURE (R67). -/
def execHostReadFailure (tag status : Nat) (s : State) : Host.Outcome State Fault Refusal := s.run (·.hostRead tag status)
/-- POISONED_TLP_RECEIVED (R67). -/
def execPoisonedTlpReceived (tag : Nat) (s : State) : Host.Outcome State Fault Refusal := s.run (·.poisonedTlp tag)
/-- SQ_FETCH_FAIL (R67). -/
def execSqFetchFail (fn sq : Nat) (s : State) : Host.Outcome State Fault Refusal := s.run (·.sqFetchFail fn sq)
/-- FLR (R53, R306). -/
def execFlr (fn : Nat) (s : State) : Host.Outcome State Fault Refusal := s.run (·.flr fn)
/-- CONVENTIONAL_RESET (R53); a worker has no link it could come by (R3). -/
def execConventionalReset (s : State) : Host.Outcome State Fault Refusal := s.run (fun d => if d.hasHostLink then d.conventionalReset else d)
/-- VF_ENABLE_WRITE (R48, R306). -/
def execVfEnableWrite (enable : Bool) (numVfs : Nat) (s : State) : Host.Outcome State Fault Refusal := s.run (·.vfWrite enable numVfs)
/-- D3HOT_ENTRY (R55). -/
def execD3hotEntry (fn : Nat) (s : State) : Host.Outcome State Fault Refusal := s.run (·.d3Entry fn)
/-- RETURN_TO_D0 (R55). -/
def execReturnToD0 (fn : Nat) (s : State) : Host.Outcome State Fault Refusal := s.run (·.toD0 fn)
/-- CC_EN_SET (R307). -/
def execCcEnSet (fn : Nat) (cc : Word) (s : State) : Host.Outcome State Fault Refusal := s.run (·.ccEnSet fn cc)
/-- CC_EN_CLEAR (R306). -/
def execCcEnClear (fn : Nat) (cc : Word) (s : State) : Host.Outcome State Fault Refusal := s.run (·.ccEnClear fn cc)
/-- CC_SHN_NORMAL (R106). -/
def execCcShnNormal (fn : Nat) (s : State) : Host.Outcome State Fault Refusal := s.run (·.shnNormal fn)
/-- CC_SHN_ABRUPT (R106). -/
def execCcShnAbrupt (fn : Nat) (s : State) : Host.Outcome State Fault Refusal := s.run (·.shnAbrupt fn)
/-- FUNCTION_READY (R307). -/
def execFunctionReady (fn : Nat) (s : State) : Host.Outcome State Fault Refusal := s.run (·.fnReady fn)
/-- TEARDOWN_COMPLETE (R307, R368). -/
def execTeardownComplete (fn : Nat) (s : State) : Host.Outcome State Fault Refusal := s.run (·.teardownDone fn)
/-- TEARDOWN_LATE (R307, R308). -/
def execTeardownLate (fn : Nat) (s : State) : Host.Outcome State Fault Refusal := s.run (·.teardownLate fn)
/-- MSIX_ENABLE_WRITE (R404). -/
def execMsixEnableWrite (fn : Nat) (enable : Bool) (s : State) : Host.Outcome State Fault Refusal := s.run (·.msixWrite fn enable)
/-- VECTOR_MASK_WRITE (R403). -/
def execVectorMaskWrite (fn : Nat) (vector : Option Nat) (mask : Bool) (s : State) : Host.Outcome State Fault Refusal :=
  s.run (·.maskWrite fn vector mask)
/-- FUNC_FENCE's own part (R297, R307). -/
def Die.funcFence (d : Die) (q : KReq) : KAns :=
  if kTenant q = 0 then .denied d q 0x0208
  else if (d.fn (kTenant q)).st = .ready then .ok (d.fence (kTenant q) 1) [] else .no d kStateConflict

/-- FUNC_FENCE (R307). -/
def execFuncFence (q : KReq) (s : State) : Host.Outcome State Fault Refusal :=
  s.run (·.kanex q { op := 0x0208, acts := true, body := fun d => d.funcFence q })

end Sys2Proof.Machine
end

