-- ==== Sys2Proof/Machine/Link.lean ====
section
/-! DEFINITION. The host link (R37 to R45, R67): training to a common rate, lane repair, degraded modules, the mask exchange,
link states and link errors. -/

namespace Sys2Proof.Machine

/-- A mask of modules. -/
def maskOf (ms : List Nat) : BitVec 8 := BitVec.ofNat 8 (sumBy (fun m => 2 ^ m) ms)

/-- The active modules in ascending module number. -/
def Link.active (l : Link) : List Nat := (List.range 8).filter (fun m => l.mask.getLsbD m)

/-- Module interleave (R39): flit n of a direction travels on the (n mod m)-th of the m active modules. -/
def Link.moduleOfFlit (l : Link) (n : Nat) : Option Nat := l.active[n % l.active.length]?

/-- The primary sideband (R40), which carries link management and the mask exchange: that of the lowest-numbered active module. -/
def Link.primarySideband (l : Link) : Option Nat := l.active.head?

/-- R39, R40: the die's own active-module mask sent on the primary sideband at the end of a training. -/
def Die.sendMask (d : Die) : Die :=
  match d.link.primarySideband with
  | some m => d.emit (.activeMask m d.link.mask)
  | none => d

/-- R67: no module trained (1) or DL_Down (2): every function is reset. -/
def Die.linkDown (d : Die) (cause : Nat) : Die :=
  let d : Die := { d with link := { d.link with st := .down } }
  (d.record 0x0108 sevCritical noInst (le 1 cause)).conventionalReset

/-- A repaired lane (R41). -/
def Die.laneRepaired (d : Die) (m lane : Nat) : Die :=
  let d : Die := { d with link := { d.link with lanesRepaired := satInc 255 d.link.lanesRepaired } }
  (d.record 0x0101 sevNotice m (le 1 m ++ le 1 lane)).ferr 0 5

/-- A module degraded out (R42). -/
def Die.moduleDegraded (d : Die) (m cause : Nat) : Die :=
  let d : Die := { d with link := { d.link with degraded := d.link.degraded ||| BitVec.ofNat 8 (2 ^ m) } }
  ((d.ladderTake 1 m 1 4 false).record 0x0102 sevWarning m (le 1 m ++ le 1 (Config.openCode 0x0102 cause))).ferr 0 4

/-- A module that its own stall has fenced: it is degraded out of the link, whose mask is exchanged anew; with no module left the link is
down (R30, R44, R67). -/
def Die.moduleLost (d : Die) (m : Nat) : Die :=
  if d.hasHostLink = false ∨ d.link.mask.getLsbD m = false then d
  else
    let d := d.moduleDegraded m 4
    let d : Die := { d with link := { d.link with mask := d.link.mask &&& ~~~ BitVec.ofNat 8 (2 ^ m) } }
    if d.link.mask = 0 then d.linkDown 1 else d.sendMask

/-- A module that fails to train, the third time within 10 s degraded out (R42). -/
def Die.moduleFails (d : Die) (m : Nat) : Die :=
  let recent := d.link.failTimes.filter (fun f => decide (d.now < f.2 + 10000000))
  let d : Die := { d with link := { d.link with failTimes := (m, d.now) :: recent } }
  if 2 ≤ (recent.filter (fun f => f.1 == m)).length then d.moduleDegraded m 3 else d.ladderTake 1 m 1 1 false

/-- A training of the modules (R37 to R43): lanes repaired, modules degraded out, the rate of the slowest, the flit format that the
host die offers, the masks exchanged on the primary sideband and compared; a module whose reference clock has stopped does not
train (R536), nor does one whose island is fenced (R44). The 500 ms of R67 apply to a retraining in service alone (R514): the first
training of a start that finds no module leaves the link down. -/
def Die.ucieTrain (d : Die) (u : UcieEnv) (service : Bool) : Die :=
  let up := d.link.st != .down
  let clocked := fun m => !d.life.refclkLost.contains (m / 2)
  let rateOf := fun m => if clocked m then ((u.rates[m]?).getD none) else none
  let out := fun m => u.degraded.any (fun x => x.1 == m) || d.life.fencedIslands.contains (32 + m)
  let failed := (List.range 8).filter (fun m => (rateOf m).isNone && !out m)
  let active := (List.range 8).filter (fun m => (rateOf m).isSome && !out m)
  let d := u.repaired.foldl (fun (x : Die) r => x.laneRepaired r.1 r.2) d
  let d := (u.degraded.filter (fun x => decide (x.1 < 8))).foldl (fun (x : Die) r => x.moduleDegraded r.1 r.2) d
  let d := failed.foldl (fun (x : Die) m => x.moduleFails m) d
  let rate := active.foldl (fun a m => min a ((rateOf m).getD 0)) 5
  let d : Die := { d with link := { d.link with degraded := d.link.degraded &&& ~~~ (maskOf active), mask := maskOf active, rate := rate,
                                                latOpt := u.latOpt } }
  let d := d.sendMask
  if active.isEmpty then (if service then d.linkDown 1 else { d with link := { d.link with st := .down } })
  else if u.hostMask ≠ maskOf active then
    let d : Die := { d with link := { d.link with st := .down } }
    let d := d.record 0x0103 sevError noInst (le 1 (maskOf active).toNat ++ le 1 u.hostMask.toNat)
    if up then d.conventionalReset else d
  else { d with link := { d.link with st := .l0 } }

/-- UCIE_TRAINING, and the retrain a lane error causes. -/
def Die.retrainHost (d : Die) (u : UcieEnv) : Die := if d.hasHostLink then d.ucieTrain u true else d

/-- FLIT_CRC_ERROR: a record when a second has more than 1,000. -/
def Die.flitCrc (d : Die) : Die :=
  if d.hasHostLink = false then d else
  let s := d.now / 1000000
  let n := if d.link.crcSecond = s then d.link.crcInSecond + 1 else 1
  let d : Die := { d with link := { d.link with crcSecond := s, crcInSecond := n } }
  if n = 1001 then d.record 0x0104 sevNotice noInst (le 4 n) else d

/-- DL_DOWN. -/
def Die.dlDown (d : Die) (cause : Nat) : Die := if d.hasHostLink = true ∧ d.link.st ≠ .down then d.linkDown cause else d

/-- L1_REQUEST: accepted after a sweep, declined where a completion has become due (R45, R405). -/
def Die.l1Request (d : Die) (due : Bool) : Die :=
  if d.hasHostLink = true ∧ d.link.st = .l0 then
    if due then d.sweepVecs else { d.sweep with link := { d.link with st := .l1 } }
  else d

/-- L2_REQUEST: accepted only when every function is in D3hot (R45). -/
def Die.l2Request (d : Die) : Die :=
  let fns := 0 :: (if d.link.vfEnable then List.range' 1 d.link.numVfs else [])
  if d.hasHostLink = true ∧ (d.link.st = .l0 ∨ d.link.st = .l1) ∧ fns.all (fun n => (d.fn n).d3) = true then
    { d with link := { d.link with st := .l2 } }
  else d

/-- UCIE_TRAINING (R38 to R43). -/
def execUcieTraining (u : UcieEnv) (s : State) : Host.Outcome State Fault Refusal := s.run (·.retrainHost u)
/-- LANE_ERROR (R41): the failing lane is among those the retrain repairs or degrades its module for. -/
def execLaneError (_module _lane : Nat) (u : UcieEnv) (s : State) : Host.Outcome State Fault Refusal := s.run (·.retrainHost u)
/-- FLIT_CRC_ERROR (R67). -/
def execFlitCrcError (s : State) : Host.Outcome State Fault Refusal := s.run (·.flitCrc)
/-- DL_DOWN (R67). -/
def execDlDown (cause : Nat) (s : State) : Host.Outcome State Fault Refusal := s.run (·.dlDown cause)
/-- L1_REQUEST (R45, R405). -/
def execL1Request (completionDue : Bool) (s : State) : Host.Outcome State Fault Refusal := s.run (·.l1Request completionDue)
/-- L2_REQUEST (R45). -/
def execL2Request (s : State) : Host.Outcome State Fault Refusal := s.run (·.l2Request)

end Sys2Proof.Machine
end

