-- ==== Sys2Proof/Machine/Logbook.lean ====
section
/-! DEFINITION. The logbook's persistent copies and its commands (R470 to R476, R483). -/

namespace Sys2Proof.Machine

/-- The records of a boot-store image, newest first: the 1,024 newest of the ring, and each reserve record not among them in
the place of the oldest record below FATAL (R474). -/
def Logbook.imageOf (l : Logbook) : List LogRec :=
  let top := l.ring.take 1024
  let extra := l.reserve.filter (fun r => !top.any (fun x => x.seq == r.seq))
  let excess := top.length + extra.length - 1024
  let drop := ((top.filter (fun r => r.sev != sevFatal)).map (fun r => r.seq)).reverse.take excess
  top.filter (fun r => !drop.contains r.seq) ++ extra

/-- A logbook image written to both boot-store copies, with OPSEC (R473, R474). -/
def Die.bootImage (d : Die) : Die :=
  let l := d.lb
  { d with lb := { l with
      image := l.imageOf
      imageAt := some d.now
      imageDue := false
      opsecSaved := max l.opsecSaved d.opsec } }

/-- Whether a FATAL record waits for an image (R474). -/
def Logbook.fatalDue (l : Logbook) : Bool := l.reserve.any (fun r => !l.image.any (fun x => x.seq == r.seq))

/-- Whether an image is due (R474): a FATAL record at once, an ERROR or higher record 10 min after the last image, otherwise
every 24 h. -/
def Die.imageOwed (d : Die) : Bool :=
  let past := fun (us : Nat) => match d.lb.imageAt with | none => true | some t => decide (t + us ≤ d.now)
  (d.lb.imageDue && (d.lb.fatalDue || past 600000000)) || past 86400000000

/-- A system-area segment written 1 s after its first record (R474). -/
def Die.segmentTimer (d : Die) : Die :=
  if d.lb.seg.isEmpty ∨ d.now < d.lb.segAt + 1000000 then d else { d with lb := d.lb.flush d.opsec }

/-- OPSEC persisted (R473). -/
def Die.opsecPersist (d : Die) : Die := { d with lb := { d.lb with opsecSaved := max d.lb.opsecSaved d.opsec } }

/-- The records of a source, oldest first (R476); the lists are kept newest first. -/
def Logbook.source (l : Logbook) (src : Nat) : List LogRec :=
  (if src = 0 then l.ring else if src = 1 then l.reserve else l.image).reverse

/-- LOG_READ's own part (R476). -/
def Die.logRead (d : Die) (q : KReq) : KAns :=
  let rs := (d.lb.source (q.get 9 1)).filter (fun r => decide (q.get 0 8 ≤ r.seq) && decide (q.get 8 1 ≤ r.sev))
  .paged d rs.length 64 (fun i => ((rs[i]?).map LogRec.bytes).getD [])

/-- The highest SEQ of a boot-store image, and of the system area (R476); 0 none. -/
def Logbook.bootSeq (l : Logbook) : Nat := (l.image.map (fun r => r.seq)).foldl max 0
def Logbook.sysSeq (l : Logbook) : Nat := (l.sys.map (fun s => s.2.1)).foldl max 0

/-- A system-area segment as it is written to its berths (R474), by its place in the list, the newest first: the header with its CRC-32C
over the whole segment, then the records, oldest first. -/
def Logbook.segmentBytes (l : Logbook) (k : Nat) : List Byte :=
  match l.sys[k]? with
  | none => []
  | some s =>
    let head := le 8 (l.sysNext - 1 - k) ++ le 8 s.1 ++ le 8 s.2.1 ++ le 4 s.2.2.length ++ List.replicate 32 0
    let recs := padTo 65472 (s.2.2.reverse.flatMap LogRec.bytes)
    head ++ le 4 (crc32c (head ++ le 4 0 ++ recs)).toNat ++ recs

/-- The 128 bytes of LOG_STATUS (R476). -/
def Die.logStatus (d : Die) : List Byte :=
  let l := d.lb
  padTo 128 (le 8 l.newest ++ le 8 l.loss ++ le 4 l.ring.length ++ le 4 l.pcycle ++ le 6 d.opsec ++ le 1 l.reserve.length ++ le 1 0
    ++ (List.range 8).flatMap (fun i => le 4 (Tbl.get 0 l.drops i)) ++ (List.range 8).flatMap (fun i => le 4 (Tbl.get 0 l.written i))
    ++ le 8 l.bootSeq ++ le 8 l.sysSeq)

/-- LOG_MARK's own part (R483): the record with the owner's 28 bytes, and its SEQ. -/
def Die.logMark (d : Die) (q : KReq) : KAns :=
  let d := d.record 0x0C0C sevInfo noInst (padTo 28 q.body)
  .ok d (le 8 d.lb.newest)

/-! ## The meanings -/

/-- LOG_SEGMENT_TIMER (R474). -/
def execLogSegmentTimer (s : State) : Host.Outcome State Fault Refusal := s.run (·.segmentTimer)
/-- BOOT_IMAGE_WRITE (R474). -/
def execBootImageWrite (s : State) : Host.Outcome State Fault Refusal := s.run (fun d => if d.imageOwed then d.bootImage else d)
/-- OPSEC_PERSIST (R473). -/
def execOpsecPersist (s : State) : Host.Outcome State Fault Refusal := s.run (·.opsecPersist)
/-- LOG_READ (R476). -/
def execLogRead (q : KReq) (s : State) : Host.Outcome State Fault Refusal :=
  s.run (·.kanex q { op := 0x0601, need := 10, used := [(0, 10)],
                     bad := fun _ => if 7 < q.get 8 1 then some 8 else if 2 < q.get 9 1 then some 9 else none, body := fun d => d.logRead q })
/-- LOG_STATUS (R476). -/
def execLogStatus (q : KReq) (s : State) : Host.Outcome State Fault Refusal :=
  s.run (·.kanex q { op := 0x0602, body := fun d => .ok d d.logStatus })
/-- LOG_MARK (R483). -/
def execLogMark (q : KReq) (s : State) : Host.Outcome State Fault Refusal :=
  s.run (·.kanex q { op := 0x0603, need := 28, used := [(0, 28)], body := fun d => d.logMark q })

end Sys2Proof.Machine
end

