-- ==== Sys2Proof/Machine/Power.lean ====
section
/-! DEFINITION. Power states (R408 to R418): when a state may be entered, entry up to and past the commit point, wake sources
and resume; the idle tick of the block. -/

namespace Sys2Proof.Machine

/-! ## Conditions of entry (R409) -/

/-- A host command in flight; an Asynchronous Event Request that waits for an event does not count (log entry 39). -/
def Die.hostBusy (d : Die) : Bool :=
  d.qe.tags.any (fun (e : Nat × Tag) => e.2.st != .free && !(d.fn e.2.fn).aers.contains e.1)

/-- A Kanex command running other than the one named. -/
def Die.otherKanex (d : Die) (fn op : Nat) : Bool :=
  d.funcs.any (fun (e : Nat × Func) => e.2.mbx.st == .running && !(e.1 == fn && e.2.mbx.opcode == op))

/-- A movement that bars entry. -/
def Die.entryMoving (d : Die) : Bool :=
  d.berthMoving || d.dramMoving || d.se.scrub.st == 1 || !d.cl.migrating.isEmpty || d.workerMoving || d.fw.live

/-- A formed group below GC start (R183). -/
def Die.belowGcStart (d : Die) : Bool :=
  (List.range 8).any (fun g => (d.group g).formed && decide (d.freeRus g * 1000 < d.gcProf.gcStart * d.totalRus g))

/-- Every function present is in D3hot. -/
def Die.allD3 (d : Die) : Bool :=
  (d.fn 0).d3 && (!d.link.vfEnable || (List.range' 1 d.link.numVfs).all (fun n => (d.fn n).d3))

/-- On a manager, a worker of the hierarchy that is not in P2 or P3. -/
def Die.workerAwake (d : Die) : Bool :=
  d.life.manager && d.ql.pos.any (fun (e : Nat × Pos) =>
    (match e.2.st with | .joining | .serving | .leaving | .adopting => true | _ => false) && decide (e.2.pstate < 2))

/-- The status that refuses entry to a state, if any (R409, in the order of R383); op: the Kanex command that asks, 0 none. -/
def Die.powerRefusal (d : Die) (target op : Nat) : Option Nat :=
  if d.entryMoving = true then some kRefusedMoving
  else if d.hostBusy = true ∨ d.otherKanex 0 op = true ∨ d.belowGcStart = true then some kStateConflict
  else if 2 ≤ target ∧ (d.funcs.any (fun (e : Nat × Func) => e.2.st == .enabling || e.2.st == .teardown) = true ∨ d.workerAwake = true) then some kStateConflict
  else if target = 2 ∧ d.rescueLimit < 2 * d.unsettled then some kStateConflict
  else if target = 3 ∧ d.allD3 = false then some kStateConflict
  else none

/-! ## Entry (R411, R412) -/

/-- Entry to a state begun. -/
def Die.beginEntry (d : Die) (target : Nat) : Die := { d with aon := { d.aon with entering := true, target := target } }

/-- The ports whose links are still to go to LD for a state (R207, R408): in P1 the idle links, in P2 all of them. -/
def Die.linksUp (d : Die) (t : Nat) : List Nat :=
  (d.bp.ports.filter (fun (e : Nat × Port) => e.2.linked && (e.2.lpwr == .l0 || e.2.lpwr == .ls)
    && (t == 2 || (t == 1 && e.2.outst.isEmpty && e.2.unacked.isEmpty && e.2.wdata.isEmpty && e.2.cmds.isEmpty)))).map (fun e => e.1)

/-- LD asked for at the ports that have nothing left to do and no such request outstanding (R208). -/
def Die.askLd (d : Die) (ps : List Nat) : Die :=
  ps.foldl (fun (x : Die) p =>
    let y := x.port p
    if y.quiet && y.outst.isEmpty && !y.retrain && !y.waking then x.sendLmgt p lmgtPwrReq 2 else x) d

/-- An entry abandoned before its commit point: Doluz is in P0 and records no wake (R412). -/
def Die.abandonEntry (d : Die) : Die :=
  { d with aon := { d.aon with entering := false, target := 0, pstate := 0 }, link := d.link.woken }

/-- A partly loaded PU padded with filler, programmed and folded into its row (R411 step 3). -/
def Die.padPu (d : Die) (r row pos n : Nat) : Die :=
  let ps := (d.ru r).slotPos row
  let mine := ((List.range n).filter (fun i => (ps[i % ps.length]?) == some pos)).map (fun i => i / ps.length)
  if mine.isEmpty || (d.ru r).passed.contains (row * 64 + pos) || ((d.ru r).row == row && (d.ru r).failing.any (fun f => f.1 == pos)) then d
  else
    let d := mine.foldl (fun (x : Die) s => if (x.ru r).loaded.contains ((row * 64 + pos) * 4 + s) then x else x.loadOk r row pos s) d
    let d := d.updRu r (fun u => { u with
      loaded := ((List.range 3).map (fun s => (row * 64 + pos) * 4 + s)).filter (fun k => !u.loaded.contains k) ++ u.loaded })
    let d := d.puPassed r row pos
    { d with sch := { d.sch with queued := d.sch.queued.filter (fun o => match o.what with
      | .shipLoaf x p _ => !(x == r && o.pu == row && p == pos)
      | .progPu x p => !(x == r && o.pu == row && p == pos)
      | _ => true) } }

/-- The partly loaded PUs of an open RU padded; a row whose every data position has passed gets its parity. -/
def Die.padRu (d : Die) (r : Nat) : Die :=
  let u := d.ru r
  let n := if u.arow == u.row then u.slots else 3 * (u.slotPos u.row).length
  let d := (u.slotPos u.row).foldl (fun (x : Die) p => x.padPu r u.row p n) d
  let d := if n ≠ 0 ∧ (u.usePos u.row).all (fun p => (d.ru r).passed.contains (u.row * 64 + p)) then d.parityPassed r u.row else d
  let d := if u.arow ≠ u.row then (u.slotPos u.arow).foldl (fun (x : Die) p => x.padPu r u.arow p u.slots) d else d
  let v := d.ru r
  let d := if v.slots ≠ 0 ∧ (v.openIdx v.slots).isNone then d.updRu r (fun w => { w with arow := w.arow + 1, slots := 0 }) else d
  if d.pusPerBlock u.group ≤ (d.ru r).row then d.closeRu r else d

/-- Everything staged drained and every heel settled, so that the proofing area empties (R411 step 3, P3). -/
def Die.drainAll (d : Die) : Die :=
  d.nss.foldl (fun (x : Die) e =>
    let x := (e.2.zones.map (fun (z : Nat × Zone) => z.1)).foldl (fun (y : Die) z => if (y.ns e.1).hasHeel z then y.settleHeel e.1 z else y) x
    let x := ((e.2.map.filter (fun (m : Nat × LoafEntry) => m.2.typ == .staged)).map (fun m => m.1)).foldl (fun (y : Die) l => y.drain e.1 l) x
    ((e.2.crumbs.filter (fun (c : Nat × Crumb) => c.2.st == .staged)).map (fun c => c.1 / 16)).foldl (fun (y : Die) l => y.drain e.1 l) x) d

/-- The journal flushed and a checkpoint cycle complete with nothing retained (R411 step 4), and the stop mark CLEAN (R512). -/
def Die.checkpointAll (d : Die) : Die :=
  let d := d.journalFlush
  let d := d.beginCycle.endCycle
  { d with life := { d.life with stopMark := .clean d.te.seg } }

/-- Write queues and merge buffers of every channel emptied (R411 step 5). -/
def Die.dramEmpty (d : Die) : Die := { d with dc := (List.range 12).foldl (fun c ch => c.empty d.now ch) d.dc }

/-- DIMMs in self-refresh, the retention signatures written and, for P3, the retention tag on each channel (R411 step 5, R416, R418). -/
def Die.retain (d : Die) (t : Nat) : Die :=
  let k := d.freeVal
  ({ d with
    dc := { d.dc with selfRefresh := true }
    aon := { d.aon with retSigs := (List.range 71).map (Config.bankCrc k), retTag := if t = 3 then some (k % 2 ^ 64) else d.aon.retTag } } : Die).drawn

/-- Entry up to the commit point (R411 steps 1 to 6): R409 is checked again, and an entry whose conditions no longer hold ends. It waits until
the berth links that the state wants in LD are there (R408; log entry 211). -/
def Die.commitEntry (d : Die) : Die :=
  let t := d.aon.target
  if (d.powerRefusal t 0).isSome then d.abandonEntry
  else if (d.linksUp t).isEmpty = false then d.askLd (d.linksUp t)
  else
    let d := d.sweep
    let d := if t = 2 then (d.openRusWith (fun _ => true)).foldl (fun (x : Die) r => x.padRu r) d else d
    let d := if t = 3 then (d.drainAll.closeAllRows).checkpointAll else d
    if t = 3 ∧ (d.te.proof.isEmpty = false ∨ d.te.buf.isEmpty = false ∨ d.te.writing.isEmpty = false) then d.abandonEntry
    else
      let d := if t = 3 then d.bootImage else d
      let d := if 2 ≤ t then d.dramEmpty else d
      let d := if 2 ≤ t then d.retain t else d
      { d with aon := { d.aon with entering := false, committed := true } }

/-- Whether an operation is queued for or outstanding at a berth of a port group. -/
def Die.portGroupBusy (d : Die) (i : Nat) : Bool :=
  d.sch.queued.any (fun o => o.port / 32 == i) || (List.range' (32 * i) 32).any (fun p => !(d.port p).outst.isEmpty)

/-- The islands gated in a state (R408): in P1 the idle port-group, UCIe and Quay islands, of which no entry leaves but a port group's
busy; in P2 and P3 every island (port groups 0-31, UCIe 32-39, channel pairs 40-47, Quay 48-51). -/
def Die.gatedIn (d : Die) (t : Nat) : List Nat :=
  if t = 1 then (List.range 52).filter (fun i => if i < 32 then !d.portGroupBusy i else decide (i < 40) || decide (48 ≤ i)) else List.range 52

/-- The state reached (R408). -/
def Die.reachState (d : Die) : Die :=
  let t := d.aon.target
  let d := if t = 3 then d.releaseBerths else d
  { d with
    bp := { d.bp with ports := if t = 3 then Tbl.mapVals (fun _ (x : Port) => { x with lpwr := LPwr.off, pwrEn := false }) d.bp.ports else d.bp.ports }
    link := { d.link with st := if d.link.st == .down then .down else if t = 3 then .l2 else if d.link.st == .l2 then .l2 else .l1 }
    life := { d.life with gated := d.gatedIn t }
    aon := { d.aon with pstate := t, target := 0, committed := false, slept := d.now, idleFrom := none } }

/-! ## Wake and resume (R412 to R418) -/

/-- AON_WAKE_SRC (R438). -/
def Aon.wakeSrc (a : Aon) : Nat := a.wake + 256 * a.origin + 65536 * bit a.retLoss + 131072 * a.bank + 16777216 * a.channel

/-- Both slots of every locked tenant LOCKED (R324). -/
def Die.lockSlots (d : Die) : Die :=
  (d.tenants.filter (fun (e : Nat × Tenant) => e.2.alive && e.2.lock.isSome)).foldl (fun (x : Die) e =>
    [2 * e.1, 2 * e.1 + 1].foldl (fun (y : Die) k => y.updSlot k (fun s =>
      if s.st == .write || s.st == .read then { s with st := .locked, before := s.st } else s)) x) d

/-- A function whose queue contexts lie in a bank of the context store; which they are is left open (log entry 40). -/
def contextIn (bank fn : Nat) : Bool := Config.openCode (0x1000 + bank) fn % 2 == 1

/-- What the loss of retained banks takes with it (R417). -/
def Die.banksLost (d : Die) (banks : List Nat) : Die :=
  let d : Die := { d with te := { d.te with cache := d.te.cache.filter (fun l => !(banks.contains (Config.cacheBank l.1.1 l.1.2.1 l.1.2.2 % 32))) } }
  let d := (banks.filter (fun b => 64 ≤ b && b ≤ 66)).foldl (fun (x : Die) b =>
    (x.readyFns.filter (fun n => contextIn b n)).foldl (fun (y : Die) n => y.fence n 4) x) d
  let d : Die := if banks.any (fun b => 67 ≤ b && b ≤ 69) then d.beginCycle else d
  if banks.contains 70 then d.lockSlots else d

/-- The mask of the failing banks (R478). -/
def bankMask (banks : List Nat) : Nat := (List.range 71).foldl (fun a b => if banks.contains b then a + 2 ^ b else a) 0

/-- A port as a start finds it: ABSENT, with what outlives the start (R227); from a cold reset its counters begin anew (R236). -/
def Port.fresh (x : Port) (cold : Bool) : Port :=
  { enabled := x.enabled, member := x.member, blockCrc := x.blockCrc, slotPresent := x.slotPresent, slotGood := x.slotGood, slotOc := x.slotOc
    passcrc := if cold then 0 else x.passcrc, crcerr := if cold then 0 else x.crcerr, replays := if cold then 0 else x.replays
    retrains := if cold then 0 else x.retrains, ops := if cold then 0 else x.ops }

/-- The training set of a berth that echoes what a port sends (R194). -/
def foundTs (b : BerthFind) (x : Port) (k : OrderedSet) (eqDone : Bool) : Ts :=
  let body := k.byte0 :: le 1 (3 + 128) ++ le 2 b.port ++ le 4 x.nonce ++ le 1 (b.presets.1 % 16 + 16 * (b.presets.2 % 16)) ++ le 1 (1 + 2 * bit b.rate32)
    ++ le 1 0 ++ le 1 (bit eqDone) ++ [0, 0, 0]
  { bytes := body ++ [xorBytes body] }

/-- The training of a berth found at a start: the attempt, then the last of the sixteen sets of each of its phases, and the credits (R193). -/
def Die.trainFound (d : Die) (b : BerthFind) : Die :=
  let p := b.port
  let d := ((d.powerGood p).trainingAttempt p false true).updPort p (fun x => { x with okTs1 := 15 })
  let d := (d.ts1 p (foundTs b (d.port p) .ts1 false)).updPort p (fun x => { x with ts2 := 15 })
  let d := d.ts2Rx p (foundTs b (d.port p) .ts2 false)
  let d := (if b.rate32 then d.ts1 p (foundTs b (d.port p) .ts1 true) else d).updPort p (fun x => { x with ts2 := 15 })
  (d.ts2Rx p (foundTs b (d.port p) .ts2 true)).creditInit p b.credits.1 b.credits.2

/-- A system read of a start answered: its CMD acknowledged, and as many sequenced flits of the berth taken. -/
def Die.startAnswer (d : Die) (p flits : Nat) : Die :=
  d.updPort p (fun x => { (x.credited 1 0) with outst := [], unacked := [], rxSeq := (x.rxSeq + flits) % 256, ops := (x.ops + 1) % 2 ^ 32 })

/-- The copies of a berth's label read one after another until one is good (R226, R261). -/
def Die.labelsFound (d : Die) (p : Nat) : Nat → List Label → Die
  | _, [] => d
  | i, l :: r => if (d.port p).st == .identifying then ((d.startAnswer p 10).labelTaken true p i l).labelsFound p (i + 1) r else d

/-- A berth found in a slot, taken through the hot-plug states to its class (R227, R413 step 5, R513 step 8). A passport that fails its CRC is
read once more (R223). -/
def Die.discover (d : Die) (b : BerthFind) : Die :=
  if Config.ports ≤ b.port then d
  else
    let d := (d.portTo b.port .present 0).powerPort b.port
    if (d.port b.port).st = .powering then
      let d := ((d.trainFound b).startAnswer b.port 2).passportTaken true b.port b.passport
      let d := if (d.port b.port).reread then (d.startAnswer b.port 2).passportTaken true b.port b.passport else d
      d.labelsFound b.port 0 ((b.labels ++ List.replicate 3 ({ raw := [] } : Label)).take 3)
    else d

/-- R148: the geometry that a group without one takes at a start: the PU_PER_BLOCK held by the most of its berths whose passports
pass every other check of R225, the lower value on a tie. -/
def Die.startGeometry (d : Die) (bs : List BerthFind) (g : Nat) : Die :=
  if (d.group g).geometry.isSome then d
  else
    let good := bs.filter (fun b => groupOf b.port == g && (d.port b.port).enabled
      && ((d.updPort b.port (fun x => { x with ts1Rate32 := b.rate32 })).passportCause b.port b.passport).isNone)
    let sizes := good.map (fun b => b.passport.puPerBlock)
    let often := fun (n : Nat) => (sizes.filter (· == n)).length
    let pick := best (fun a b => decide (often b < often a) || (often a == often b && decide (a < b))) sizes
    if pick.isNone then d else d.updGroup g (fun y => { y with geometry := pick })

/-- Every berth found again, in port order (R6); a member that is not found is missing (R260), and the groups are formed and weighed
once discovery has ended (R148, R513 step 8). -/
def Die.rediscover (d : Die) (bs : List BerthFind) : Die :=
  let was := (d.bp.ports.filter (fun (e : Nat × Port) => e.2.member)).map (fun e => e.1)
  let d : Die := { d with bp := { d.bp with ports := Tbl.mapVals (fun _ (x : Port) => x.fresh false) d.bp.ports } }
  let found := (List.range Config.ports).filterMap (fun p => bs.find? (fun b => b.port == p))
  let d := (List.range 8).foldl (fun (x : Die) g => x.startGeometry found g) d
  let d := found.foldl (fun (x : Die) b => x.discover b) d
  let d := was.foldl (fun (x : Die) p => if (x.port p).st == .online then x else x.goMissing p x.se.rejoin) d
  (List.range 8).foldl (fun (x : Die) g => if (x.members g).isEmpty then x else x.groupJoined g) d

/-- R357, R413, R522: at a resume from P3 the interior starts from zero code words: functions, queues, vectors and the event controller are
as after reset, and the map cache is empty; what lies in DRAM, on the media and in the always-on island is kept. -/
def Die.swept (d : Die) : Die :=
  { d with
    funcs := Tbl.mapVals (fun _ (f : Func) => { poisonFwd := f.poisonFwd, dstLog := f.dstLog }) d.funcs
    qe := {}
    link := { d.link with vfEnable := false, numVfs := 0 }
    te := { d.te with cache := [] }
    mc := { policy := d.mc.policy, policyForce := d.mc.policyForce, fdp := d.mc.fdp, fdpEvents := d.mc.fdpEvents, ovf := d.mc.ovf, stamp := d.mc.stamp } }

/-- Resume (R413): time out of P0 does not count (R435, R464), the wake recorded, the domains powered, and what the state lost rebuilt. -/
def Die.resume (d : Die) (code origin : Nat) (banks chans : List Nat) (bs : List BerthFind) : Die :=
  let p := d.aon.pstate
  let banks := if p = 2 then banks.filter (fun b => b ≤ 70) else []
  let chans := if p = 3 then chans.filter (fun c => c < 12) else []
  let loss := !banks.isEmpty || !chans.isEmpty
  let bank := if chans.isEmpty then (if banks.isEmpty then 0 else banks.foldl min 0x7F) else 0x7F
  let d : Die := { d with
    dc := { d.dc with selfRefresh := false }
    link := { d.link with st := if d.link.st == .down then .down else .l0 }
    life := { d.life with gated := d.noModules, stopMark := if p = 3 then .none else d.life.stopMark }
    fw := { d.fw with windowFrom := d.fw.windowFrom + (d.now - d.aon.slept) }
    aon := { d.aon with
      testAt := d.aon.testAt + (d.now - d.aon.slept)
      pstate := 0, target := 0, entering := false, committed := false, idleFrom := none, latched := none, wake := code, origin := origin
      retLoss := loss, bank := bank, channel := if chans.isEmpty then 0 else chans.foldl min 0xF, wakeTime := d.aon.time - d.aon.zero } }
  let d := d.record 0x0E02 sevInfo noInst (le 4 d.aon.wakeSrc)
  let d := if banks.isEmpty then d else (d.record 0x0E03 sevWarning noInst (le 9 (bankMask banks))).banksLost banks
  if p = 3 then (d.swept.rediscover bs).lockSlots
  else if p = 2 then (d.bp.ports.map (fun (e : Nat × Port) => e.1)).foldl (fun (x : Die) n => x.roused n) d else d

/-- A wake source with what the resume meets (R412): it abandons an entry before the commit point, is latched from there on, or
wakes the die. -/
def Die.wakeUp (d : Die) (code : Nat) (banks chans : List Nat) (bs : List BerthFind) : Die :=
  if d.aon.entering = true then d.abandonEntry
  else if d.aon.committed = true then
    { d with aon := { d.aon with latched := match d.aon.latched with | none => some code | some c => some (min c code) } }
  else if d.aon.pstate ≠ 0 then d.resume code 0 banks chans bs
  else d

/-- The states each wake source wakes from (R414). -/
def wakesFrom (code pstate : Nat) : Bool :=
  match code with
  | 0x01 | 0x03 | 0x04 => pstate == 1 || pstate == 2
  | 0x02 => pstate == 2 || pstate == 3
  | 0x05 | 0x06 | 0x07 | 0x08 | 0x09 => true
  | _ => false

/-- WAKE_SOURCE: a code that does not wake from the state held or being entered has no effect. -/
def Die.wakeSource (d : Die) (code : Nat) (banks chans : List Nat) (bs : List BerthFind) : Die :=
  let st := if d.aon.entering || d.aon.committed then d.aon.target else d.aon.pstate
  if wakesFrom code st = true then d.wakeUp code banks chans bs else d

/-- A wake source raised by the die's own change of state (R425, R433). In P2 and P3 the resume is the WAKE_SOURCE row, which
carries what the banks and the berths show (log entry 41). -/
def Die.raiseWake (d : Die) (code : Nat) : Die :=
  if d.aon.pstate = 2 ∨ d.aon.pstate = 3 then d else d.wakeUp code [] [] []

/-- A slot controller's interrupt or a berth newly present: wake source 0x03, in the states it wakes from (R227, R235, R414). -/
def Die.slotWake (d : Die) : Die :=
  if wakesFrom 0x03 (if d.aon.entering || d.aon.committed then d.aon.target else d.aon.pstate) then d.raiseWake 0x03 else d

/-- SLOT_IBI: the wake, then the registers as the interrupt carries them. -/
def Die.slotIbi (d : Die) (c : Nat) (present good oc : Byte) : Die := d.slotWake.slotReport c present good oc

/-- PRESENCE_STABLE: a berth that comes wakes the die (R227). -/
def Die.presence (d : Die) (p : Nat) (present : Bool) : Die :=
  ((if present && (d.port p).st == .absent then d.slotWake else d)).presenceStable p present

/-- A dock-down from P1, P2 or past a commit point starts after the wake, and ends an entry under way (R436, R439). -/
def Die.dockWake (d : Die) (code : Nat) : Die :=
  if d.aon.entering = true then d.abandonEntry
  else if d.aon.committed = true ∧ d.aon.target ≠ 3 then d.reachState.resume code 0 [] [] []
  else if d.aon.committed = true then d.reachState
  else if d.aon.pstate = 1 ∨ d.aon.pstate = 2 then d.resume code 0 [] [] [] else d

/-- R410: idle is that the conditions of the next state hold without a break; they are looked at each microsecond (log entry 220). -/
def Die.idleWatch (d : Die) : Die :=
  let idle := d.aon.pstate < 2 && !d.aon.entering && !d.aon.committed && d.life.phase == .ready && (d.powerRefusal (d.aon.pstate + 1) 0).isNone
  { d with aon := { d.aon with idleFrom := if idle then some (d.aon.idleFrom.getD d.now) else none } }

/-- What one microsecond brings besides the time: the entry to a power state goes on (R411; log entry 12). -/
def Die.idleTick (d : Die) : Die :=
  let d := d.tick
  if d.aon.committed = true then
    let d := d.reachState
    match d.aon.latched with
    | some c => d.resume 0x0A c [] [] []
    | none => d
  else if d.aon.entering = true then d.commitEntry
  else d.idleWatch

/-- The idle tick of the block. -/
def State.tick (s : State) : State := { s with die := s.die.idleTick }

/-! ## Commands -/

/-- The first wrong field of POWER_STATE_SET (R410). -/
def powerBad (q : KReq) : Option Nat :=
  if 3 < q.get 0 1 then some 0
  else if 2 < q.get 1 1 then some 1
  else if q.get 2 2 < 1 ∨ 1000 < q.get 2 2 then some 2
  else if q.get 4 4 < 100 ∨ 3600000 < q.get 4 4 then some 4 else none

/-- POWER_STATE_SET's own part (R410): the settings kept, and entry begun. An entry already under way, or a state already
held, is a conflict. -/
def Die.powerStateSet (d : Die) (q : KReq) : KAns :=
  let t := q.get 0 1
  let set : Die := { d with aon := { d.aon with auto := q.get 1 1, t1 := q.get 2 2, t2 := q.get 4 4, alarm := q.get 8 8 } }
  if t = 0 then .ok set []
  else match d.powerRefusal t 0x0507 with
    | some st => .no d st
    | none => if d.aon.entering = true ∨ d.aon.committed = true ∨ d.aon.pstate ≠ 0 then .no d kStateConflict else .ok (set.beginEntry t) []

/-- How long the conditions of a state have to hold before automatic entry to it, µs (R410). -/
def Die.idleNeed (d : Die) (target : Nat) : Nat := 1000 * (if target = 1 then d.aon.t1 else d.aon.t2)

/-- Whether Doluz has been idle long enough for automatic entry to a state (R410). -/
def Die.idleFor (d : Die) (target : Nat) : Bool :=
  match d.aon.idleFrom with
  | some t => decide (t + d.idleNeed target ≤ d.now)
  | none => false

/-- IDLE_TIMER_P1 and IDLE_TIMER_P2 (R410): automatic entry from the state before, where its conditions have held for T1 or T2. -/
def Die.idleTimer (d : Die) (target : Nat) : Die :=
  if d.idleFor target = true ∧ target ≤ d.aon.auto ∧ d.aon.pstate + 1 = target ∧ d.aon.entering = false ∧ d.aon.committed = false
    ∧ d.life.phase = .ready ∧ (d.powerRefusal target 0).isNone = true then d.beginEntry target
  else d

/-! ## The meanings -/

/-- SLOT_IBI (R235). -/
def execSlotIbi (controller : Nat) (present pwrGood oc : Byte) (s : State) : Host.Outcome State Fault Refusal :=
  s.run (·.slotIbi controller present pwrGood oc)
/-- PRESENCE_STABLE (R227, R235). -/
def execPresenceStable (port : Nat) (present : Bool) (s : State) : Host.Outcome State Fault Refusal := s.run (·.presence port present)
/-- POWER_STATE_SET (R410). -/
def execPowerStateSet (q : KReq) (s : State) : Host.Outcome State Fault Refusal :=
  s.run (·.kanex q { op := 0x0507, need := 16, used := [(0, 16)], bad := fun _ => powerBad q, body := fun d => d.powerStateSet q })
/-- IDLE_TIMER_P1 (R410). -/
def execIdleTimerP1 (s : State) : Host.Outcome State Fault Refusal := s.run (·.idleTimer 1)
/-- IDLE_TIMER_P2 (R410). -/
def execIdleTimerP2 (s : State) : Host.Outcome State Fault Refusal := s.run (·.idleTimer 2)
/-- WAKE_SOURCE (R412 to R418). -/
def execWakeSource (code : Nat) (failedBanks lostChannels : List Nat) (berths : List BerthFind) (s : State) : Host.Outcome State Fault Refusal :=
  s.run (·.wakeSource code failedBanks lostChannels berths)

end Sys2Proof.Machine
end

