-- ==== Sys2Proof/Machine/Thermal.lean ====
section
/-! DEFINITION. Pace and VCORE, the clocks, the thermal state, and the breakwater with its test (R420 to R438). -/

namespace Sys2Proof.Machine

/-! ## Pace, VCORE and clocks (R420 to R423, R510) -/

/-- PACE_SAMPLE: the 64 paces, the greatest and its monitor (R420). -/
def Die.paceSample (d : Die) (paces : List Nat) : Die :=
  let ps := paces.take 64
  let mx := ps.foldl max 0
  if ps.length = 64 then
    { d with aon := { d.aon with
        paces := ps.zipIdx.map (fun (e : Nat × Nat) => (e.2, e.1 % 65536)), paceMax := mx % 65536, paceMon := (ps.findIdx (fun x => x == mx)) % 64 } }
  else d

/-- VCORE_ADJUST (R421): the target moves by at most 10 mV. How far it moves is left open (log entry 42). -/
def Die.vcoreAdjust (d : Die) (power : Nat) : Die :=
  let d : Die := { d with aon := { d.aon with power := power % 4096 } }
  if d.aon.fixed then d
  else
    let step := 1 + d.freeVal % 10
    let lean := d.sch.profile = 3
    let up := if lean then decide (power + 10 ≤ d.powerCap * 10) else decide (500 < d.aon.paceMax)
    let down := if lean then decide (d.powerCap * 10 < power) else decide (d.aon.paceMax ≤ 490)
    let v := if up then min 850 (d.aon.vcore + step) else if down then max (if lean then 550 else 700) (d.aon.vcore - step) else d.aon.vcore
    let d := if up || down then d.drawn else d
    if v = d.aon.vcore then d else ({ d with aon := { d.aon with vcore := v } } : Die).emit (.avs v)

/-- AVS_ABSENT (R422): VCORE is the fixed one that the board supplies. -/
def Die.avsAbsent (d : Die) : Die :=
  if d.aon.fixed then d else ({ d with aon := { d.aon with fixed := true } } : Die).record 0x0E08 sevWarning noInst []

/-- CLOCK_LOST (R423): the time base goes over to the trimmed oscillator. -/
def Die.clockLost (d : Die) : Die :=
  if d.aon.crystal then ({ d with aon := { d.aon with crystal := false } } : Die).record 0x0E09 sevWarning noInst [] else d

/-! ## Sensors and the thermal state (R424 to R430) -/

/-- The value a sample gives a sensor: its override while that lasts, else what was read (R429). -/
def Die.sensorValue (d : Die) (s : Nat) (read : Option Int) : Option Int :=
  match (d.sensor s).override with
  | some o => if d.now < o.2 then some o.1 else read
  | none => read

/-- A bad sample (R427). -/
def badReading : Option Int → Bool
  | none => true
  | some v => decide (v < -400) || decide (1500 < v)

/-- Kind of a sensor among the self-test units (R480). -/
def kindSensor : Nat := 5

/-- One sensor sampled (R427): at its third consecutive bad sample it counts as 120 °C. -/
def Die.sampleSensor (d : Die) (s : Nat) (read : Option Int) : Die :=
  let v := d.sensorValue s read
  let x := d.sensor s
  let d := d.updSensor s (fun y => { y with override := match y.override with | some o => if d.now < o.2 then some o else none | none => none })
  if badReading v then
    let n := min 3 (x.bad + 1)
    let last := v.getD x.reading
    if n = 3 ∧ x.faulty = false then
      let d := d.updSensor s (fun y => { y with reading := last, bad := n, faulty := true, sliceFailed := false })
      let d := d.record 0x0E05 sevError s (le 1 s ++ le 2 (last % 65536).toNat)
      { d with units := { d.units with queue := d.units.queue ++ [(kindSensor, s)] } }
    else d.updSensor s (fun y => { y with reading := last, bad := n })
  else d.updSensor s (fun y => { y with reading := v.getD y.reading, bad := 0, faulty := false })

/-- What a sensor counts as, 0.1 °C. -/
def Sensor.counts (x : Sensor) : Int := if x.faulty then 1200 else x.reading

/-- The composite and the sensor that gives it (R424): the highest among those not excluded. -/
def Die.hottest (d : Die) : Option (Nat × Int) :=
  ((List.range 64).filter (fun s => !(d.sensor s).excluded)).foldl (fun a s =>
    match a with
    | none => some (s, (d.sensor s).counts)
    | some b => if b.2 < (d.sensor s).counts then some (s, (d.sensor s).counts) else some b) none

/-- A change of the thermal state with its record, its wake and its event (R425, R426). -/
def Die.thermalTo (d : Die) (st : ThState) (sev : Nat) (comp : Nat) (sensor : Nat) : Die :=
  let old := d.aon.th
  let step := if st == .throttle && old != .throttle then min 4 (d.aon.step + 1)
    else if old == .throttle && st == .warning then d.aon.step - 1 else d.aon.step
  let turn := (st == .throttle) != (old == .throttle)
  let d : Die := { d with aon := { d.aon with th := st, thAt := d.now, step := step, stepAt := if turn then d.now else d.aon.stepAt } }
  let d := d.record 0x0E04 sev noInst (le 1 old.num ++ le 1 st.num ++ le 1 comp ++ le 1 sensor)
  let d := if st == .warning && old == .normal then d.smartEvent 0x01 1 else d
  d.raiseWake 0x06

/-- SHUTDOWN (R430): dock-down, then the alert with POWER_OFF. -/
def Die.shutdown (d : Die) (e : DockEnv) : Die :=
  let d := (d.dockWake 0x06).dockDown dockThermal 0 e
  { d with life := { d.life with alert := true, powerOffFlag := true } }

/-- How many consecutive samples a condition has held, at most 3. -/
def run3 (holds : Bool) (n : Nat) : Nat := if holds then min 3 (n + 1) else 0

/-- The thermal state evaluated against a sample's composite (R425). -/
def Die.evalThermal (d : Die) (c : Int) (comp sensor : Nat) (e : DockEnv) : Die :=
  let a := d.aon
  let r := (run3 (decide (950 ≤ c)) a.rises.1, run3 (decide (1050 ≤ c)) a.rises.2.1, run3 (decide (1200 ≤ c)) a.rises.2.2)
  let f := (run3 (decide (c ≤ 900)) a.falls.1, run3 (decide (c ≤ 1000)) a.falls.2)
  let d : Die := { d with aon := { d.aon with rises := r, falls := f } }
  let stay := decide (d.now < a.thAt + 100000)
  if r.2.2 = 3 ∧ a.th ≠ .shutdown then (d.thermalTo .shutdown sevCritical comp sensor).shutdown e
  else if stay then d
  else match a.th with
    | .normal => if r.2.1 = 3 then d.thermalTo .throttle sevWarning comp sensor
        else if r.1 = 3 then d.thermalTo .warning sevWarning comp sensor else d
    | .warning => if r.2.1 = 3 then d.thermalTo .throttle sevWarning comp sensor
        else if f.1 = 3 then d.thermalTo .normal sevNotice comp sensor else d
    | .throttle => if f.2 = 3 then d.thermalTo .warning sevNotice comp sensor else d
    | .shutdown => d

/-- SENSOR_SAMPLE (R424 to R430). -/
def Die.sensorSample (d : Die) (readings : List (Option Int)) (e : DockEnv) : Die :=
  let d := (readings.take 64).zipIdx.foldl (fun (x : Die) r => x.sampleSensor r.2 r.1) d
  match d.hottest with
  | none => d
  | some h =>
    let comp := min 255 (h.2 / 10).toNat
    let near := (decide (900 ≤ h.2) && decide (h.2 ≤ 1100)) || (decide (1150 ≤ h.2) && decide (h.2 ≤ 1250))
    let d : Die := { d with aon := { d.aon with composite := comp, hottest := h.1, fast := near } }
    if d.life.phase = .thermalHold then d else d.evalThermal h.2 comp h.1 e

/-- THROTTLE_STEP_TIMER (R426): at the end of each further 100 ms. -/
def Die.throttleTimer (d : Die) : Die :=
  if d.aon.stepAt + 100000 ≤ d.now then
    { d with aon := { d.aon with stepAt := d.now, step := if d.aon.th == .throttle then min 4 (d.aon.step + 1) else d.aon.step - 1 } }
  else d

/-- A mask of the sensors that a condition names (R438). -/
def Die.maskOfSensors (d : Die) (f : Sensor → Bool) : Nat := (List.range 64).foldl (fun a s => if f (d.sensor s) then a + 2 ^ s else a) 0

/-- THM_SUMMARY (R438). -/
def Aon.thmSummary (a : Aon) : Nat := a.composite + 256 * a.th.num + 1024 * a.step + 8192 * a.hottest + 524288 * bit a.fast

/-- THERMAL_STATUS's payload (R387): for each sensor its reading and its flags. -/
def Die.thermalStatus (d : Die) : List Byte :=
  (List.range 64).flatMap (fun i => le 2 ((d.sensor i).reading % 65536).toNat
    ++ le 2 (bit (d.sensor i).faulty + 2 * bit (d.sensor i).excluded + 4 * bit (match (d.sensor i).override with | some o => decide (d.now < o.2) | none => false)))

/-- PACE_STATUS's payload (R387). -/
def Die.paceStatus (d : Die) : List Byte :=
  le 2 d.aon.vcore ++ le 2 d.aon.power ++ (List.range 64).flatMap (fun i => le 2 (Tbl.get 500 d.aon.paces i))

/-- SENSOR_EXCLUDE's own part (R428). In thermal hold, a change that clears the cause lets the device restart. -/
def Die.sensorExclude (d : Die) (q : KReq) : KAns :=
  let s := q.get 0 1
  let set := fun (x : Die) (b : Bool) =>
    let x := x.updSensor s (fun y => { y with excluded := b })
    let cool := match x.hottest with | some h => decide (h.2 < 1200) | none => true
    if x.life.phase = .thermalHold ∧ cool = true then ({ x with life := { x.life with restart := true } } : Die) else x
  if q.get 1 1 = 0 then .ok (set d false) []
  else if (d.sensor s).excluded = true then .ok d []
  else if (d.sensor s).sliceFailed = false then .no d kStateConflict
  else if 8 ≤ ((List.range 64).filter (fun i => (d.sensor i).excluded)).length then .no d kExhausted
  else .ok (set d true) []

/-- SENSOR_OVERRIDE's own part (R429). -/
def Die.sensorOverride (d : Die) (q : KReq) : KAns :=
  if d.testLock = true then .no d kLocked
  else
    let v : Int := if q.get 2 2 < 32768 then q.get 2 2 else (q.get 2 2 : Int) - 65536
    .ok (d.updSensor (q.get 0 1) (fun x => { x with override := some (v, d.now + q.get 4 2 * 1000000) })) []

/-! ## Breakwater (R431 to R435) -/

/-- Usable energy in mJ at a bank voltage in mV (R432): C in µF, ETA in %. -/
def Aon.energyAt (a : Aon) (v : Nat) : Nat :=
  let c := if a.cap = 0 then a.cRated / 2 else a.cap
  c * (v * v - a.vMin * a.vMin) * a.eta / 200000000000

/-- The rescue limit in units of 256 MiB (R432): the largest n of at most 16 with 1.2 × (0.96 J + 0.31 J/GiB × n ÷ 4) ≤ E. -/
def limitUnits (c v vMin eta : Nat) : Nat :=
  (List.range 17).foldl (fun a n => if (1152 + 93 * n) * 200000000000 ≤ c * (v * v - vMin * vMin) * eta ∧ 0 < n then n else a) 0

/-- A change of verdict with its record and its wake (R433). -/
def Die.verdictTo (d : Die) (v : Verdict) : Die :=
  let num := match v with | .healthy => 0 | .weak => 1 | .failed => 2
  let sev := match v with | .healthy => sevNotice | .weak => sevWarning | .failed => sevError
  let d : Die := { d with aon := { d.aon with verdict := v, okFrom := if v == .healthy then d.aon.okFrom else none, lowRun := 0 } }
  let d := d.record 0x0E06 sev noInst (le 1 num ++ le 4 d.aon.energy ++ le 1 d.aon.limit)
  (d.raiseWake 0x05).progress

/-- BREAKWATER_SAMPLE (R432, R433): energy, rescue limit and verdict. A limit that falls below unsettled content keeps the hold, makes
heels and drains urgent until the content is 256 MiB below it, and writes a NOTICE (R21). -/
def Die.breakwaterSample (d : Die) (mV : Nat) : Die :=
  let v := if d.aon.bwTest then d.aon.v0 * 97 / 100 else mV
  let c := if d.aon.cap = 0 then d.aon.cRated / 2 else d.aon.cap
  let n := limitUnits c v d.aon.vMin d.aon.eta
  let e := d.aon.energyAt v
  let low := if n < 4 then min 3 (d.aon.lowRun + 1) else 0
  let okFrom := if 6 ≤ n then (match d.aon.okFrom with | some t => some t | none => some d.now) else none
  let d : Die := { d with
    aon := { d.aon with volt := mV % 65536, energy := e % 2 ^ 32, limit := n, lowRun := low, okFrom := okFrom } }
  let d : Die := if d.rescueLimit < d.unsettled ∧ d.te.overLimit = false then
      ({ d with te := { d.te with overLimit := true }, qe := { d.qe with writeHold := true } } : Die).record (Config.openCode 0x0E00 1 % 65536) sevNotice noInst []
    else d
  let d := d.press
  match d.aon.verdict with
  | .healthy =>
    if low = 3 then d.verdictTo (if 1152 ≤ e ∧ d.aon.cap ≠ 0 then .weak else .failed) else d
  | _ => match okFrom with
    | some t => if t + 1000000 ≤ d.now then d.verdictTo .healthy else d
    | none => d

/-- The test begun (R435 step 1). -/
def Die.testBegin (d : Die) (fn : Option Nat) : Die :=
  { d with aon := { d.aon with bwTest := true, chgEn := false, v0 := d.aon.volt, testFn := fn, testAt := d.now } }

/-- BREAKWATER_TEST's own part (R431, R435). -/
def Die.breakwaterTest (d : Die) (q : KReq) : KAns :=
  let d : Die := if q.body.take 16 |>.all (fun b => b == 0) then d else
    { d with aon := { d.aon with rTest := q.get 0 4, div := q.get 4 2, eta := q.get 6 1, vMin := q.get 8 4, cRated := q.get 12 4 } }
  if d.aon.bwTest then .go ({ d with aon := { d.aon with testFn := some q.fn } } : Die) 0 else .go (d.testBegin (some q.fn)) 0

/-- BREAKWATER_TEST_PERIODIC (R435): after 24 h spent in P0. -/
def Die.testPeriodic (d : Die) : Die :=
  if d.aon.bwTest = false ∧ d.aon.pstate = 0 ∧ d.life.phase = .ready ∧ d.aon.testAt + 86400000000 ≤ d.now then d.testBegin none else d

/-- BW_TEST (R550). -/
def Die.testRecord (d : Die) (c cause : Nat) : Die := d.record 0x0E07 sevWarning noInst (le 3 c ++ le 1 cause)

/-- BREAKWATER_TEST_END (R435): t µs passed, V1 reached, and the capacitance t ÷ (R_TEST × ln(V0 ÷ V1)) as measured. -/
def Die.testEnd (d : Die) (us v1 c : Nat) : Die :=
  if d.aon.bwTest then
    let fn := d.aon.testFn
    let noFall := decide (20000 < us) || decide (97 * d.aon.v0 < 100 * v1)
    let bad := noFall || decide (5 * c < d.aon.cRated)
    let d : Die := { d with aon := { d.aon with bwTest := false, chgEn := true, testFn := none } }
    let d : Die := if bad then d.testRecord d.aon.cap (if noFall then 1 else 2)
      else
        let d : Die := { d with aon := { d.aon with cap := c % 2 ^ 24, capAt := d.now } }
        if 100 * c < 72 * d.aon.cRated then d.testRecord c 3 else d
    match fn with
    | some n => if bad then d.kanexEndOf n opBreakwaterTest (openStatus opBreakwaterTest 1) 0 (le 4 d.aon.cap ++ le 4 d.aon.energy)
        else d.kanexEndOf n opBreakwaterTest kOk 0 (le 4 d.aon.cap ++ le 4 d.aon.energy)
    | none => d
  else d

/-- BW_STATUS to BW_ENERGY (R438). -/
def Die.bwStatus (d : Die) : Nat :=
  let v := match d.aon.verdict with | .healthy => 0 | .weak => 1 | .failed => 2
  v + 4 * bit d.writeThrough + 8 * bit d.aon.pfN + 16 * bit d.aon.bwTest + 32 * bit d.aon.chgEn + 65536 * d.aon.limit
def Die.bwCap (d : Die) : Nat :=
  d.aon.cap + 2 ^ 24 * (if d.aon.cap = 0 then 0 else min 255 ((d.now - d.aon.capAt) / 3600000000))

/-! ## The meanings -/

/-- PACE_SAMPLE (R420). -/
def execPaceSample (paces : List Nat) (s : State) : Host.Outcome State Fault Refusal := s.run (·.paceSample paces)
/-- VCORE_ADJUST (R421). -/
def execVcoreAdjust (powerDw : Nat) (s : State) : Host.Outcome State Fault Refusal := s.run (·.vcoreAdjust powerDw)
/-- AVS_ABSENT (R422). -/
def execAvsAbsent (s : State) : Host.Outcome State Fault Refusal := s.run (·.avsAbsent)
/-- OSC_TRIM (R423). -/
def execOscTrim (s : State) : Host.Outcome State Fault Refusal :=
  s.run (fun d => { d with aon := { d.aon with trims := d.aon.trims + 1 } })
/-- CLOCK_LOST (R423). -/
def execClockLost (s : State) : Host.Outcome State Fault Refusal := s.run (·.clockLost)
/-- CRYSTAL_STABLE (R510). -/
def execCrystalStable (s : State) : Host.Outcome State Fault Refusal := s.run (fun d => { d with aon := { d.aon with crystal := true } })
/-- SENSOR_SAMPLE (R424 to R430). -/
def execSensorSample (readings : List (Option Int)) (dk : DockEnv) (s : State) : Host.Outcome State Fault Refusal :=
  s.run (·.sensorSample readings dk)
/-- THROTTLE_STEP_TIMER (R426). -/
def execThrottleStepTimer (s : State) : Host.Outcome State Fault Refusal := s.run (·.throttleTimer)
/-- BREAKWATER_SAMPLE (R432, R433). -/
def execBreakwaterSample (mV : Nat) (s : State) : Host.Outcome State Fault Refusal := s.run (·.breakwaterSample mV)
/-- BREAKWATER_TEST_PERIODIC (R435). -/
def execBreakwaterTestPeriodic (s : State) : Host.Outcome State Fault Refusal := s.run (·.testPeriodic)
/-- BREAKWATER_TEST_END (R435). -/
def execBreakwaterTestEnd (us v1 cMeasured : Nat) (s : State) : Host.Outcome State Fault Refusal := s.run (·.testEnd us v1 cMeasured)
/-- BREAKWATER_TEST (R435). -/
def execBreakwaterTest (q : KReq) (s : State) : Host.Outcome State Fault Refusal :=
  s.run (·.kanex q { op := opBreakwaterTest, need := 16, used := [(0, 7), (8, 8)], body := fun d => d.breakwaterTest q })
/-- BREAKWATER_STATUS (R435). -/
def execBreakwaterStatus (q : KReq) (s : State) : Host.Outcome State Fault Refusal :=
  s.run (·.kanex q { op := 0x0508, body := fun d => .ok d (le 4 d.bwStatus ++ le 4 d.aon.volt ++ le 4 d.bwCap ++ le 4 d.aon.energy) })
/-- THERMAL_STATUS (R424). -/
def execThermalStatus (q : KReq) (s : State) : Host.Outcome State Fault Refusal :=
  s.run (·.kanex q { op := 0x0505, body := fun d => .ok d d.thermalStatus })
/-- PACE_STATUS (R424). -/
def execPaceStatus (q : KReq) (s : State) : Host.Outcome State Fault Refusal :=
  s.run (·.kanex q { op := 0x0506, body := fun d => .ok d d.paceStatus })
/-- SENSOR_EXCLUDE (R428). -/
def execSensorExclude (q : KReq) (s : State) : Host.Outcome State Fault Refusal :=
  s.run (·.kanex q { op := 0x050A, need := 2, used := [(0, 2)],
                     bad := fun _ => if 64 ≤ q.get 0 1 then some 0 else if 2 ≤ q.get 1 1 then some 1 else none, body := fun d => d.sensorExclude q })
/-- SENSOR_OVERRIDE (R429). -/
def execSensorOverride (q : KReq) (s : State) : Host.Outcome State Fault Refusal :=
  s.run (·.kanex q { op := 0x0D03, need := 6, used := [(0, 1), (2, 4)],
                     bad := fun _ => if 64 ≤ q.get 0 1 then some 0 else if q.get 4 2 < 1 ∨ 60 < q.get 4 2 then some 4 else none,
                     body := fun d => d.sensorOverride q })

end Sys2Proof.Machine
end

