-- ==== Sys2Proof/Machine/Start.lean ====
section
/-! DEFINITION. Power-on, resets and cold starts (R2, R508 to R528, R539, R542), the restore of the logbook (R475), and the
FAIL step (R527). -/

namespace Sys2Proof.Machine

/-! ## What a start keeps (R522) -/

/-- Kinds of a cold start: after a power-on reset, after COLD_RST_N, made by the device on its own. -/
inductive ColdKind where
  | power | coldRst | restart
deriving DecidableEq, Repr

/-- Straps and lifecycle as step 1 leaves them: the straps sampled but at a device restart (R508, R509). -/
def Life.started (l : Life) (k : ColdKind) (now : Nat) : Life :=
  { partPW := l.partPW, aonPower := true, coldRstN := true, pinRole := l.pinRole, pinQuay := l.pinQuay, pinBootSel := l.pinBootSel
    manager := if k == .restart then l.manager else l.pinRole && !l.partPW
    quayId := if k == .restart then l.quayId else l.pinQuay
    bootSel := if k == .restart then l.bootSel else l.pinBootSel
    phase := .starting, stopMark := l.stopMark, dockStep := l.dockStep, startKind := l.startKind, startTime := now
    rescueGen := l.rescueGen, lostBytes := l.lostBytes, lastFail := l.lastFail, stopAt := l.stopAt
    i3cAddr := if k == .power then none else l.i3cAddr }

/-- A tenant as a start leaves it (R295, R302, R324). -/
def Tenant.started (t : Tenant) : Tenant :=
  { t with
    wLast := 0, held := 0, crRd := t.burst * t.rd * 1000, crWr := t.burst * t.wr * 1000, crCmd := t.burst * t.kiops
    force := { cls := t.cls, share := t.share, resmin := t.resmin, rd := t.rd, wr := t.wr, kiops := t.kiops, burst := t.burst }
    active := false, touched := false, wrongUnlocks := 0 }

/-- What a start keeps of a function: the owner's poison forwarding option, and the last self-test's entry. -/
def Func.started (f : Func) : Func := { poisonFwd := f.poisonFwd, dstLog := f.dstLog }

/-- The journal as a start finds it: what the stop left is durable (R169; log entry 43), and a cycle under way has not completed. -/
def Te.started (t : Te) : Te :=
  { seg := t.seg, retained := t.retained, made := t.made, durable := t.made, ckptEnd := t.ckptEnd, proof := t.proof, proofNext := t.proofNext, folds := t.folds
    dirty := t.cycle.map (fun p => p.1) ++ t.dirty.filter (fun p => !t.cycle.any (fun c => c.1 == p)), copies := t.copies }

/-- Whether the journal that a start replays marks an RU PENDING_ERASE and not ERASED (R173). -/
def Ru.eraseOwed (u : Ru) : Bool := u.st == .pendingErase || (u.st == .collecting && u.stage == 2)

/-- The reclaim state (R173), where replay has put back what was not durable: an RU whose ERASED is durable is FREE, one whose
PENDING_ERASE is durable is erased again, and any other victim is CLOSED again; copies not passed are given up. -/
def Rc.started (r : Rc) : Rc :=
  let r := ((r.rus.filter (fun e => e.2.st == .pendingErase && e.2.stage == 4)).map (fun e => e.1)).foldl (fun c i => c.freeRu i) r
  { r with
    rus := Tbl.mapVals (fun _ (u : Ru) => { u with rebuild := [], failing := [], frozen := false, accP := [], accQ := [], accTrays := [], mark := 0,
                                                   st := if u.eraseOwed then .pendingErase else if u.st == .collecting then .closed else u.st
                                                   stage := if u.eraseOwed then 2 else 0 }) r.rus
    groups := Tbl.mapVals (fun _ (g : Group) => { g with gc := false, victim := none, gcCopied := 0 }) r.groups
    rewrite := r.rewrite ++ r.owed.filter (fun k => !r.rewrite.contains k), owed := []
    moves := [] }

/-- R512: the kind of a start. -/
def Die.kindOfStart (d : Die) : StartKind :=
  match d.life.stopMark with
  | .clean s => if d.te.seg = s then .clean else .unclean
  | .docked _ => if d.life.dockStep = 7 then .afterDock else .unclean
  | .none => .unclean

/-- Windows moved by a time for which they stood still. -/
def Se.windowsBy (c : Se) (f : Missing → Nat) : Se :=
  { c with missing := Tbl.mapVals (fun _ (m : Option Missing) => m.map (fun x => { x with windowEnd := x.windowEnd + f x })) c.missing }

/-- Rejoin windows stand still while the die is stopped, after an unclean stop from the last durable segment on (R260); a drain under way is
abandoned (R227), and a rebuild begins its RUs anew: what it has written of a replacement block is erased first (R262). -/
def Die.seStarted (d : Die) : Se :=
  let stop := fun (m : Missing) => if d.kindOfStart == .unclean then max m.since d.te.durableAt else d.life.stopAt
  { (({ missing := d.se.missing } : Se).windowsBy (fun m => d.now - stop m)) with
    rejoin := d.se.rejoin, mgen := d.se.mgen, nextJob := d.se.nextJob
    scrub := if d.se.scrub.st = 1 then { id := d.se.scrub.id } else d.se.scrub, scrubDone := d.se.scrubDone
    rebuild := d.se.rebuild.filter (fun e => (d.port e.2).st != .draining)
    partly := d.rc.rus.flatMap (fun e => e.2.rebuild.map (fun b => (blockKey b.dst.port b.dst.die b.dst.block, e.1))) ++ d.se.partly }

/-- The replacement blocks whose RU_SUBST is durable take their places (R262). -/
def Die.substDurable (d : Die) : Die :=
  d.rc.rus.foldl (fun (x : Die) e => (e.2.rebuild.filter (fun b => b.stage == 2)).foldl (fun (y : Die) b => match (y.ru e.1).members[b.pos]? with
    | some old =>
      let y := y.substitute e.1 b.pos old b.dst
      { y with se := { y.se with rebuild := y.se.rebuild.filter (fun z => z != (e.1, b.port)) } }
    | none => y) x) d

/-- The always-on island at a start: the time base is kept, and counted anew from a cold reset (R438, R510). -/
def Aon.started (a : Aon) (k : ColdKind) : Aon :=
  { time := a.time, zero := if k == .restart then a.zero else a.time, crystal := if k == .power then false else a.crystal
    sensors := Tbl.mapVals (fun _ (s : Sensor) => { excluded := s.excluded }) a.sensors
    pfN := a.pfN, volt := a.volt, cap := a.cap, capAt := a.capAt, testAt := a.testAt
    rTest := a.rTest, div := a.div, eta := a.eta, vMin := a.vMin, cRated := a.cRated }

/-- The logbook at step 1 (R472, R473): where the ring was lost, SEQ goes on in the block after the highest reserved one and PCYCLE counts. -/
def Logbook.started (l : Logbook) : Logbook :=
  if l.lost then
    let n := (l.seqBlock + 1) * Config.block20 - 1
    { l with ring := [], reserve := [], newest := n, newestStored := false, loss := n, pcycle := (l.pcycle + 1) % 2 ^ 32, seg := [], imageDue := false }
  else l

/-- Step 1 of a cold start (R513): what the start keeps, everything else at its reset value. -/
def Die.base (d : Die) (k : ColdKind) : Die :=
  let d := d.substDurable
  { life := { d.life.started k d.now with gated := if (d.life.started k d.now).manager then [] else List.range' 32 8 }
    link := { st := .down, mask := 0, lanesRepaired := if k == .restart then d.link.lanesRepaired else 0 }
    funcs := Tbl.mapVals (fun _ (f : Func) => f.started) d.funcs
    tenants := Tbl.mapVals (fun _ (t : Tenant) => t.started) d.tenants
    nss := (d.closeZones (fun _ _ => true) (fun _ _ => false)).nss.map (fun (e : Nat × Ns) =>
      (e.1, { e.2 with busy := false, hold := none, zones := Tbl.mapVals (fun _ (z : Zone) => { z with roWait := none }) e.2.zones }))
    sch := { histFrom := d.opsec }
    te := d.te.started
    rc := d.rc.started
    se := d.seStarted
    bp := { ports := Tbl.mapVals (fun _ (x : Port) => x.fresh (k != .restart)) d.bp.ports
            ibiEn := (List.range 128).map (fun c => (c, 0xFF#8)) }
    cl := { slots := Tbl.mapVals (fun _ (s : Slot) => { s with asking := false }) d.cl.slots }
    units := { map := d.units.map }
    dc := { proofGib := d.dc.proofNext, proofNext := d.dc.proofNext, trained := d.dc.trained }
    tp := { split := d.tp.splitNext, splitNext := d.tp.splitNext }
    mc := { policy := d.mc.policy, policyForce := if k == .restart then d.mc.policyForce else d.mc.policy, fdp := d.mc.fdp
            stamp := if k == .restart then d.mc.stamp else (0, d.now) }
    lb := d.lb.started
    fw := { d.fw with windowErr := false }
    aon := d.aon.started k
    ql := { pos := Tbl.mapVals (fun _ (p : Pos) => { recDsn := p.recDsn, prior := p.prior }) d.ql.pos, hierProfile := d.ql.hierProfile
            upstream := d.life.manager, mgrDsn := d.ql.mgrDsn }
    out := d.out
    free := d.free }

/-! ## The logbook restored (R475) -/

/-- A span of SEQ accounted for. -/
def spanOf (rs : List LogRec) : List (Nat × Nat) :=
  match rs with
  | [] => []
  | r :: _ => [(rs.foldl (fun a x => min a x.seq) r.seq, rs.foldl (fun a x => max a x.seq) r.seq)]

/-- A span put in its place among spans sorted by their first SEQ. -/
def spanInsert (s : Nat × Nat) : List (Nat × Nat) → List (Nat × Nat)
  | [] => [s]
  | x :: r => if s.1 ≤ x.1 then s :: x :: r else x :: spanInsert s r

/-- The ranges between sorted spans that none covers: from the end reached so far. -/
def gapsFrom : Nat → List (Nat × Nat) → List (Nat × Nat)
  | _, [] => []
  | top, s :: r => if top + 1 < s.1 then (top + 1, s.1 - 1) :: gapsFrom (max top s.2) r else gapsFrom (max top s.2) r

/-- A record put in its place in a list newest first; a SEQ is held once. -/
def recInsert (x : LogRec) : List LogRec → List LogRec
  | [] => [x]
  | y :: r => if y.seq < x.seq then x :: y :: r else if y.seq = x.seq then y :: r else y :: recInsert x r

/-- The ring rebuilt after a start at which it was lost: boot store, then the system area and the dock-down sector once a berth is
found; a LOG_GAP for each gap, and LOG_RESTORED. -/
def Die.restoreRing (d : Die) (media : Bool) : Die :=
  let l := d.lb
  if l.lost then
    let found := media && d.bp.ports.any (fun e => e.2.st == .online)
    let segs := if found then l.sys else []
    let dock := if found then l.dock else []
    let old := (l.image ++ segs.flatMap (fun s => s.2.2) ++ dock).foldl (fun a x => recInsert { x with restored := true } a) []
    let spans := (spanOf l.image ++ segs.map (fun s => (s.1, s.2.1)) ++ spanOf dock).foldl (fun a s => spanInsert s a) []
    let gaps := match spans with | [] => [] | s :: r => gapsFrom s.2 r
    let kept := old.take (Config.ringSize - l.ring.length)
    let d : Die := { d with lb := { l with
      lost := false
      ring := l.ring ++ kept
      reserve := (l.reserve ++ old.filter (fun r => r.sev == sevFatal)).take Config.reserveSize } }
    let d := gaps.foldl (fun (x : Die) g => x.record 0x0002 sevWarning noInst (le 8 g.1 ++ le 8 g.2)) d
    d.record 0x0001 sevInfo noInst (le 4 kept.length ++ le 8 (((kept.getLast?).map (fun r => r.seq)).getD 0))
  else d

/-! ## The steps of a cold start (R513) -/

/-- Step 3: units already in the unit map stay out, and each that fails boot self-test joins them (R481, R483). -/
def Die.bootTest (d : Die) (failed : List (Nat × Nat)) : Die :=
  let old := d.units.map
  let d : Die := { d with fw := { d.fw with windowErr := d.fw.windowErr || failed.any (fun u => !old.contains u) } }
  let d := old.foldl (fun (x : Die) u => x.takeOut u.1 u.2 .unusable) d
  let new := failed.filter (fun u => !old.contains u && decide (u.1 ≤ 6) && decide (u.2 < kindTotal u.1))
  let d := new.foldl (fun (x : Die) u =>
    (x.markUnusable u.1 u.2).record 0x0C07 sevError u.2 (le 1 u.1 ++ le 2 u.2 ++ le 1 (Config.openCode 0x0C07 1) ++ le 1 (Config.openCode 0x0C07 2))) d
  failed.foldl (fun (x : Die) u => if u.1 = 5 ∧ u.2 < 64 then x.updSensor u.2 (fun s => { s with sliceFailed := true }) else x) d

/-- A start that ends in a hold: the alert is asserted (R519). -/
def Die.hold (d : Die) (p : Phase) : Die := { d with life := { d.life with phase := p, alert := true } }

/-- What the sensors read at a start. -/
def Die.startTemps (d : Die) (ts : List (Option Int)) : Die :=
  (ts.take 64).zipIdx.foldl (fun (x : Die) r => x.updSensor r.2 (fun s =>
    if badReading r.1 then { s with reading := r.1.getD s.reading, bad := 3, faulty := true } else { s with reading := r.1.getD s.reading })) d

/-- Whether SHUTDOWN is read, and whether only sensors that failed boot self-test cause it (R428). -/
def Die.startHot (d : Die) : Bool := match d.hottest with | some h => decide (1200 ≤ h.2) | none => false
def Die.onlyFailed (d : Die) (failed : List (Nat × Nat)) : Bool :=
  (List.range 64).all (fun s => (d.sensor s).excluded || failed.contains (5, s) || decide ((d.sensor s).counts < 1050))

/-- SHUTDOWN entered at a start (R425, R428). -/
def Die.startShutdown (d : Die) : Die :=
  match d.hottest with
  | some h => d.thermalTo .shutdown sevCritical (min 255 (h.2 / 10).toNat) h.1
  | none => d

/-- Steps 6 and 7: the channels trained and swept (R335, R343, R356). -/
def Die.trainChannels (d : Die) (cs : List ChanFind) : Die :=
  Die.levelRates <| cs.foldl (fun (x : Die) f =>
    if 12 ≤ f.ch then x
    else if chanGood f = false then x.record 0x0B01 sevError f.ch (le 2 f.ch ++ le 1 (Config.openCode 0x0B01 0))
    else if f.trainOk = false then
      (x.updChan f.ch (fun c => { c with st := .failed })).record 0x0B05 sevError f.ch (le 2 f.ch ++ le 1 (Config.openCode 0x0B05 0))
    else x.updChan f.ch (fun c => c.fitted f .active)) d

/-- Step 10: each slot's next counter (R326), and the slots of locked tenants LOCKED. -/
def Die.slotCounters (d : Die) (k : StartKind) : Die :=
  let next := fun (s : Slot) => match k with
    | .clean => s.next
    | .afterDock => s.exact.getD (s.durable * Config.block20)
    | .unclean => s.durable * Config.block20
  ({ d with cl := { d.cl with slots := Tbl.mapVals (fun _ (s : Slot) => { s with next := next s, exact := none }) d.cl.slots } } : Die).lockSlots

/-- Step 14: open-row recovery (R515): open rows closed with P and Q computed from readbacks, open RUs closed. -/
def Die.openRows (d : Die) : Die :=
  let d := ((d.openRusWith (fun _ => true)).foldl (fun (x : Die) r => x.updRu r (fun u => { u with loaded := [], accP := [], accQ := [] })) d).closeAllRows
  (d.openRusWith (fun _ => true)).foldl (fun (x : Die) r => x.closeRu r) d

/-- R253, R515: the reconstruction of every position recorded as missing queued: its valid data goes to open rows. -/
def Die.queueLost (d : Die) : Die :=
  let keys := d.rc.rus.flatMap (fun (e : Nat × Ru) => e.2.lost.flatMap (fun l => if (e.2.dataPos l.2).contains l.1 then e.2.slotKeys l.2 l.1 else []))
  { d with rc := { d.rc with rewrite := d.rc.rewrite ++ keys.filter (fun k => d.stillMapped k && !d.rc.rewrite.contains k) } }

/-- Step 15: the die is ready (R514, R516). -/
def Die.atReady (d : Die) (e : BootEnv) (k : StartKind) : Die :=
  let d : Die := { d with
    life := { d.life with phase := .ready, startKind := k, dockStep := 0, stopMark := .none
                          rescueGen := if k == .clean then d.life.rescueGen else !d.life.rescueGen }
    te := if k == .clean then d.te else d.beginCycle.te }
  if d.life.manager then d.ucieTrain e.ucie false else d

/-- Steps 2 to 15, once PF_N is high, for which rejoin windows wait (R260, R513, R520, R521, R428, R483). -/
def Die.startOn (d : Die) (e : BootEnv) : Die :=
  let d : Die := { d with se := d.se.windowsBy (fun _ => d.now - d.life.startTime) }
  let d : Die := { d with life := { d.life with phase := .starting, startTime := d.now } }
  if e.bootStoreOk = false then ({ d with life := { d.life with xspiHiZ := true } } : Die).hold .romHold
  else
    let d := if d.life.partPW ∧ d.life.pinRole = true then d.record 0x0709 sevError noInst (le 1 1) else d
    let d := if e.avs then d else d.avsAbsent
    let d := (d.bootTest e.failedUnits).startTemps e.temps
    let run := d.pilot e.actTorn0 e.actTorn1 (fun i => if i = 0 then e.slotAOk else e.slotBOk)
    let d := run.1
    if e.essentialFail.isSome ∨ d.serving 3 < 9 then
      ((d.restoreRing false).record 0x0C09 sevFatal noInst (le 1 0xFF ++ le 2 (e.essentialFail.getD 0xFFFF))).hold .faultHold
    else if d.startHot = true then
      if d.onlyFailed e.failedUnits then (d.restoreRing false).startShutdown.hold .thermalHold
      else
        let d := d.startShutdown
        { d with life := { d.life with phase := .parked, alert := true, powerOffFlag := true } }
    else if d.life.manager = true ∧ (run.2 = false ∨ d.life.bootSel = true) then
      (((d.restoreRing false).trainChannels e.chans).ucieTrain e.ucie false).hold .maintHold
    else if e.reachesReady = false then d
    else
      let d := ((d.trainChannels e.chans).placeGranules.addressSlots.rediscover e.berths)
      let d := d.restoreRing true
      let k := d.kindOfStart
      let d := d.slotCounters k
      let d := if k == .clean then d else d.settleRescue.emptyZones
      let d := if k == .unclean then d.openRows else d
      let d := if k == .clean then d else d.queueLost
      d.atReady e k

/-- A cold start (R513): step 1, at which it waits while PF_N is low (R542). -/
def Die.coldStart (d : Die) (e : BootEnv) (k : ColdKind) : Die :=
  let d := d.base k
  if d.aon.pfN then d.startOn e else { d with life := { d.life with phase := .waitPf } }

/-! ## Events -/

/-- SUPPLY_LOSS (R522): the ring is lost; what stood in page registers and in the proofing area is lost unless a dock-down has
written it or the die is in P3. -/
def Die.supplyLoss (d : Die) : Die :=
  let live := d.awake && d.aon.pstate != 3
  let d := if live then d.abandonEvery.unfill d.filling (fun d => d.replay.loseUnprogrammed) else d
  { d with
    te := if live then { d.te with proof := [], buf := [], writing := [] } else d.te
    lb := { d.lb with ring := [], reserve := [], seg := [], lost := true }
    life := { d.life with aonPower := false, phase := .off, alert := false, powerOffFlag := false, stopAt := if d.awake then d.now else d.life.stopAt }
    link := { d.link with st := .down }
    aon := { d.aon with crystal := false } }

/-- POWER_ON_RESET (R508, R510): the always-on island starts; a cold start follows where COLD_RST_N is high. -/
def Die.powerOn (d : Die) (e : BootEnv) : Die :=
  let d := if d.life.aonPower then d.supplyLoss else d
  let d : Die := { d with
    life := { d.life with aonPower := true }
    lb := { d.lb with opsecBase := d.lb.opsecSaved, opsecAt := d.now }
    aon := { d.aon with crystal := false, zero := d.now } }
  if d.life.coldRstN then d.coldStart e .power else { d with life := { d.life with phase := .inReset } }

/-- COLD_RST_N_RISE (R508). -/
def Die.coldRise (d : Die) (e : BootEnv) : Die :=
  if d.life.coldRstN then d
  else
    let d : Die := { d with life := { d.life with coldRstN := true, powerOffFlag := false } }
    if d.life.aonPower then d.coldStart e .coldRst else d

/-- COLD_RST_N_FALL (R523). -/
def Die.coldFall (d : Die) (dk : DockEnv) : Die :=
  if d.life.coldRstN = false then d
  else
    let d := if d.awake ∧ d.aon.pstate ≠ 3 then (d.dockWake 0x09).dockDown dockColdRst 0 dk else d
    let p := match d.life.phase with | .off => Phase.off | .parked => Phase.parked | _ => Phase.inReset
    { d with
      life := { d.life with coldRstN := false, phase := p, stopAt := if d.awake then d.now else d.life.stopAt }
      link := { d.link with st := .down } }

/-- START_WATCHDOG_EXPIRY (R517): a start that has not reached step 15 within 60 s is followed by a device restart. -/
def Die.startWatchdog (d : Die) (e : BootEnv) : Die :=
  if d.life.phase = .starting ∧ d.life.startTime + 60000000 ≤ d.now then d.coldStart e .restart else d

/-- DEVICE_RESTART (R517, R527): the restart that a FAIL step, or the owner in thermal hold, has left owed. -/
def Die.deviceRestart (d : Die) (e : BootEnv) : Die :=
  if d.life.restart = true ∧ (d.life.phase = .parked ∨ d.life.phase = .thermalHold) ∧ d.life.coldRstN = true then d.coldStart e .restart else d

/-- PF_N_FALL (R28, R439, R528). -/
def Die.pfFall (d : Die) (dk : DockEnv) : Die :=
  let d : Die := { d with aon := { d.aon with pfN := false } }
  (if d.awake then d.dockWake 0x05 else d).dockDown dockPfN 0 dk

/-- PF_N_RISE (R439, R542): a start that waits for it goes on, and a parked die starts. -/
def Die.pfRise (d : Die) (still : Bool) (e : BootEnv) : Die :=
  let d : Die := { d with aon := { d.aon with pfN := true } }
  if still = false then d
  else if d.life.phase = .waitPf then d.startOn e
  else if d.life.phase = .parked ∧ d.life.powerOffFlag = false ∧ d.life.coldRstN = true then d.coldStart e .restart
  else d

/-- RAIL_OUT_OF_WINDOW (R511): a worker's VUCIE is not monitored (R532). -/
def Die.railOut (d : Die) (r : Rail) (dk : DockEnv) : Die :=
  if d.awake ∧ d.aon.pstate ≠ 3 ∧ (r ≠ .vucie ∨ d.life.manager = true) then
    let d : Die := { d with life := { d.life with railsOut := if d.life.railsOut.contains r then d.life.railsOut else r :: d.life.railsOut } }
    (d.dockWake 0x05).dockDown dockRail (Rail.num r) dk
  else d

/-- A FAIL step (R527): its record, dock-down, and a device restart owed; a second one within 24 h leads to fault hold. -/
def Die.failStep (d : Die) (level inst sub : Nat) (dk : DockEnv) : Die :=
  let again := match d.life.lastFail with | some t => decide (d.now < t + 86400000000) | none => false
  let d := d.ladderTake level inst sub 5 false
  let d := if d.life.manager then d else d.quayMgmtSend d.life.quayId .failing
  let d := (d.dockWake 0x05).dockDown dockFail 0 dk
  let d : Die := { d with life := { d.life with lastFail := some d.now } }
  if again then d.conventionalReset.hold .faultHold else { d with life := { d.life with restart := true } }

/-! ## The meanings -/

/-- POWER_ON_RESET (R510). -/
def execPowerOnReset (e : BootEnv) (s : State) : Host.Outcome State Fault Refusal := s.always (·.powerOn e)
/-- SUPPLY_LOSS (R522). -/
def execSupplyLoss (s : State) : Host.Outcome State Fault Refusal := s.always (·.supplyLoss)
/-- COLD_RST_N_RISE (R508, R513). -/
def execColdRstNRise (e : BootEnv) (s : State) : Host.Outcome State Fault Refusal := s.always (·.coldRise e)
/-- COLD_RST_N_FALL (R523). -/
def execColdRstNFall (d : DockEnv) (s : State) : Host.Outcome State Fault Refusal := s.always (·.coldFall d)
/-- START_WATCHDOG_EXPIRY (R517). -/
def execStartWatchdogExpiry (e : BootEnv) (s : State) : Host.Outcome State Fault Refusal := s.always (·.startWatchdog e)
/-- DEVICE_RESTART (R517). -/
def execDeviceRestart (e : BootEnv) (s : State) : Host.Outcome State Fault Refusal := s.always (·.deviceRestart e)
/-- PF_N_FALL (R28, R528). -/
def execPfNFall (d : DockEnv) (s : State) : Host.Outcome State Fault Refusal := s.always (·.pfFall d)
/-- PF_N_RISE (R439, R542). -/
def execPfNRise (stillHigh : Bool) (e : BootEnv) (s : State) : Host.Outcome State Fault Refusal := s.always (·.pfRise stillHigh e)
/-- RAIL_OUT_OF_WINDOW (R511). -/
def execRailOutOfWindow (r : Rail) (d : DockEnv) (s : State) : Host.Outcome State Fault Refusal := s.always (·.railOut r d)

end Sys2Proof.Machine
end

