-- ==== Sys2Proof/Machine/Firmware.lean ====
section
/-! DEFINITION. Firmware update (R440 to R467): sessions, blocks, verification, activation at the next start, live and by restart,
confirmation and discard, on the Kanex and the NVMe path. -/

namespace Sys2Proof.Machine

/-! ## Slots and sessions (R447 to R452) -/

/-- The dies that are present: this one and every die of the hierarchy with its link up. -/
def Die.presentDies (d : Die) : List Nat := (List.range' 1 17).filter d.diePresent

/-- An update command passed to every worker that serves, with its request where a Kanex command it is (R461, R376). -/
def Die.toWorkers (d : Die) (op : Nat) (q : Option KReq) : Die := d.servingWorkers.foldl (fun (x : Die) p => x.kanexForward (p + 2) op q) d

/-- Whether a slot holds the image of manufacture, whole. -/
def FwSlot.factory (s : FwSlot) : Bool := s.hdr.isNone && s.st != .empty && s.st != .incomplete

/-- A block of a slot written and checked. -/
def FwSlot.has (s : FwSlot) (b : Nat) : Bool := (s.factory && decide (b < s.image.nblocks)) || s.blocks.contains b

/-- Lowest block not yet written and checked (R447). -/
def FwSlot.nextBlock (s : FwSlot) : Nat := ((List.range 769).find? (fun i => !s.has i)).getD 769

/-- Blocks of the slot written and checked. -/
def FwSlot.written (s : FwSlot) : Nat := if s.factory then s.image.nblocks else s.blocks.length

/-- The slot a SLOT byte names: 0 the one not running (R447). -/
def Fw.target (f : Fw) (slot : Nat) : Nat := if slot = 0 then 1 - f.running else slot - 1

/-- A session on a slot: an INCOMPLETE image with the same header goes on, anything else is cleared (R447). Over NVMe the header comes
with block 0: until then it is empty. -/
def Fw.openSession (f : Fw) (i : Nat) (h : Option (List Byte)) (window : Nat) : Fw :=
  let s := f.slot i
  let f : Fw := { f with session := some (i, h.isNone), window := window, got := [] }
  let goesOn : Bool := match h with
    | some b => s.st == .incomplete && (match s.hdr with | some x => x == b | none => decide (s.image = ImgHeader.ofBytes b))
    | none => false
  if goesOn then f else f.setSlot i { st := .incomplete, hdr := some (h.getD []) }

/-- A slot whose last block has been written is COMPLETE (R450). -/
def FwSlot.filled (s : FwSlot) : FwSlot :=
  let n := s.image.nblocks
  if s.st == .incomplete && decide (1 ≤ n) && decide (n ≤ (s.blocks.filter (fun b => decide (b < n))).length) then { s with st := .complete } else s

/-- A block written to a slot (R448). -/
def FwSlot.put (s : FwSlot) (b : Nat) : FwSlot :=
  FwSlot.filled { s with blocks := if s.blocks.contains b then s.blocks else b :: s.blocks }

/-- Whether the breakwater lets the boot store be written (R32, R453). -/
def Die.lowEnergy (d : Die) : Bool := d.aon.verdict != .healthy

/-- UPD_VERIFY on a slot (R452): the slots after it, and OK, INTEGRITY_FAIL, NOT_PERMITTED, or STATE_CONFLICT where no complete image
is there to verify. -/
def Fw.verify (f : Fw) (i : Nat) (v : VerifyFacts) : Fw × Nat :=
  let s := f.slot i
  let bad := v.badBlocks.filter (fun b => decide (b < s.image.nblocks))
  if s.st ≠ .complete ∧ s.st ≠ .verified ∧ s.st ≠ .failed then (f, kStateConflict)
  else if bad.isEmpty = false then
    (f.setSlot i { s with st := .incomplete, blocks := (if s.factory then List.range s.image.nblocks else s.blocks).filter (fun b => !bad.contains b) },
      kIntegrity)
  else if f.imageGood s.image v = false then (f.setSlot i { s with st := .complete }, kIntegrity)
  else if s.image.svn < f.act.svnFloor then (f.setSlot i { s with st := .complete }, kNotPermitted)
  else (f.setSlot i { s with st := .verified, parts := manifestOf v.manifest s.image.nparts }, kOk)

/-- Progress of a command that ends in one step: total work, all of it done. -/
def Die.allDone (d : Die) (fn n : Nat) : Die := (d.updMbx fn (fun m => { m with progTotal := n })).kanexProgress fn n

/-! ## The Kanex commands (R447 to R452) -/

/-- UPD_BEGIN's own part. -/
def Die.updBegin (d : Die) (q : KReq) : KAns :=
  let i := d.fw.target (q.get 0 1)
  let other := match d.fw.session with | some s => s.2 | none => false
  if d.updateLock = true then .no d kLocked
  else if d.lowEnergy = true then .no d kLowEnergy
  else if other = true ∨ (d.fw.slot i).inUse = true then .no d kStateConflict
  else
    let w := if q.get 2 4 = 0xFFFFFFFF then 600 else q.get 2 4
    let f := d.fw.openSession i (some ((q.payload.drop 8).take 256)) w
    .all (({ d with fw := f } : Die).toWorkers 0x0901 (some q)) (le 4 (f.slot i).nextBlock)

/-- UPD_BEGIN's first wrong field. -/
def updBeginBad (q : KReq) : Option Nat :=
  if 2 < q.get 0 1 then some 0 else if q.get 16 4 < 1 ∨ 768 < q.get 16 4 then some 16 else none

/-- UPD_BLOCK's first wrong field: a count that is none, or a block past the image. -/
def Die.updBlockBad (d : Die) (q : KReq) : Option Nat :=
  if q.get 4 1 < 1 ∨ 2 < q.get 4 1 then some 4
  else match d.fw.session with
    | some (i, false) => if (d.fw.slot i).image.nblocks < q.get 0 4 + q.get 4 1 then some 0 else none
    | _ => none

/-- UPD_BLOCK's own part: crcOk tells which of the blocks have a good CRC; none is a bulk read that fails (R370). -/
def Die.blocksIn (d : Die) (q : KReq) (crcOk : Option (List Bool)) : KAns :=
  let n := q.get 4 1
  let ok := fun (i : Nat) => ((crcOk.getD [])[i]?).getD false
  match d.fw.session with
  | some (i, false) =>
    if q.dlen ≠ 65536 * n then .ans d kBadParameter 16 []
    else if d.updateLock = true then .no d kLocked
    else if d.lowEnergy = true then .no d kLowEnergy
    else if crcOk.isNone = true then .ans (d.ferr q.fn 1) kBadParameter 24 []
    else
      let good := (List.range n).filter ok
      let f := d.fw.setSlot i (good.foldl (fun (s : FwSlot) b => s.put (q.get 0 4 + b)) (d.fw.slot i))
      let d := ({ d with fw := f } : Die).toWorkers 0x0902 (some q)
      if good.isEmpty then .no d kIntegrity else if good.length < n then .ans d kPartial good.length [] else .all d []
  | _ => if q.dlen ≠ 65536 * n then .ans d kBadParameter 16 []
    else if d.updateLock = true then .no d kLocked else if d.lowEnergy = true then .no d kLowEnergy else .no d kStateConflict

/-- UPD_VERIFY's own part. -/
def Die.updVerify (d : Die) (q : KReq) (v : VerifyFacts) : KAns :=
  let i := q.get 0 1 - 1
  let r := d.fw.verify i v
  let d := (({ d with fw := r.1 } : Die).toWorkers 0x0903 (some q)).allDone q.fn ((r.1.slot i).image.nblocks * d.presentDies.length)
  if r.2 = kOk then .all d [] else .no d r.2

/-! ## Activation (R454, R457, R459, R460) -/

/-- The record PENDING written for a slot (R454, R457). ACT_ID is a free value, the same on every die: a worker takes its manager's. -/
def Die.pending (d : Die) (i mode : Nat) : Die :=
  let h := (d.fw.slot i).image
  let own := d.freeVal % 2 ^ 64
  let id := if d.life.manager then own else d.ql.actId.getD own
  let f := d.fw.put (fun r => { r with
    st := 1, new := some i, trials := 0, mode := mode, fellBack := false, actId := id
    cfgOld := d.fw.cfgFmt, cfgNew := h.cfgFmt, fwOld := d.fw.runVer, fwNew := h.fwVer })
  let d := ({ d with fw := { f with session := none, cfgOther := if h.cfgFmt = d.fw.cfgFmt then none else some h.cfgFmt }
                     ql := { d.ql with actId := none } } : Die).drawn
  d.servingWorkers.foldl (fun (x : Die) p => x.quayMgmtSend p (.actId id)) d

/-- Whether a slot's image may be switched to live (R453): every part it lists is LIVE, LIVE_OK, and MIN_LIVE. -/
def Die.liveAllowed (d : Die) (i : Nat) : Bool :=
  let s := d.fw.slot i
  s.parts.all Part.live && s.image.flags % 2 == 1 && decide (s.image.minLive ≤ d.fw.runVer)

/-- CSTS.PP of every function. -/
def Die.setPp (d : Die) (on : Bool) : Die := { d with funcs := d.funcs.map (fun (e : Nat × Func) => (e.1, { e.2 with pp := on })) }

/-- R459 step 4: the activation hold, CSTS.PP, and the Firmware Activation Starting event. -/
def Die.holdBegins (d : Die) : Die :=
  let d := d.setPp true
  (d.readyFns.foldl (fun (x : Die) n => x.notice n 0x01 0x03 9) d).beginHold

/-- R459 steps 5 to 9: the configuration is translated, the new parts run and the slot is in TRIAL. -/
def Die.switched (d : Die) (i : Nat) : Die :=
  let f := (((d.fw.setSlot i { d.fw.slot i with st := .trial }).switchParts i).newFormat).put (fun r => { r with st := 2, trials := 3 })
  (({ d with fw := { f with live := false, liveTag := none, discarded := false, windowErr := false, windowFrom := d.now } } : Die).setPp false).endHold

/-- R460: every die returns to the old parts; the command that asked ends. -/
def Die.activationFails (d : Die) (step : Nat) : Die :=
  if d.fw.live then
    let t := d.fw.liveTag
    let i := d.fw.act.new.getD (1 - d.fw.act.run)
    let f := (d.fw.setSlot i { d.fw.slot i with st := .complete }).put (fun r => { r with st := 0, new := none, trials := 0 })
    let f : Fw := { f with cfgOther := none }
    let gone := d.fw.liveGone
    let d := (({ d with fw := { f with live := false, liveTag := none, liveGone := false } } : Die).setPp false).endHold
    let d := d.record 0x0C0B sevError noInst (le 1 d.anaGroup ++ le 1 step)
    match t with
    | some t => d.finish t stFwMaxTime
    | none => if gone then d else d.kanexEndOf 0 0x0904 kStateConflict 0 []
  else d

/-- A live activation (R459): where a die fails, the hold stands until ACTIVATION_HOLD_EXPIRY (log entry 45). -/
def Die.activateLive (d : Die) (i : Nat) (tag : Option Nat) (q : Option KReq) (dieFails : Bool) : Die :=
  let d := ((d.pending i 0).toWorkers 0x0904 q).holdBegins
  if dieFails then { d with fw := { d.fw with live := true, liveTag := tag, liveGone := false } } else d.switched i

/-- Movements that refuse an activation (R453). -/
def Die.activationMoving (d : Die) : Bool := d.dramMoving || d.workerMoving || d.fw.live

/-- A slot in TRIAL. -/
def Fw.onTrial (f : Fw) : Bool := f.a.st == .trial || f.b.st == .trial

/-- MODE 2 (R457, R517): P3 entry steps 1 to 5, then a device restart. -/
def Die.restartNow (d : Die) (e : BootEnv) : Die :=
  let d := ((d.sweep.abandonEvery.drainAll.closeAllRows).checkpointAll.bootImage).dramEmpty
  ({ d with life := { d.life with stopAt := d.now } } : Die).coldStart e .restart

/-- The slot UPD_ACTIVATE names: 0 the VERIFIED one. -/
def Fw.chosen (f : Fw) (slot : Nat) : Option Nat :=
  if slot = 0 then (if f.a.st == .verified then some 0 else if f.b.st == .verified then some 1 else none)
  else if (f.slot (slot - 1)).st == .verified then some (slot - 1) else none

/-- UPD_ACTIVATE's own part. The response to MODE 2 is lost with the restart. -/
def Die.updActivate (d : Die) (q : KReq) (dieFails : Bool) (e : BootEnv) : KAns :=
  let mode := q.get 0 1
  if d.updateLock = true then .no d kLocked
  else if d.lowEnergy = true then .no d kLowEnergy
  else if d.activationMoving = true then .no d kRefusedMoving
  else match d.fw.chosen (q.get 1 1) with
    | none => .no d kStateConflict
    | some i =>
      let steps := d.presentDies.length * 9
      if d.fw.onTrial = true ∨ (mode = 0 ∧ d.liveAllowed i = false) then .no d kStateConflict
      else if mode = 0 then
        let x := d.activateLive i none (some q) dieFails
        if dieFails then .go x steps else .all (x.allDone q.fn steps) []
      else if mode = 1 then .all (((d.pending i 1).toWorkers 0x0904 (some q)).allDone q.fn steps) []
      else .go (((d.pending i 1).toWorkers 0x0904 (some q)).restartNow e) 0

/-! ## Confirmation and discard (R464, R465) -/

/-- CONFIRMED written for the trial slot; the old format region is released (R463, R464). -/
def Fw.confirm (f : Fw) : Fw :=
  let i := f.act.new.getD (1 - f.act.run)
  let h := (f.slot i).image
  let f := (f.setSlot f.act.run { f.slot f.act.run with st := .complete }).setSlot i { f.slot i with st := .running }
  let f := f.put (fun r => { r with st := 0, run := i, new := none, trials := 0, fellBack := false, svnFloor := max r.svnFloor h.svnFloor
                                    cfgOld := r.cfgNew, fwOld := r.fwNew })
  { f with cfgOther := none }

/-- UPD_CONFIRM's own part. -/
def Die.updConfirm (d : Die) (q : KReq) : KAns :=
  if d.updateLock = true then .no d kLocked
  else if d.fw.act.st ≠ 2 then .no d kStateConflict
  else .all (({ d with fw := d.fw.confirm } : Die).toWorkers 0x0905 (some q)) []

/-- CONFIRMATION_WINDOW_END: the window has run out without an ERROR record and without a discard (R464, R467). -/
def Die.windowEnds (d : Die) : Die :=
  if d.fw.act.st = 2 ∧ d.fw.window ≠ 0 ∧ d.fw.discarded = false ∧ d.fw.windowErr = false ∧ d.aon.pstate = 0
      ∧ d.fw.windowFrom + d.fw.window * 1000000 ≤ d.now then
    ({ d with fw := d.fw.confirm } : Die).toWorkers 0x0905 none
  else d

/-- UPD_DISCARD's own part. -/
def Die.updDiscard (d : Die) (q : KReq) : KAns :=
  let i := q.get 0 1 - 1
  let ends := match d.fw.session with | some s => s.1 == i | none => false
  if d.updateLock = true then .no d kLocked
  else match (d.fw.slot i).st with
    | .running => .no d kStateConflict
    | .trial =>
      let f := d.fw.put (fun r => { r with trials := 0 })
      .all (({ d with fw := { f with discarded := true } } : Die).toWorkers 0x0907 (some q)) []
    | _ =>
      let f := d.fw.setSlot i {}
      .all (({ d with fw := { f with session := if ends then none else f.session, got := if ends then [] else f.got } } : Die).toWorkers 0x0907 (some q)) []

/-- A slot's number in UPD_STATUS (R451). -/
def FwSt.num : FwSt → Nat
  | .empty => 0
  | .incomplete => 1
  | .complete => 2
  | .verified => 3
  | .running => 4
  | .trial => 5
  | .failed => 6

/-- A slot's 16 bytes (R451). -/
def FwSlot.bytes (s : FwSlot) (trials : Nat) : List Byte :=
  le 1 s.st.num ++ le 1 (if s.st == .trial then trials else 0) ++ le 2 s.written ++ le 4 s.ver ++ le 4 s.svn
    ++ le 2 (if s.st == .empty then 0 else s.image.nblocks) ++ le 2 s.nextBlock

/-- UPD_STATUS's payload: every present die holds what every command gave all of them (R461; DEDUCED, log entry 46). -/
def Die.updStatus (d : Die) : List Byte :=
  d.presentDies.flatMap (fun g => le 4 g ++ d.fw.a.bytes d.fw.act.trials ++ d.fw.b.bytes d.fw.act.trials)

/-! ## The NVMe path (R449, R458) -/

/-- Whether the bytes from a to b have all come. -/
def covered (got : List (Nat × Nat)) (a b : Nat) : Bool :=
  (List.range ((b - a) / 4096)).all (fun i => got.any (fun g => decide (g.1 ≤ a + 4096 * i) && decide (a + 4096 * i + 4096 ≤ g.1 + g.2)))

/-- FIRMWARE_IMAGE_DOWNLOAD's checks (R449, R453); dword 10 holds dwords minus 1, dword 11 the offset in dwords (log entry 10). -/
def Die.downloadRefused (d : Die) (off n : Nat) (last : Bool) : Option Status :=
  let i := match d.fw.session with | some s => s.1 | none => d.fw.target 0
  let kanex := match d.fw.session with | some s => !s.2 | none => false
  if d.updateLock = true ∨ d.lowEnergy = true then some stFwProhibited
  else if kanex = true ∨ (d.fw.slot i).inUse = true then some stFwSlot
  else if off % 4096 ≠ 0 ∨ (n % 4096 ≠ 0 ∧ last = false) ∨ 768 * 65536 < off + n then some stInvalidField
  else if d.fw.session.isSome ∧ d.fw.got.any (fun g => decide (g.1 < off + n) && decide (off < g.1 + g.2)) then some stOverlap
  else none

/-- FIRMWARE_IMAGE_DOWNLOAD: a block whose bytes are complete is checked and written; one with a bad CRC is not, its bytes may come
again, and the command ends with Invalid Firmware Image (log entry 47). -/
def Die.download (d : Die) (t : Nat) (last : Bool) (h : List Byte) (bad : List Nat) : Die := d.admin t 0x11 fun _ e =>
  let off := 4 * e.cdw11.toNat
  let n := 4 * (e.cdw10.toNat + 1)
  match d.downloadRefused off n last with
  | some st => d.finish t st
  | none =>
    let f := if d.fw.session.isSome then d.fw else d.fw.openSession (d.fw.target 0) none 600
    let i := match f.session with | some s => s.1 | none => 0
    let got := (off, n) :: f.got
    let whole := (List.range 768).filter (fun b => covered got (65536 * b) (65536 * b + 65536) && !covered f.got (65536 * b) (65536 * b + 65536))
    let good := whole.filter (fun b => !bad.contains b)
    let lost := whole.filter (fun b => bad.contains b)
    let keep := got.filter (fun g => !lost.any (fun b => decide (g.1 < 65536 * b + 65536) && decide (65536 * b < g.1 + g.2)))
    let s := if good.contains 0 then { f.slot i with hdr := some h } else f.slot i
    let f := { f.setSlot i (good.foldl (fun (s : FwSlot) b => s.put b) s) with got := keep }
    (({ d with fw := f } : Die).toWorkers 0x0902 none).finish t (if lost.isEmpty then stOk else stFwImage)

/-- The slot a Firmware Commit acts on: the downloaded one, for action 0b010 the one FS names (R458). -/
def Die.commitSlot (d : Die) (e : SqEntry) : Except Status Nat :=
  let fs := bitsOf e.cdw10 0 3
  if 2 < fs then .error stFwSlot
  else if bitsOf e.cdw10 3 3 = 2 then .ok (d.fw.target fs)
  else match d.fw.session with
    | some (i, true) => if fs ≠ 0 ∧ fs - 1 ≠ i then .error stFwSlot else .ok i
    | some (_, false) => .error stFwSlot
    | none => .error stFwImage

/-- A Firmware Commit of an action: the refusals of R453, the verification, then what the action does; an action R60 does not
list is an Invalid Field. -/
def Die.commit (d : Die) (t ca : Nat) (v : VerifyFacts) (act : Die → Nat → Die) : Die := d.admin t 0x10 fun _ e =>
  if bitsOf e.cdw10 3 3 ≠ ca then (if 4 ≤ bitsOf e.cdw10 3 3 then d.finish t stInvalidField else d)
  else if d.updateLock = true ∨ (ca ≠ 0 ∧ (d.lowEnergy = true ∨ d.activationMoving = true ∨ d.fw.onTrial = true)) then d.finish t stFwProhibited
  else match d.commitSlot e with
    | .error st => d.finish t st
    | .ok i =>
      if (d.fw.slot i).inUse then d.finish t stFwSlot
      else
        let r := d.fw.verify i v
        let x := ({ d with fw := { r.1 with window := if ca = 0 then r.1.window else 600 } } : Die).toWorkers 0x0903 none
        if r.2 = kOk then act x i else x.finish t stFwImage

/-- CA 0b000: the image stays COMPLETE and the session ends. -/
def Die.commitVerify (d : Die) (t : Nat) (v : VerifyFacts) : Die := d.commit t 0 v fun x i =>
  ({ x with fw := { x.fw.setSlot i { x.fw.slot i with st := .complete } with session := none } } : Die).finish t stOk

/-- CA 0b001 and 0b010: the slot runs at the next start. -/
def Die.commitNext (d : Die) (t ca : Nat) (v : VerifyFacts) : Die := d.commit t ca v fun x i =>
  ((x.pending i 1).toWorkers 0x0904 none).finish t stOk

/-- CA 0b011: live, or for the next start where the image may not be switched live (R453). -/
def Die.commitLive (d : Die) (t : Nat) (v : VerifyFacts) (dieFails : Bool) : Die := d.commit t 3 v fun x i =>
  if x.liveAllowed i = false then ((x.pending i 1).toWorkers 0x0904 none).finish t stFwConvReset
  else if dieFails then x.activateLive i (some t) none true
  else (x.activateLive i (some t) none false).finish t stOk

/-! ## The meanings -/

/-- UPD_BEGIN (R447, R453). -/
def execUpdBegin (q : KReq) (hdr : List Byte) (s : State) : Host.Outcome State Fault Refusal :=
  let q := q.withHeader hdr
  s.run (·.kanex q { op := 0x0901, need := 264, used := [(0, 1), (2, 4), (8, 256)], bad := fun _ => updBeginBad q, body := fun d => d.updBegin q })
/-- UPD_BLOCK (R448, R453). -/
def execUpdBlock (q : KReq) (crcOk : Option (List Bool)) (s : State) : Host.Outcome State Fault Refusal :=
  s.run (·.kanex q { op := 0x0902, need := 5, used := [(0, 5)], bad := fun d => d.updBlockBad q, body := fun d => d.blocksIn q crcOk })
/-- UPD_VERIFY (R452). -/
def execUpdVerify (q : KReq) (v : VerifyFacts) (s : State) : Host.Outcome State Fault Refusal :=
  s.run (·.kanex q { op := 0x0903, need := 1, used := [(0, 1)], bad := fun _ => if q.get 0 1 < 1 ∨ 2 < q.get 0 1 then some 0 else none
                     body := fun d => d.updVerify q v })
/-- UPD_ACTIVATE (R453, R457, R459). -/
def execUpdActivate (q : KReq) (dieFails : Bool) (e : BootEnv) (s : State) : Host.Outcome State Fault Refusal :=
  s.run (·.kanex q { op := 0x0904, need := 2, used := [(0, 2)]
                     bad := fun _ => if 2 < q.get 0 1 then some 0 else if 2 < q.get 1 1 then some 1 else none
                     body := fun d => d.updActivate q dieFails e })
/-- ACTIVATION_HOLD_EXPIRY (R460): the hold has lasted 100 ms; step 7 is the one not reached in time. -/
def execActivationHoldExpiry (s : State) : Host.Outcome State Fault Refusal :=
  s.run (fun d => if d.fw.live = true ∧ d.fw.holdAt + 100000 ≤ d.now then (d.activationFails 7).ladderTake 9 noInst 12 1 false else d)
/-- UPD_CONFIRM (R464). -/
def execUpdConfirm (q : KReq) (s : State) : Host.Outcome State Fault Refusal := s.run (·.kanex q { op := 0x0905, body := fun d => d.updConfirm q })
/-- CONFIRMATION_WINDOW_END (R464). -/
def execConfirmationWindowEnd (s : State) : Host.Outcome State Fault Refusal := s.run (·.windowEnds)
/-- UPD_STATUS (R450, R451). -/
def execUpdStatus (q : KReq) (s : State) : Host.Outcome State Fault Refusal := s.run (·.kanex q { op := 0x0906, body := fun d => .ok d d.updStatus })
/-- UPD_DISCARD (R465). -/
def execUpdDiscard (q : KReq) (s : State) : Host.Outcome State Fault Refusal :=
  s.run (·.kanex q { op := 0x0907, need := 1, used := [(0, 1)], bad := fun _ => if q.get 0 1 < 1 ∨ 2 < q.get 0 1 then some 0 else none
                     body := fun d => d.updDiscard q })
/-- FIRMWARE_IMAGE_DOWNLOAD (R449, R453): hdr is the header the image carries, badBlocks the blocks whose CRC is bad. -/
def execFirmwareImageDownload (tag : Nat) (last : Bool) (hdr : List Byte) (badBlocks : List Nat) (s : State) : Host.Outcome State Fault Refusal :=
  s.run (·.download tag last hdr badBlocks)
/-- FIRMWARE_COMMIT_VERIFY (R458). -/
def execFirmwareCommitVerify (tag : Nat) (v : VerifyFacts) (s : State) : Host.Outcome State Fault Refusal := s.run (·.commitVerify tag v)
/-- FIRMWARE_COMMIT_NEXT_START (R458). -/
def execFirmwareCommitNextStart (tag : Nat) (v : VerifyFacts) (s : State) : Host.Outcome State Fault Refusal := s.run (·.commitNext tag 1 v)
/-- FIRMWARE_COMMIT_SLOT (R458). -/
def execFirmwareCommitSlot (tag : Nat) (v : VerifyFacts) (s : State) : Host.Outcome State Fault Refusal := s.run (·.commitNext tag 2 v)
/-- FIRMWARE_COMMIT_LIVE (R458, R459). -/
def execFirmwareCommitLive (tag : Nat) (v : VerifyFacts) (dieFails : Bool) (s : State) : Host.Outcome State Fault Refusal :=
  s.run (·.commitLive tag v dieFails)

end Sys2Proof.Machine
end

