-- ==== Sys2Proof/Machine/Tenants.lean ====
section
/-! DEFINITION. The Kanex groups of identity and policy (R384, R385), tenants (R293 to R305), namespaces (R124, R126, R145, R153)
and service profiles with the histograms (R287, R288, R291). -/

namespace Sys2Proof.Machine

/-! ## Identity and policy -/

/-- IDENTIFY's 64 bytes (R384, R551). -/
def Die.identifyBytes (d : Die) : List Byte :=
  let v := d.fw.runVer
  padTo 64 (le 2 3 ++ le 2 0xB0 ++ le 1 (v / 2 ^ 24) ++ le 1 (v / 2 ^ 16) ++ le 2 v ++ le 8 Config.dsn.toNat ++ le 1 (bit (!d.life.manager))
    ++ le 1 d.life.quayId ++ le 1 d.anaGroup ++ le 1 (bit d.life.partPW))

/-- The opcodes a mailbox may use (R384): the PF all of them, a VF those that are not the owner's alone. -/
def catalogueOf (fn : Nat) : List CatRow := catalogue.filter (fun r => fn == 0 || r.2.1 != 0)

/-- An item of CATALOGUE_GET (R384). -/
def catItem (r : CatRow) : List Byte := le 2 r.1 ++ le 1 r.2.1 ++ le 1 r.2.2 ++ le 1 (kScope r.1) ++ le 3 0

/-- CATALOGUE_GET's own part. -/
def Die.catalogueGet (d : Die) (q : KReq) : KAns :=
  .paged d (catalogueOf q.fn).length 8 (fun i => (((catalogueOf q.fn)[i]?).map catItem).getD [])

/-- POLICY_SET's own part (R385): a lock that is set takes effect at once; one that is cleared stays until the next cold reset. The policy
applies to every die of the hierarchy. -/
def Die.policySet (d : Die) (q : KReq) : KAns :=
  let w := BitVec.ofNat 32 (q.get 0 4)
  let d : Die := { d with mc := { d.mc with policy := w, policyForce := d.mc.policyForce ||| w } }
  .all (d.servingWorkers.foldl (fun (x : Die) p => x.kanexForward (p + 2) 0x0104 (some q)) d) []

/-! ## Tenant records (R295, R296) -/

/-- Number of a function state (R295). -/
def FState.num : FState → Nat
  | .off => 0
  | .enabling => 1
  | .ready => 2
  | .teardown => 3
  | .fenced => 4

/-- A tenant's record, 64 bytes (R295). -/
def Die.tenantRecord (d : Die) (n : Nat) : List Byte :=
  let t := d.tenant n
  padTo 64 (le 2 n ++ le 1 (d.fn n).st.num ++ le 1 t.cls ++ le 2 t.share ++ le 2 t.resmin ++ le 8 (d.quota n) ++ le 8 (d.capUsed n)
    ++ le 4 t.rd ++ le 4 t.wr ++ le 4 t.kiops ++ le 1 t.burst ++ le 1 0 ++ le 2 t.tagCeil ++ le 4 t.qpairs ++ le 2 t.vectors ++ le 2 0
    ++ le 2 t.wLast ++ le 2 0 ++ le 4 t.held)

/-- The bytes of a record at a payload offset that are not RSV (R295). -/
def recordUsed (b : Nat) : List (Nat × Nat) := [(b, 37), (b + 38, 8), (b + 48, 2), (b + 52, 4)]

/-- Whether a change mask selects the field that begins at an even byte (R295). -/
def selects (mask i : Nat) : Bool := mask.testBit i

/-- The first selected field out of its range, by its payload offset (R296). -/
def recordBad (q : KReq) (b mask : Nat) : Option Nat :=
  if selects mask 1 ∧ 3 < q.get (b + 3) 1 then some (b + 3)
  else if selects mask 2 ∧ (q.get (b + 4) 2 < 1 ∨ 4095 < q.get (b + 4) 2) then some (b + 4)
  else if selects mask 3 ∧ 9000 < q.get (b + 6) 2 then some (b + 6)
  else if selects mask 4 ∧ q.get (b + 8) 8 % Config.gib ≠ 0 then some (b + 8)
  else if selects mask 18 ∧ (q.get (b + 36) 1 < 1 ∨ 64 < q.get (b + 36) 1) then some (b + 36)
  else if selects mask 19 ∧ (q.get (b + 38) 2 < 64 ∨ 65280 < q.get (b + 38) 2) then some (b + 38)
  else if selects mask 20 ∧ 32511 < q.get (b + 40) 4 then some (b + 40)
  else if selects mask 22 ∧ (q.get (b + 44) 2 < 1 ∨ 2048 < q.get (b + 44) 2) then some (b + 44)
  else none

/-- The selected fields of a record taken over. -/
def Tenant.withRecord (t : Tenant) (q : KReq) (b mask n : Nat) : Tenant :=
  let pick := fun (i v old : Nat) => if selects mask i then v else old
  { t with
    cls := pick 1 (q.get (b + 3) 1) t.cls, share := pick 2 (q.get (b + 4) 2) t.share, resmin := pick 3 (q.get (b + 6) 2) t.resmin
    quota := pick 4 (q.get (b + 8) 8) t.quota, quotaSet := t.quotaSet || (n == 0 && selects mask 4)
    rd := pick 12 (q.get (b + 24) 4) t.rd, wr := pick 14 (q.get (b + 28) 4) t.wr, kiops := pick 16 (q.get (b + 32) 4) t.kiops
    burst := pick 18 (q.get (b + 36) 1) t.burst, tagCeil := pick 19 (q.get (b + 38) 2) t.tagCeil
    qpairs := pick 20 (q.get (b + 40) 4) t.qpairs, vectors := pick 22 (q.get (b + 44) 2) t.vectors }

/-- What every function but one holds of a pool (R51): the ones never touched hold the default. -/
def Die.poolOthers (d : Die) (n dflt : Nat) (f : Tenant → Nat) : Nat :=
  sumBy (fun (e : Nat × Tenant) => if e.1 = n then 0 else f e.2) d.tenants
    + dflt * ((List.range Config.functions).filter (fun i => i != n && !Tbl.has d.tenants i)).length

/-- Sum of RESMIN over all tenants but one. -/
def Die.resminOthers (d : Die) (n : Nat) : Nat := sumBy (fun (e : Nat × Tenant) => if e.1 = n ∨ e.2.alive = false then 0 else e.2.resmin) d.tenants

/-- R296: why a record is refused for a tenant, if it is. -/
def Die.recordRefused (d : Die) (n : Nat) (old new : Tenant) : Option Nat :=
  let moved := new.qpairs != old.qpairs || new.vectors != old.vectors
  if moved ∧ ((d.fn n).cc.getLsbD 0 ∨ (d.fn n).msixEn) then some kStateConflict
  else if 9000 < d.resminOthers n + new.resmin then some kExhausted
  else if moved ∧ (Config.ioPairs < d.poolOthers n 31 (fun t => t.qpairs) + new.qpairs
      ∨ Config.vectors < d.poolOthers n 32 (fun t => t.vectors) + new.vectors) then some kExhausted
  else none

/-- TENANT_CHANGE (R478, R550). -/
def Die.tenantChange (d : Die) (n field old new : Nat) : Die :=
  d.record 0x0C05 sevNotice n (le 2 n ++ le 1 field ++ le 8 old ++ le 8 new ++ le 8 (d.capUsed n))

/-- A key loaded into a slot (R320): its epoch goes up, its next counter is 0, its blob stands on three berths (R322). -/
def Die.loadKey (d : Die) (k : Nat) (key : BitVec 256) (st : KState) : Die :=
  d.updSlot k (fun s => { s with st := st, before := st, epoch := s.epoch + 1, next := 0, durable := 0, asking := false, key := key, blob := d.mirrors, exact := none })

/-- A KEY message to every worker that serves (R323). -/
def Die.keyToAll (d : Die) (m : QuayKeyMsg) : Die := d.servingWorkers.foldl (fun (x : Die) p => x.quayKeySend p m) d

/-- A slot's key and state as a KEY message tells them (R323); of a locked slot the state before it was locked. -/
def Die.slotMsg (d : Die) (fn : Option Nat) (k : Nat) : QuayKeyMsg :=
  let s := d.slot k
  { fn := fn, index := k, what := .slot s.key (match s.before with | .write => 1 | .read => 2 | _ => 0) }

/-- A key command's effect on a slot passed to every worker that serves (R323); fn: the mailbox that waits for them. -/
def Die.keyOut (d : Die) (fn : Option Nat) (k : Nat) : Die := d.keyToAll (d.slotMsg fn k)

/-- A key drawn and loaded into a slot (R319); the key is a free value. -/
def Die.newKey (d : Die) (fn : Option Nat) (k : Nat) (st : KState) : Die := ((d.loadKey k (BitVec.ofNat 256 d.freeVal) st).drawn).keyOut fn k

/-- A key destroyed (R319, R326): the slot keeps its epoch only. -/
def Die.dropKey (d : Die) (fn : Option Nat) (k : Nat) : Die :=
  (d.updSlot k (fun s => { epoch := s.epoch })).keyOut fn k

/-- A tenant's record told to every worker that serves (R293). -/
def Die.tenantOut (d : Die) (n : Nat) : Die :=
  d.servingWorkers.foldl (fun (x : Die) p => x.quayMgmtSend p (.tenant n (d.tenant n).alive (d.tenantRecord n))) d

/-- Whether a slot's epoch has room for a load (R320). -/
def Die.epochLeft (d : Die) (k : Nat) : Bool := decide ((d.slot k).epoch < 0xFFFFFFFF)

/-- TENANT_CREATE's own part (R297, R319). -/
def Die.tenantCreate (d : Die) (q : KReq) : KAns :=
  let n := kTenant q
  let old := d.tenant n
  let base : Tenant := { qpairs := old.qpairs, vectors := old.vectors }
  let new := if q.len = 0 then base else base.withRecord q 0 0xFFFFFFFF n
  if Config.functions ≤ n then .no d kNotPresent
  else if old.alive = true then .no d kStateConflict
  else match d.recordRefused n old new with
    | some st => .no d st
    | none =>
      if d.epochLeft (2 * n) = false then .no d kExhausted
      else
        let t : Tenant := { new with alive := true, crRd := new.burst * new.rd * 1000, crWr := new.burst * new.wr * 1000, crCmd := new.burst * new.kiops,
                                     force := { cls := new.cls, share := new.share, resmin := new.resmin, rd := new.rd, wr := new.wr, kiops := new.kiops, burst := new.burst } }
        .ok (((d.updTenant n (fun _ => t)).tenantOut n).newKey none (2 * n) .write) []

/-- TENANT_SET's own part (R295, R296, R299). -/
def Die.tenantSet (d : Die) (q : KReq) : KAns :=
  let n := kTenant q
  let mask := q.get 0 4
  let old := d.tenant n
  let new := old.withRecord q 4 mask n
  match d.recordRefused n old new with
  | some st => .no d st
  | none =>
    let was := d.quota n
    let d := d.updTenant n (fun _ => new)
    .ok ((if selects mask 4 ∧ d.quota n < d.capUsed n then d.tenantChange n 8 was (d.quota n) else d).tenantOut n) []

/-- TENANT_LIST's item (R387). -/
def Die.tenantList (d : Die) : List Byte :=
  let live := d.tenants.filter (fun (e : Nat × Tenant) => e.2.alive)
  let bits := (List.range 256).map (fun i => BitVec.ofNat 8 ((List.range 8).foldl (fun a b => if (d.tenant (8 * i + b)).alive then a + 2 ^ b else a) 0))
  bits ++ le 4 (sumBy (fun e => e.2.share) live) ++ le 4 (sumBy (fun e => e.2.resmin) live) ++ le 8 (sumBy (fun e => d.quota e.1) live)

/-- The namespaces of a tenant. -/
def Die.nsOfTenant (d : Die) (t : Nat) : List Nat := (d.nss.filter (fun (e : Nat × Ns) => e.2.alive && e.2.owner == t)).map (fun e => e.1)

/-- The namespaces of a tenant deleted one after the other (R305 step 1), up to one that commands in flight hold; that one takes no
new commands. -/
def Die.deleteAll (d : Die) (fn : Nat) : List Nat → Die
  | [] => d
  | n :: r =>
    if d.nsInFlight n none then d.updNs n (fun x => { x with busy := true })
    else ((d.nsRemove n).kanexProgress fn ((d.fn fn).mbx.progress + 1)).deleteAll fn r

/-- Steps 2 to 4 of TENANT_DELETE (R305): the keys destroyed, the histograms and the record cleared, the record written. -/
def Die.tenantGone (d : Die) (t used : Nat) : Die :=
  let d := (d.dropKey none (2 * t)).dropKey none (2 * t + 1)
  let d : Die := { d with sch := { d.sch with hists := (List.range' (16 * t) 16).foldl (fun h k => Tbl.set h k { since := d.opsec }) d.sch.hists } }
  let d := (d.updTenant t (fun x => { qpairs := x.qpairs, vectors := x.vectors })).tenantOut t
  d.record 0x0C05 sevNotice t (le 2 t ++ le 1 0xFF ++ le 8 used ++ le 8 0 ++ le 8 (d.capUsed t))

/-- A Long command that runs on a function's mailbox ended with ABANDONED (R377, R388). -/
def Die.abandonLong (d : Die) (fn : Nat) : Die :=
  let m := (d.fn fn).mbx
  if m.st = .running ∧ kClass m.opcode = 2 then (d.stopLong fn).kanexEnd fn kAbandoned 0 [] else d

/-- TENANT_DELETE's own part (R305, R388). -/
def Die.tenantDelete (d : Die) (q : KReq) : KAns :=
  let t := kTenant q
  if t = 0 then .denied d q 0x0202
  else if (d.fn t).st ≠ .off then .no d kStateConflict
  else
    let d := d.abandonLong t
    let ids := d.nsOfTenant t
    let used := d.capUsed t
    let d := if (d.fn q.fn).mbx.progTotal = 0 then d.updMbx q.fn (fun m => { m with progTotal := ids.length }) else d
    let d := d.deleteAll q.fn ids
    if (d.nsOfTenant t).isEmpty then .ok (d.tenantGone t used) [] else .wait d

/-! ## Sharing (R124) and namespaces (R126, R145, R153) -/

/-- NS_SHARE and NS_UNSHARE name a namespace and a function with a tenant (R124). -/
def Die.shareNames (d : Die) (q : KReq) : Bool := (d.ns (q.get 0 4)).alive && (d.tenant (q.get 4 2)).alive && decide (q.get 4 2 < Config.functions)

/-- NS_SHARE's own part. -/
def Die.nsShare (d : Die) (q : KReq) : KAns :=
  if d.shareNames q = false then .no d kNotPresent
  else if (d.ns (q.get 0 4)).attached.contains (q.get 4 2) then .no d kStateConflict
  else .ok (d.attach (q.get 0 4) (q.get 4 2)) []

/-- NS_UNSHARE's own part: commands in flight from that function to the namespace complete first (R297). -/
def Die.nsUnshare (d : Die) (q : KReq) : KAns :=
  if d.shareNames q = false then .no d kNotPresent
  else if (d.ns (q.get 0 4)).attached.contains (q.get 4 2) = false then .no d kStateConflict
  else if d.nsInFlight (q.get 0 4) (some (q.get 4 2)) then .wait d
  else .ok (d.detach (q.get 0 4) (q.get 4 2)) []

/-- The creation parameters in an NS_CREATE payload (R387). -/
def nsCreateOf (q : KReq) : NsCreate :=
  { csi := q.get 0 1, flbas := q.get 1 1, nsze := q.get 8 8, ncap := q.get 8 8
    params := (List.range 64).map (fun i => BitVec.ofNat 8 (q.get (16 + i) 1))
    phndls := (List.range (q.get 80 2)).map (fun i => q.get (82 + 2 * i) 2) }

/-- The payload offset of NS_CREATE's first wrong field: a refusal for format or field (R126), or a list cut short. -/
def Die.nsCreateBad (d : Die) (q : KReq) : Option Nat :=
  if 82 ≤ q.len ∧ q.len < 82 + 2 * q.get 80 2 then some q.len
  else match d.nsRefused (kTenant q) (nsCreateOf q) with
    | some r => if r.1 = stInvalidFormat ∨ r.1 = stInvalidField then some r.2 else none
    | none => none

/-- NS_CREATE's own part: the namespace is attached to the owning tenant's function (R124). -/
def Die.nsCreate (d : Die) (q : KReq) : KAns :=
  let t := kTenant q
  match d.nsRefused t (nsCreateOf q) with
  | some r =>
    if r.1 = stAnaInaccessible then
      .no d (match d.ana (d.nsOf t (nsCreateOf q)).home with | .change => kRefusedMoving | _ => kNotPresent)
    else .no d kExhausted
  | none =>
    let m := d.nsMake t (nsCreateOf q)
    .ok (m.2.attach m.1 t) (le 4 m.1)

/-- NS_DELETE's own part (R153). -/
def Die.nsDelete (d : Die) (q : KReq) : KAns :=
  let n := q.get 0 4
  if (d.ns n).alive = false then .no d kNotPresent
  else match d.anaRefuses n with
    | some st => .no d (if st = stAnaTransition then kRefusedMoving else kNotPresent)
    | none =>
      let gib := (d.ns n).allocated * 4096 / Config.gib
      let d := if (d.fn q.fn).mbx.progTotal = 0 then d.updMbx q.fn (fun m => { m with progTotal := gib }) else d
      if d.nsInFlight n none then .wait (d.updNs n (fun x => { x with busy := true }))
      else .ok ((d.nsRemove n).kanexProgress q.fn gib) []

/-- NS_LIST's item (R387). -/
def Die.nsItem (d : Die) (nsid : Nat) : List Byte :=
  let n := d.ns nsid
  le 4 nsid ++ le 2 n.owner ++ le 1 (match n.kind with | .zoned => 0 | .conventional => 1 | .forerunner => 2) ++ le 1 n.home ++ le 8 n.nsze
    ++ le 8 (n.allocated * n.lbasPerSector) ++ le 1 (if n.isZoned then n.zszl else 0) ++ le 7 0

/-- NS_LIST's own part: the namespaces in ascending NSID order. -/
def Die.nsListAll (d : Die) : KAns :=
  let ids := (d.nss.filter (fun (e : Nat × Ns) => e.2.alive)).map (fun e => e.1)
  .paged d ids.length 32 (fun i => ((ids[i]?).map d.nsItem).getD [])

/-- Commands to a zone fetched before an order that have not reached POSTING (R145). -/
def Die.zoneEarlier (d : Die) (nsid z order : Nat) : Bool :=
  let n := d.ns nsid
  d.qe.tags.any (fun (u : Nat × Tag) => u.2.live && decide (u.2.order < order) && u.2.sq != 0 && match u.2.entry with
    | some x => x.ns == nsid && targetsZone x.opc && (match n.zoneNamed x with | some y => y == z | none => true)
    | none => false)

/-- ZONE_SET_RO's first wrong field: a namespace without zones (log entry 136), or an LBA that starts no zone. -/
def Die.zoneRoBad (d : Die) (q : KReq) : Option Nat :=
  let n := d.ns (q.get 0 4)
  if n.alive = false then none
  else if n.isZoned = false then some 0
  else if q.get 8 8 % n.zoneLbas ≠ 0 then some 8 else none

/-- A namespace command passed to the worker that is the namespace's home (R376), unless its ANA state refuses it. -/
def Die.homeRuns (d : Die) (nsid op : Nat) (q : KReq) : KAns :=
  match d.anaRefuses nsid with
  | some st => .no d (if st = stAnaTransition then kRefusedMoving else kNotPresent)
  | none => .go (d.kanexForward (d.ns nsid).home op (some q)) 0

/-- ZONE_SET_RO's own part (R145): it waits for the commands to the zone fetched before it; of a zone homed on a worker the manager waits
for its own to reach POSTING before it passes the command on (R376). -/
def Die.zoneSetRo (d : Die) (q : KReq) : KAns :=
  let nsid := q.get 0 4
  let n := d.ns nsid
  let z := n.zoneOf (q.get 8 8)
  let o := (n.zone z).roWait.getD d.qe.order
  if n.alive = false ∨ n.zoneCount ≤ z then .no d kNotPresent
  else if n.home ≠ d.anaGroup then
    if d.zoneEarlier nsid z o then .wait (d.updZone nsid z (fun y => { y with roWait := some o }))
    else (d.updZone nsid z (fun y => { y with roWait := none })).homeRuns nsid 0x0304 q
  else if (n.zone z).st = .zso then .no d kStateConflict
  else
    if d.zoneEarlier nsid z o then .wait (d.updZone nsid z (fun y => { y with roWait := some o }))
    else
      let d := d.settleHeel nsid z
      let d := d.updZone nsid z (fun y => { y with st := .zsro, roWait := none })
      .ok (d.zoneChanged nsid z).progress []

/-! ## Profile and histograms (R287, R288, R291) -/

/-- The histograms a request selects: functions, kinds, classes (R387). -/
def histSel (q : KReq) : List Nat × List Nat × List Nat :=
  (if q.get 0 2 = 0xFFFF then (if q.fn = 0 then List.range Config.functions else [q.fn]) else [q.get 0 2],
   if q.get 2 1 = 0xFF then List.range 4 else [q.get 2 1], if q.get 3 1 = 0xFF then List.range 4 else [q.get 3 1])

/-- The i-th histogram selected: function, kind, class. -/
def histAt (s : List Nat × List Nat × List Nat) (i : Nat) : Nat × Nat × Nat :=
  let per := s.2.1.length * s.2.2.length
  (((s.1)[i / per]?).getD 0, ((s.2.1)[i % per / s.2.2.length]?).getD 0, ((s.2.2)[i % s.2.2.length]?).getD 0)

/-- A histogram's 576 bytes (R291). -/
def Die.histRecord (d : Die) (h : Nat × Nat × Nat) : List Byte :=
  let x : Hist := Tbl.get { since := d.sch.histFrom } d.sch.hists (histKey h.1 h.2.1 h.2.2)
  le 2 h.1 ++ le 1 h.2.1 ++ le 1 h.2.2 ++ le 6 x.since ++ le 2 0 ++ le 8 x.samples ++ le 8 x.sum ++ le 4 x.max ++ le 4 x.missed ++ le 4 x.suspends
    ++ le 4 x.recons ++ le 4 0 ++ le 8 0 ++ le 8 x.held ++ (List.range 64).flatMap (fun b => le 8 (Tbl.get 0 x.bins b))

/-- HISTOGRAM_READ's own part (R291): read-and-clear zeroes the histograms returned in the same step. -/
def Die.histogramRead (d : Die) (q : KReq) : KAns :=
  let s := histSel q
  let total := s.1.length * s.2.1.length * s.2.2.length
  if q.fn ≠ 0 ∧ q.get 0 2 ≠ 0xFFFF ∧ q.get 0 2 ≠ q.fn then .denied d q 0x0504
  else
    let keys := (pageItems total 576 q.roffset).map (fun i => let h := histAt s i; histKey h.1 h.2.1 h.2.2)
    let d' : Die := if q.get 4 1 = 1 then
        { d with sch := { d.sch with hists := keys.foldl (fun (t : Tbl Hist) k => Tbl.set t k { since := d.opsec }) d.sch.hists } }
      else d
    .paged d' total 576 (fun i => d.histRecord (histAt s i))

/-- HISTOGRAM_READ's first wrong field. -/
def histBad (q : KReq) : Option Nat :=
  if 2048 ≤ q.get 0 2 ∧ q.get 0 2 ≠ 0xFFFF then some 0
  else if 4 ≤ q.get 2 1 ∧ q.get 2 1 ≠ 0xFF then some 2
  else if 4 ≤ q.get 3 1 ∧ q.get 3 1 ≠ 0xFF then some 3
  else if 2 ≤ q.get 4 1 then some 4 else none

/-! ## The meanings -/

/-- IDENTIFY (R384). -/
def execIdentify (q : KReq) (s : State) : Host.Outcome State Fault Refusal :=
  s.run (·.kanex q { op := 0x0101, body := fun d => .ok d d.identifyBytes })
/-- CATALOGUE_GET (R384). -/
def execCatalogueGet (q : KReq) (s : State) : Host.Outcome State Fault Refusal :=
  s.run (·.kanex q { op := 0x0102, body := fun d => d.catalogueGet q })
/-- POLICY_GET (R385). -/
def execPolicyGet (q : KReq) (s : State) : Host.Outcome State Fault Refusal :=
  s.run (·.kanex q { op := 0x0103, body := fun d => .ok d (le 4 d.mc.policy.toNat) })
/-- POLICY_SET (R385). -/
def execPolicySet (q : KReq) (s : State) : Host.Outcome State Fault Refusal :=
  s.run (·.kanex q { op := 0x0104, need := 4, used := [(0, 4)], bad := fun _ => if 8 ≤ q.get 0 4 then some 0 else none, body := fun d => d.policySet q })
/-- TENANT_CREATE (R297). -/
def execTenantCreate (q : KReq) (s : State) : Host.Outcome State Fault Refusal :=
  s.run (·.kanex q { op := 0x0201, used := recordUsed 0,
                     bad := fun _ => if q.len = 0 then none else minOffset (if q.len < 64 then some q.len else none) (recordBad q 0 0xFFFFFFFF),
                     body := fun d => d.tenantCreate q })
/-- TENANT_DELETE (R305). -/
def execTenantDelete (q : KReq) (s : State) : Host.Outcome State Fault Refusal :=
  s.run (·.kanex q { op := 0x0202, acts := true, body := fun d => d.tenantDelete q })
/-- TENANT_SET (R295, R296). -/
def execTenantSet (q : KReq) (s : State) : Host.Outcome State Fault Refusal :=
  s.run (·.kanex q { op := 0x0203, need := 68, used := (0, 4) :: recordUsed 4, acts := true,
                     bad := fun _ => recordBad q 4 (q.get 0 4), body := fun d => d.tenantSet q })
/-- TENANT_GET (R295). -/
def execTenantGet (q : KReq) (s : State) : Host.Outcome State Fault Refusal :=
  s.run (·.kanex q { op := 0x0204, acts := true, body := fun d => .ok d (d.tenantRecord (kTenant q)) })
/-- TENANT_LIST (R387). -/
def execTenantList (q : KReq) (s : State) : Host.Outcome State Fault Refusal :=
  s.run (·.kanex q { op := 0x0205, body := fun d => .paged d 1 272 (fun _ => d.tenantList) })
/-- NS_SHARE (R124). -/
def execNsShare (q : KReq) (s : State) : Host.Outcome State Fault Refusal :=
  s.run (·.kanex q { op := 0x0206, need := 6, used := [(0, 6)], body := fun d => d.nsShare q })
/-- NS_UNSHARE (R124). -/
def execNsUnshare (q : KReq) (s : State) : Host.Outcome State Fault Refusal :=
  s.run (·.kanex q { op := 0x0207, need := 6, used := [(0, 6)], body := fun d => d.nsUnshare q })
/-- NS_CREATE (R124, R126). -/
def execNsCreate (q : KReq) (s : State) : Host.Outcome State Fault Refusal :=
  s.run (·.kanex q { op := 0x0301, need := 82, used := [(0, 2), (8, 74 + 2 * q.get 80 2)], acts := true, bad := fun d => d.nsCreateBad q,
                     body := fun d => d.nsCreate q })
/-- NS_DELETE (R153). -/
def execNsDelete (q : KReq) (s : State) : Host.Outcome State Fault Refusal :=
  s.run (·.kanex q { op := opNsDelete, need := 4, used := [(0, 4)], body := fun d => d.nsDelete q })
/-- NS_LIST (R387). -/
def execNsList (q : KReq) (s : State) : Host.Outcome State Fault Refusal :=
  s.run (·.kanex q { op := 0x0303, body := fun d => d.nsListAll })
/-- ZONE_SET_RO (R145). -/
def execZoneSetRo (q : KReq) (s : State) : Host.Outcome State Fault Refusal :=
  s.run (·.kanex q { op := 0x0304, need := 16, used := [(0, 4), (8, 8)],
                     bad := fun d => d.zoneRoBad q,
                     body := fun d => d.zoneSetRo q })
/-- PROFILE_GET (R387). -/
def execProfileGet (q : KReq) (s : State) : Host.Outcome State Fault Refusal :=
  s.run (·.kanex q { op := 0x0501, body := fun d => .ok d (le 1 d.sch.profile ++ le 1 0 ++ le 2 d.sch.leanCap) })
/-- PROFILE_SET (R288). -/
def execProfileSet (q : KReq) (s : State) : Host.Outcome State Fault Refusal :=
  s.run (·.kanex q { op := 0x0502, need := 1, used := [(0, 1)], bad := fun _ => if 3 < q.get 0 1 then some 0 else none,
                     body := fun d => .ok { d with sch := { d.sch with profileNext := q.get 0 1 } } [] })
/-- POWER_CAP_SET (R287). -/
def execPowerCapSet (q : KReq) (s : State) : Host.Outcome State Fault Refusal :=
  s.run (·.kanex q { op := 0x0503, need := 2, used := [(0, 2)], bad := fun _ => if q.get 0 2 < 60 ∨ 190 < q.get 0 2 then some 0 else none,
                     body := fun d => .ok { d with sch := { d.sch with leanCap := q.get 0 2 } } [] })
/-- HISTOGRAM_READ (R291). -/
def execHistogramRead (q : KReq) (s : State) : Host.Outcome State Fault Refusal :=
  s.run (·.kanex q { op := 0x0504, need := 5, used := [(0, 5)], bad := fun _ => histBad q, body := fun d => d.histogramRead q })

end Sys2Proof.Machine
end

