-- ==== Sys2Proof/Machine/Keys.lean ====
section
/-! DEFINITION. The Kanex key group (R318 to R333): loading, rotating, migrating, retiring and erasing keys, and the key lock. -/

namespace Sys2Proof.Machine

/-- The slot that a parity byte names for a tenant (R318). -/
def keySlot (q : KReq) : Nat := 2 * kTenant q + q.get 0 1

/-- A parity byte that names no slot. -/
def badParity (q : KReq) : Option Nat := if 2 ≤ q.get 0 1 then some 0 else none

/-- The tenant's slot in a state. -/
def Die.slotIn (d : Die) (t : Nat) (st : KState) : Option Nat := [2 * t, 2 * t + 1].find? (fun k => (d.slot k).st == st)

/-! ## KEY_INFO (R332) -/

/-- Counters left before R327 applies. -/
def keyLeft (next : Nat) : Nat := 0xFFFFFFFFFF000001 - next

/-- A slot on the workers that are present, as each last reported it: epoch, next counter and sectors. -/
def Die.slotAway (d : Die) (k : Nat) : List (Nat × Nat × Nat) :=
  (d.ql.pos.filter (fun (e : Nat × Pos) => d.life.manager && d.diePresent (e.1 + 2))).map (fun e => Tbl.get (0, 0, 0) e.2.keys k)

/-- Sectors held under a slot on every present die (R332). -/
def Die.keySectorsAll (d : Die) (k : Nat) : Nat := d.keySectors k + sumBy (fun x => x.2.2) (d.slotAway k)

/-- The present die whose NEXT is highest: epoch and next counter (R332). -/
def Die.slotNearest (d : Die) (k : Nat) : Nat × Nat :=
  (d.slotAway k).foldl (fun a x => if a.2 < x.2.1 then (x.1, x.2.1) else a) ((d.slot k).epoch, (d.slot k).next)

/-- A slot record. -/
def Die.slotRecord (d : Die) (k : Nat) : List Byte :=
  let s := d.slot k
  let p := d.slotNearest k
  let on := s.st != .empty
  let num := match s.st with | .empty => 0 | .write => 1 | .read => 2 | .locked => 3
  le 2 k ++ le 1 num ++ le 1 (bit (d.tenant (k / 2)).lock.isSome + 2 * bit (d.cl.migrating.contains (k / 2)))
    ++ le 4 (if on then p.1 else 0) ++ le 8 (if on then p.2 else 0) ++ le 8 (d.keySectorsAll k) ++ le 8 (keyLeft (if on then p.2 else 0))

/-! ## Loading, rotating, retiring (R319, R320) -/

/-- The answer that names a slot and its epoch (R387), once every die has the key (R323). -/
def Die.epochAnswer (d : Die) (k : Nat) : KAns := .all d (le 2 k ++ le 2 0 ++ le 4 (d.slot k).epoch)

/-- The state a loaded key takes: WRITE if the tenant has no WRITE slot, else READ. -/
def Die.loadState (d : Die) (t : Nat) : KState := if (d.slotIn t .write).isSome then .read else .write

/-- KEY_GENERATE's own part. -/
def Die.keyGenerate (d : Die) (q : KReq) : KAns :=
  let k := keySlot q
  if (d.slot k).st ≠ .empty ∨ (d.slotIn (kTenant q) .locked).isSome then .no d kStateConflict
  else if d.epochLeft k = false then .no d kExhausted
  else (d.newKey (some q.fn) k (d.loadState (kTenant q))).epochAnswer k

/-- KEY_IMPORT's own part (R322): what the wrapped key holds, or that it does not unwrap, is the operand. -/
def Die.keyImport (d : Die) (q : KReq) (unwraps : Bool) (key : BitVec 256) : KAns :=
  let k := keySlot q
  if (d.slot k).st ≠ .empty ∨ (d.slotIn (kTenant q) .locked).isSome then .no d kStateConflict
  else if d.epochLeft k = false then .no d kExhausted
  else if unwraps = false then .no d kIntegrity
  else ((d.loadKey k key (d.loadState (kTenant q))).keyOut (some q.fn) k).epochAnswer k

/-- KEY_ROTATE's own part (R319, R321): the roles of the WRITE and the READ slot swap. -/
def Die.keyRotate (d : Die) (q : KReq) : KAns :=
  let t := kTenant q
  match d.slotIn t .write, d.slotIn t .read with
  | some w, some r =>
    let d := (d.updSlot w (fun s => { s with st := .read, before := .read })).updSlot r (fun s => { s with st := .write, before := .write })
    let d := if nonceEdge < (d.slot r).next then d.vendorEvent 0x02 0x02 else d
    .all ((d.keyOut none w).keyOut (some q.fn) r).progress (le 2 r)
  | _, _ => .no d kStateConflict

/-- KEY_RETIRE's own part. -/
def Die.keyRetire (d : Die) (q : KReq) : KAns :=
  let k := keySlot q
  if (d.slot k).st ≠ .read ∨ d.cl.migrating.contains (kTenant q) ∨ d.keySectorsAll k ≠ 0 then .no d kStateConflict
  else .all (d.dropKey (some q.fn) k) []

/-! ## Migration (R321) -/

/-- A sector encrypted anew under a slot, taking a counter. -/
def Die.rekey (d : Die) (nsid x k : Nat) (s : Sector) : Die × Sector :=
  let p := d.decryptSector nsid s
  (d.takeCounter k, d.encryptSector nsid x k p.1 p.2 s.md.wgen)

/-- The sectors of a loaf slot, those under the READ slot encrypted anew but for the ones whose tag fails. -/
def Die.rekeyAll (d : Die) (r w : Nat) (fails : List (Nat × Nat)) : List (Nat × Nat × Nat × Sector) → Die × List (Nat × Sector)
  | [] => (d, [])
  | s :: l =>
    let y := if s.2.2.2.md.kslot = r ∧ fails.contains (s.2.1, s.2.2.1) = false then d.rekey s.2.1 s.2.2.1 w s.2.2.2 else (d, s.2.2.2)
    let q := y.1.rekeyAll r w fails l
    (q.1, (s.1, y.2) :: q.2)

/-- The handle of the RU that a loaf slot belongs to. -/
def Die.handleOf (d : Die) (key : Nat) : Nat := match d.slotRu key with | some r => (d.ru r.1).handle | none => 0

/-- A loaf that holds sectors under the READ slot written anew; its entry moves by the conditional update of R164. -/
def Die.migrateLoaf (d : Die) (r w : Nat) (fails : List (Nat × Nat)) (nsid l : Nat) : Die :=
  let n := d.ns nsid
  let e := n.entry l
  let g := groupOf e.loc.port
  if (e.typ == .loaf || e.typ == .part) && !d.moving nsid l 0 then
    let xs := ((List.range 16).filter (fun i => e.vmask.getLsbD i)).map (fun i =>
      (i, nsid, l * 16 + i, if n.isPoisoned (l * 16 + i) then ({} : Sector) else d.mediaGet (secKey e.loc.key i)))
    let q := d.rekeyAll r w fails xs
    match q.1.ship g (d.handleOf e.loc.key) .host tPatrol 3 q.2 with
    | none => d
    | some (loc, d) => { d with rc := { d.rc with
        owner := Tbl.set d.rc.owner loc.key (nsid, l)
        moves := Tbl.set d.rc.moves loc.key { kind := 0, ns := nsid, loaf := l, was := e, crumbs := [] } } }
  else d

/-- A crumb loaf that holds sectors under the READ slot written anew, as one update. -/
def Die.migrateCrumbs (d : Die) (r w : Nat) (fails : List (Nat × Nat)) (key : Nat) : Die :=
  let cs := (d.liveCrumbs key).map (fun (c : Nat × Nat) => (c.1, c.2, (d.ns c.1).crumb c.2))
  let busy := d.rc.moves.any (fun m => m.2.kind == 2 && m.2.crumbs.any (fun c => cs.contains c))
  let g := groupOf (((cs.head?).map (fun (c : Nat × Nat × Crumb) => c.2.2.loc.port)).getD 0)
  if cs.isEmpty || busy then d
  else
    let xs := (cs.zip (List.range 16)).map (fun (c : (Nat × Nat × Crumb) × Nat) =>
      (c.2, c.1.1, c.1.2.1, if (d.ns c.1.1).isPoisoned c.1.2.1 then ({} : Sector) else d.mediaGet (secKey key (c.1.2.2.sslot % 16))))
    let q := d.rekeyAll r w fails xs
    match q.1.ship g (d.handleOf key) .host tPatrol 3 q.2 with
    | none => d
    | some (loc, d) => { d with rc := { d.rc with
        crumbSlots := Tbl.set d.rc.crumbSlots loc.key (cs.map (fun (c : Nat × Nat × Crumb) => (c.1, c.2.1)))
        moves := Tbl.set d.rc.moves loc.key { kind := 2, ns := 0, loaf := 0, was := {}, crumbs := cs } } }

/-- The sectors of the proofing area under the READ slot encrypted anew in place. -/
def Die.migrateProof (d : Die) (r w : Nat) (fails : List (Nat × Nat)) : Die :=
  (d.proofUnder r).foldl (fun (x : Die) e =>
    let nsid := e.2.md.nsx + 1
    if fails.contains (nsid, e.2.md.sect) then x
    else
      let y := x.rekey nsid e.2.md.sect w e.2
      y.1.proofPut e.1 y.2) d

/-- A pass of KEY_MIGRATE: every sector still under the READ slot that is not on its way. Rows with copies that wait are padded and
programmed once nothing is left to copy. -/
def Die.migratePass (d : Die) (r w : Nat) (fails : List (Nat × Nat)) : Die :=
  let todo := (d.mediaUnder r).filter (fun x => !fails.contains x)
  let loafs := todo.filter (fun x => ((d.ns x.1).entry (x.2 / 16)).vmask.getLsbD (x.2 % 16))
  let crumbs := todo.filter (fun x => !((d.ns x.1).entry (x.2 / 16)).vmask.getLsbD (x.2 % 16))
  let d := d.migrateProof r w fails
  let before := d.rc.moves.length
  let d := loafs.foldl (fun (y : Die) x => y.migrateLoaf r w fails x.1 (x.2 / 16)) d
  let d := crumbs.foldl (fun (y : Die) x =>
    let c := (y.ns x.1).crumb x.2
    y.migrateCrumbs r w fails ({ c.loc with slot := c.sslot / 16 } : Loc).key) d
  if d.rc.moves.length = before ∧ todo.isEmpty = false then (d.openRusWith (fun _ => true)).foldl (fun (y : Die) u => y.padRu u) d else d

/-- KEY_MIGRATE's own part. The progress unit is 65,536 sectors. -/
def Die.keyMigrate (d : Die) (q : KReq) (fails : List (Nat × Nat)) : KAns :=
  let t := kTenant q
  let total := (d.fn q.fn).mbx.progTotal
  match d.slotIn t .write, d.slotIn t .read with
  | some w, some r =>
    if total = 0 ∧ d.cl.migrating.contains t then .no d kStateConflict
    else
      let d := if total = 0 then
          ((d.updMbx q.fn (fun m => { m with progTotal := d.keySectors r / 65536 + 1 })).awaitAll q.fn).servingWorkers.foldl
            (fun (x : Die) p => x.kanexForward (p + 2) opKeyMigrate (some q))
            ((d.updMbx q.fn (fun m => { m with progTotal := d.keySectors r / 65536 + 1 })).awaitAll q.fn)
        else d
      let d : Die := { d with cl := { d.cl with migrating := if d.cl.migrating.contains t then d.cl.migrating else t :: d.cl.migrating } }
      if d.countersLeft w (d.keySectors r) = false then .wait (d.askCounters w)
      else
        let d := d.migratePass r w fails
        let left := d.keySectors r
        if (d.mediaUnder r).all (fun x => fails.contains x) ∧ (d.proofUnder r).all (fun e => fails.contains (e.2.md.nsx + 1, e.2.md.sect)) then
          .all { d with cl := { d.cl with migrating := d.cl.migrating.filter (fun x => x != t) } } (le 8 (left + leAt (d.fn q.fn).mbx.kept 0 8))
        else .wait (d.kanexProgress q.fn ((d.fn q.fn).mbx.progTotal - left / 65536 - 1))
  | _, _ => .no d kStateConflict

/-! ## Crypto-erase (R329) -/

/-- Migrations of a tenant ended with ABANDONED (R333). -/
def Die.stopMigrations (d : Die) (t fn : Nat) : Die :=
  ((d.funcs.filter (fun (e : Nat × Func) => e.1 != fn && e.2.mbx.st == .running && e.2.mbx.opcode == opKeyMigrate
    && (match e.2.mbx.cmd with | some q => kTenant q == t | none => false))).map (fun e => e.1)).foldl
    (fun (x : Die) n => (x.stopLong n).kanexEnd n kAbandoned 0 []) d

/-- Steps 2 to 4: keys and salts destroyed, the data discarded, a new key and new salts drawn. -/
def Die.eraseTenant (d : Die) (fn t : Nat) : Die :=
  let ids := d.nsOfTenant t
  let d := (d.dropKey none (2 * t)).dropKey none (2 * t + 1)
  let d := ids.foldl (fun (x : Die) n => (x.nsFormat n (x.ns n).lbaf (x.ns n).nsze true).updNs n (fun y => { y with hold := none })) d
  d.newKey (some fn) (2 * t) .write

/-- KEY_CRYPTO_ERASE's own part: it waits for the commands in flight to the tenant's namespaces, and later ones wait for it. -/
def Die.cryptoErase (d : Die) (q : KReq) : KAns :=
  let t := kTenant q
  let ids := d.nsOfTenant t
  let d := d.stopMigrations t q.fn
  if d.epochLeft (2 * t) = false then .no d kExhausted
  else
    let d := if (d.fn q.fn).mbx.progTotal = 0 then d.updMbx q.fn (fun m => { m with progTotal := ids.length }) else d
    let d := ids.foldl (fun (x : Die) n => x.updNs n (fun y => { y with hold := some (y.hold.getD d.qe.order) })) d
    let early := fun (n : Nat) => d.qe.tags.any (fun (u : Nat × Tag) => u.2.live && decide (u.2.order < (d.ns n).hold.getD 0)
      && (match u.2.entry with | some e => e.ns == n && (u.2.sq != 0 || e.opc == 0x80) | none => false))
    if ids.any early then .wait d else .all ((d.eraseTenant q.fn t).kanexProgress q.fn ids.length) []

/-! ## The key lock (R324) -/

/-- A secret in a payload. -/
def secretAt (q : KReq) (off : Nat) : List Byte := (List.range 32).map (fun i => BitVec.ofNat 8 (q.get (off + i) 1))

/-- A tenant's lock set, changed or cleared, on every die (R323, R324). -/
def Die.setLock (d : Die) (fn : Option Nat) (t : Nat) (s : Option (List Byte)) : Die :=
  (d.updTenant t (fun x => { x with lock := s })).keyToAll { fn := fn, index := t, what := .lock s }

/-- The slots of a tenant unwrapped (R324): each takes its state before locking. -/
def Die.unlockSlots (d : Die) (t : Nat) : Die :=
  let open1 := fun (y : Die) (k : Nat) => y.updSlot k (fun s => if s.st == .locked then { s with st := s.before } else s)
  open1 (open1 d (2 * t)) (2 * t + 1)

/-- KEY_LOCK_SET's own part. -/
def Die.keyLockSet (d : Die) (q : KReq) : KAns :=
  let t := kTenant q
  if (d.slotIn t .locked).isSome then .no d kStateConflict
  else match (d.tenant t).lock with
    | none => if q.get 0 1 = 0 then .no d kStateConflict else .all (d.setLock (some q.fn) t (some (secretAt q 4))) []
    | some cur =>
      if secretAt q 36 ≠ cur then .no d kIntegrity
      else .all (d.setLock (some q.fn) t (if q.get 0 1 = 0 then none else some (secretAt q 4))) []

/-- KEY_LOCK_SET's first wrong field: the current secret is zero while no lock is set. -/
def Die.keyLockBad (d : Die) (q : KReq) : Option Nat :=
  if 2 ≤ q.get 0 1 then some 0
  else if (d.tenant (kTenant q)).lock.isNone ∧ (secretAt q 36).any (fun b => b != 0) then some 36 else none

/-- KEY_UNLOCK's own part: ten wrong secrets in a power cycle close it (R324). -/
def Die.keyUnlock (d : Die) (q : KReq) : KAns :=
  let t := kTenant q
  let x := d.tenant t
  if 10 ≤ x.wrongUnlocks then .no d kLocked
  else if (d.slotIn t .locked).isNone then .no d kStateConflict
  else if x.lock ≠ some (secretAt q 0) then
    let d := d.updTenant t (fun y => { y with wrongUnlocks := y.wrongUnlocks + 1 })
    .no (if x.wrongUnlocks = 9 then d.record 0x0904 sevWarning t (le 2 t) else d) kIntegrity
  else
    .all ((d.unlockSlots t).keyToAll { fn := some q.fn, index := t, what := .unlock }).progress []

/-- KEY_AGREE_PUB's payload (R387). -/
def agreeBytes : List Byte :=
  let c := Config.agreeCert.take 3960
  le 97 Config.agreePub ++ le 3 0 ++ le 2 c.length ++ le 2 0 ++ c

/-! ## The meanings -/

/-- KEY_INFO (R332). -/
def execKeyInfo (q : KReq) (s : State) : Host.Outcome State Fault Refusal :=
  s.run (·.kanex q { op := 0x0401, acts := true, body := fun d => .ok d (d.slotRecord (2 * kTenant q) ++ d.slotRecord (2 * kTenant q + 1)) })
/-- KEY_GENERATE (R319, R320). -/
def execKeyGenerate (q : KReq) (s : State) : Host.Outcome State Fault Refusal :=
  s.run (·.kanex q { op := 0x0402, need := 1, used := [(0, 1)], acts := true, bad := fun _ => badParity q, body := fun d => d.keyGenerate q })
/-- KEY_IMPORT (R322). -/
def execKeyImport (q : KReq) (unwraps : Bool) (key : BitVec 256) (s : State) : Host.Outcome State Fault Refusal :=
  s.run (·.kanex q { op := 0x0403, need := 144, used := [(0, 1), (4, 97), (104, 40)], acts := true, bad := fun _ => badParity q,
                     body := fun d => d.keyImport q unwraps key })
/-- KEY_ROTATE (R319, R321). -/
def execKeyRotate (q : KReq) (s : State) : Host.Outcome State Fault Refusal :=
  s.run (·.kanex q { op := 0x0404, acts := true, body := fun d => d.keyRotate q })
/-- KEY_MIGRATE (R321). -/
def execKeyMigrate (q : KReq) (tagFails : List (Nat × Nat)) (s : State) : Host.Outcome State Fault Refusal :=
  s.run (·.kanex q { op := opKeyMigrate, acts := true, body := fun d => d.keyMigrate q tagFails })
/-- KEY_RETIRE (R319). -/
def execKeyRetire (q : KReq) (s : State) : Host.Outcome State Fault Refusal :=
  s.run (·.kanex q { op := 0x0406, need := 1, used := [(0, 1)], acts := true, bad := fun _ => badParity q, body := fun d => d.keyRetire q })
/-- KEY_CRYPTO_ERASE (R329). -/
def execKeyCryptoErase (q : KReq) (s : State) : Host.Outcome State Fault Refusal :=
  s.run (·.kanex q { op := opCryptoErase, acts := true, body := fun d => d.cryptoErase q })
/-- KEY_LOCK_SET (R324). -/
def execKeyLockSet (q : KReq) (s : State) : Host.Outcome State Fault Refusal :=
  s.run (·.kanex q { op := 0x0408, need := 68, used := [(0, 1), (4, 64)], acts := true, bad := fun d => d.keyLockBad q, body := fun d => d.keyLockSet q })
/-- KEY_UNLOCK (R324). -/
def execKeyUnlock (q : KReq) (s : State) : Host.Outcome State Fault Refusal :=
  s.run (·.kanex q { op := 0x0409, need := 32, used := [(0, 32)], acts := true, body := fun d => d.keyUnlock q })
/-- KEY_AGREE_PUB (R331). -/
def execKeyAgreePub (q : KReq) (s : State) : Host.Outcome State Fault Refusal :=
  s.run (·.kanex q { op := 0x040A, body := fun d => .ok d agreeBytes })

end Sys2Proof.Machine
end

