-- ==== Sys2Proof/Machine/Trays.lean ====
section
/-! DEFINITION. The commands of the tray pools (R358 to R364): a tray asked for, shared and freed by a unit, refused operations,
quarantine, and TRAY_SPLIT_SET. -/

namespace Sys2Proof.Machine

/-- The link word that the first 8 bytes of a free tray hold (R360), by the pool manager's side table: the next free tray, its own bank and
slot, its size, the mark. -/
def Die.linkWord (d : Die) (size n : Nat) : Nat :=
  let next := match ({ d with tp := d.tp.pop size n } : Die).trayHead size with | some m => d.tp.selfOf size m | none => 0xFFFFF
  next + 2 ^ 20 * d.tp.selfOf size n + 2 ^ 40 * size + 2 ^ 48 * 0x5A3C

/-- TRAY_ALLOC (R358, R360 to R363): the smallest fitting size within the reserves, or the request waits. A head whose link word, as
read (link), does not agree with the side table is quarantined, and the next tray is taken. -/
def Die.trayAlloc (d : Die) (unit inst bytes use link : Nat) : Die :=
  match sizeFor bytes with
  | none => d
  | some size =>
    let u := d.tp.useOf use inst
    if unit = 0 ∨ 14 < unit ∨ d.tp.fenced.contains (unitKeyOf unit inst) = true ∨ d.mayTake size u inst = false then d
    else match d.trayHead size with
      | none => d
      | some n =>
        if link = d.linkWord size n then d.takeTray unit inst size u n none
        else
          let d := { d with tp := (d.tp.pop size n).setTray size n { st := .quarantined } }
          let d := d.record 0x0A02 sevError noInst (le 3 (d.tp.selfOf size n) ++ le 1 (Config.openCode 0x0A02 0))
          if d.mayTake size u inst = true then
            match d.trayHead size with
            | some m => d.takeTray unit inst size u m none
            | none => d
          else d

/-- R363: a refused operation; the eighth of an instance within 1 s fences it and clears its holder bits everywhere. -/
def Die.trayRefused (d : Die) (unit inst size n : Nat) : Die :=
  let k := unitKeyOf unit inst
  let d := d.record 0x0A01 sevError inst (le 2 inst ++ le 3 (d.tp.selfOf size n) ++ le 2 (d.tp.tray size n).mask.toNat)
  let rs := (k, d.now) :: d.tp.refused.filter (fun r => decide (d.now < r.2 + 1000000))
  let d := { d with tp := { d.tp with refused := rs } }
  if 8 ≤ (rs.filter (fun r => r.1 == k)).length then
    let d := { d with tp := { d.tp with fenced := k :: d.tp.fenced, refused := rs.filter (fun r => r.1 != k) } }
    let mine := d.tp.trays.filter (fun e => e.2.heldBy unit && e.2.inst == inst)
    let d := mine.foldl (fun x e => x.dropBit (e.1 / 65536) (e.1 % 65536) unit) d
    d.record (unit * 256 + 0xF2) sevError inst (le 1 (Config.openCode (unit * 256 + 0xF2) 0) ++ le 1 2 ++ le 2 0)
  else d

/-- TRAY_SHARE (R361, R363). -/
def Die.trayShare (d : Die) (unit inst size n rcv : Nat) : Die :=
  if d.tp.fenced.contains (unitKeyOf unit inst) = true then d
  else if (d.tp.tray size n).heldBy unit = true then
    if 1 ≤ rcv ∧ rcv ≤ 14 then
      { d with tp := d.tp.setTray size n { d.tp.tray size n with mask := (d.tp.tray size n).mask ||| BitVec.ofNat 14 (2 ^ (rcv - 1)) } }
    else d
  else d.trayRefused unit inst size n

/-- TRAY_FREE (R361, R363). -/
def Die.trayFreed (d : Die) (unit inst size n : Nat) : Die :=
  if d.tp.fenced.contains (unitKeyOf unit inst) = true then d
  else if (d.tp.tray size n).heldBy unit = true then d.dropBit size n unit
  else d.trayRefused unit inst size n

/-- R363: the quarantined trays of a bank return to their list when the bank's slice passes. -/
def Die.unquarantine (d : Die) (bank : Nat) : Die :=
  let qs := d.tp.trays.filter (fun e => e.2.st == .quarantined && d.tp.bankOf (e.1 / 65536) (e.1 % 65536) == bank)
  { d with tp := qs.foldl (fun t e => { t.setTray (e.1 / 65536) (e.1 % 65536) {} with
    heads := Tbl.upd [] t.heads (e.1 / 65536) (fun l => (e.1 % 65536) :: l) }) d.tp }

/-- The first size whose banks hold less than its reserves, else size 0 where the banks do not sum to 96 (R358). -/
def splitBad (q : KReq) : Option Nat :=
  let short (s : Nat) : Bool := decide (q.get s 1 * traysPerBank s < sumBy (fun u => reserveOf u s) [1, 2, 3, 4, 5])
  match (List.range 5).find? short with
  | some s => some s
  | none => if sumBy (fun s => q.get s 1) (List.range 5) = 96 then none else some 0

/-- TRAY_ALLOC (R362). -/
def execTrayAlloc (unit inst bytes use link : Nat) (s : State) : Host.Outcome State Fault Refusal :=
  s.run (·.trayAlloc unit inst bytes use link)
/-- TRAY_SHARE (R361). -/
def execTrayShare (unit inst size tray rcv : Nat) (s : State) : Host.Outcome State Fault Refusal := s.run (·.trayShare unit inst size tray rcv)
/-- TRAY_FREE (R363). -/
def execTrayFree (unit inst size tray : Nat) (s : State) : Host.Outcome State Fault Refusal := s.run (·.trayFreed unit inst size tray)
/-- TRAY_SPLIT_SET (R358). -/
def execTraySplitSet (q : KReq) (s : State) : Host.Outcome State Fault Refusal :=
  s.run (·.kanex q { op := 0x0C06, need := 5, used := [(0, 5)], bad := fun _ => splitBad q,
                     body := fun d => .ok { d with tp := { d.tp with splitNext := (List.range 5).map (fun i => q.get i 1) } } [] })

end Sys2Proof.Machine
end

