-- ==== Sys2Proof/Machine/Selftest.lean ====
section
/-! DEFINITION. In-service self-test (R34, R480 to R487): slices, runs, the unit map, and the NVMe Device Self-test. -/

namespace Sys2Proof.Machine

/-! ## A slice (R34, R480, R481) -/

/-- Counts of a kind changed. -/
def Die.updCounts (d : Die) (kind : Nat) (f : KindCounts → KindCounts) : Die :=
  { d with units := { d.units with counts := Tbl.upd {} d.units.counts kind f } }

/-- A slice skipped (R34). -/
def Die.sliceSkipped (d : Die) (kind inst reason : Nat) : Die :=
  (d.updCounts kind (fun c => { c with skipped := satInc 0xFFFF c.skipped })).record 0x0C06 sevNotice inst
    (le 1 kind ++ le 2 inst ++ le 1 (Config.openCode 0x0C06 reason))

/-- Whether every tray of a bank is FREE, a quarantined one not counted (R363, R481). -/
def Die.bankIdle (d : Die) (bank : Nat) : Bool :=
  !d.tp.trays.any (fun (e : Nat × Tray) => e.2.st == .held && d.tp.bankOf (e.1 / 65536) (e.1 % 65536) == bank)

/-- The two neighbours of a sensor or pace monitor: those of the next lower and the next higher number, the first and the last beside
each other (DESIGN CHOICE, log entry 160). -/
def neighbours (inst : Nat) : List Nat := [(inst + 63) % 64, (inst + 1) % 64]

/-- Whether a stand-in of a unit in service is in place (R34, R480): a free spare; for a sensor or pace monitor its two neighbours in
service, no sensor among them faulty or excluded; none is needed for a map-cache bank. -/
def Die.standIn (d : Die) (kind inst : Nat) : Bool :=
  if kind = 4 then true
  else if 5 ≤ kind then (neighbours inst).all (fun i => d.unit kind i == .inService
    && (kind != kindSensor || !((d.sensor i).faulty || (d.sensor i).excluded)))
  else (d.freeSpare kind inst).isSome

/-- Whether a slice of a unit can run: the unit is in service or a spare, and a stand-in is in place (R34). -/
def Die.canTest (d : Die) (kind inst : Nat) : Bool :=
  match d.unit kind inst with
  | .spare => true
  | .inService => d.standIn kind inst
  | _ => false

/-- A unit instance that the pool manager had fenced returns to service (R363). -/
def Die.poolReturn (d : Die) (kind inst : Nat) : Die :=
  let k := unitKeyOf (kindSub kind) inst
  if d.tp.fenced.contains k then
    ({ d with tp := { d.tp with fenced := d.tp.fenced.filter (fun x => x != k) } } : Die).record 0x0C08 sevNotice inst (le 1 kind ++ le 2 inst)
  else d

/-- A slice passed: the unit becomes the free spare of its kind, and its stand-in stays in service. -/
def Die.slicePassed (d : Die) (kind inst : Nat) : Die :=
  let d := if kind < 4 then d.takeOut kind inst .spare else d
  let d := d.updCounts kind (fun c => { c with passed := satInc 0xFFFFFFFF c.passed })
  let d := if kind = 0 then d.unquarantine inst else d
  d.poolReturn kind inst

/-- A slice failed: the unit is marked unusable; a sensor is reported under R427 and may be excluded (R428). -/
def Die.sliceFailed (d : Die) (kind inst : Nat) : Die :=
  let d := (d.markUnusable kind inst).updCounts kind (fun c => { c with failed := satInc 0xFFFF c.failed })
  let d : Die := { d with fw := { d.fw with windowErr := true } }
  if kind = kindSensor then
    (d.updSensor inst (fun s => { s with sliceFailed := true })).record 0x0E05 sevError inst (le 1 inst ++ le 2 ((d.sensor inst).reading % 65536).toNat)
  else d.record 0x0C07 sevError inst (le 1 kind ++ le 2 inst ++ le 1 (Config.openCode 0x0C07 3) ++ le 1 (Config.openCode 0x0C07 4))

/-- The work of a core under test goes to its stand-in (R481 step 1). -/
def Die.coreWork (d : Die) (core : Nat) : Die :=
  match d.freeSpare 3 core with
  | some sp =>
    let hs := Tbl.get [] d.mc.run core
    if hs.isEmpty then d
    else
      let d := hs.foldl (fun (x : Die) h => x.updSrc h.1 (fun s => { s with core := sp })) d
      { d with mc := { d.mc with run := Tbl.set (Tbl.set d.mc.run core []) sp hs } }
  | none => d

/-! ## Runs (R484, R486) -/

/-- The end of a run. -/
def Die.runEnded (d : Die) (r : TestRun) : Die :=
  let d : Die := { d with units := { d.units with run := none } }
  if r.what = 0 then
    if r.skipped then d.kanexEndOf r.fn opSelftestRun kPartial r.done [] else d.kanexEndOf r.fn opSelftestRun kOk 0 []
  else d.updFn r.fn (fun f => { f with dstLog := some (match r.failed with | some u => (7, u.1 + 1, u.2) | none => (0, 0, 0)) })

/-- A slice counted for the run whose next slice it is. -/
def Die.runSlice (d : Die) (kind inst : Nat) (ran pass : Bool) : Die :=
  match d.units.run with
  | none => d
  | some r =>
    if r.todo.head? = some (kind, inst) then
      let r' : TestRun := { r with
        todo := r.todo.tail, done := if ran then r.done + 1 else r.done, skipped := r.skipped || !ran
        failed := if ran && !pass && r.failed.isNone then some (kind, inst) else r.failed }
      let d : Die := { d with units := { d.units with run := some r' } }
      let d := if r.what = 0 then d.kanexProgress r.fn ((d.fn r.fn).mbx.progress + 1) else d
      if r'.todo.isEmpty then d.runEnded r' else d
    else d

/-- R480: whether a slice of the rotation is due: the unit comes next in a run or waits to be tested, or no slice of its kind has begun
in the last 100 ms. -/
def Die.sliceDue (d : Die) (kind inst : Nat) : Bool :=
  d.units.queue.contains (kind, inst) || (match d.units.run with | some r => r.todo.head? == some (kind, inst) | none => false)
    || !((Tbl.get ({} : KindCounts) d.units.counts kind).last.any (fun e => decide (d.now < e.2 + 100000)))

/-- SELFTEST_SLICE: free: of a tray bank, whether it came free within 50 ms; pass: what the unit's test gives. No slice starts
during an activation hold or out of P0 (R480, R487). -/
def Die.slice (d : Die) (kind inst : Nat) (free pass : Bool) : Die :=
  if 7 ≤ kind ∨ kindTotal kind ≤ inst ∨ d.qe.hold = true ∨ d.aon.pstate ≠ 0 ∨ d.sliceDue kind inst = false then d
  else
    let d : Die := { d with units := { d.units with queue := d.units.queue.filter (fun u => u != (kind, inst)) } }
    if d.canTest kind inst = false then (d.sliceSkipped kind inst 0).runSlice kind inst false false
    else if kind = 0 ∧ (free = false ∨ d.bankIdle inst = false) then (d.sliceSkipped kind inst 1).runSlice kind inst false false
    else
      let d := d.updCounts kind (fun c => { c with last := Tbl.set c.last inst d.now })
      let d := if kind = 3 then d.coreWork inst else d
      let d := if pass then d.slicePassed kind inst else d.sliceFailed kind inst
      d.runSlice kind inst true pass

/-- Instances of a kind that are not marked unusable. -/
def Die.usable (d : Die) (kind : Nat) : List Nat := (List.range (kindTotal kind)).filter (fun i => !d.units.map.contains (kind, i))

/-- Time a unit was last tested since the last cold reset. -/
def Die.lastTest (d : Die) (kind inst : Nat) : Nat := max d.aon.zero (Tbl.get 0 (Tbl.get {} d.units.counts kind).last inst)

/-- The instance of a kind tested least recently, the lowest number on a tie. -/
def Die.leastTested (d : Die) (kind : Nat) : Option Nat :=
  (d.usable kind).foldl (fun a i => match a with
    | none => some i
    | some b => if d.lastTest kind i < d.lastTest kind b then some i else some b) none

/-- Kinds of a SELFTEST_RUN, in order. -/
def kindsOf (mask : Nat) : List Nat := (List.range 7).filter (fun k => mask.testBit k)

/-- SELFTEST_RUN's first wrong field. -/
def selftestBad (q : KReq) : Option Nat :=
  if 128 ≤ q.get 0 2 then some 0
  else if q.get 2 2 ≠ 0xFFFF ∧ (kindsOf (q.get 0 2)).any (fun k => decide (kindTotal k ≤ q.get 2 2)) = true then some 2 else none

/-- SELFTEST_RUN's own part. -/
def Die.selftestRun (d : Die) (q : KReq) : KAns :=
  let todo := (kindsOf (q.get 0 2)).flatMap (fun k => (if q.get 2 2 = 0xFFFF then d.usable k else [q.get 2 2]).map (fun i => (k, i)))
  if d.units.run.isSome then .no d kStateConflict
  else if todo.isEmpty then .ok d []
  else .go { d with units := { d.units with run := some { what := 0, fn := q.fn, todo := todo } } } todo.length

/-- A kind's entry in SELFTEST_STATUS (R485). -/
def Die.selftestEntry (d : Die) (k : Nat) : List Byte :=
  let c : KindCounts := Tbl.get {} d.units.counts k
  let spares := if k < 4 then ((List.range (kindTotal k)).filter (fun i => d.unit k i == .spare)).length else 0
  let oldest := ((d.usable k).map (d.lastTest k)).foldl min d.now
  le 1 k ++ le 1 spares ++ le 2 (d.serving k) ++ le 2 (d.units.map.filter (fun u => u.1 == k)).length ++ le 2 c.failed ++ le 2 c.skipped
    ++ le 2 (min 0xFFFF ((d.now - oldest) / 3600000000)) ++ le 4 c.passed

/-- Slice time in µs, coverage in 0.1 %, and stand-in (0 spare, 1 neighbour, 2 none) of a kind (R480, R387). The coverage of a sensor
or pace monitor is no percentage: its field is left open (log entry 17). -/
def sliceFacts : Nat → Nat × Nat × Nat
  | 0 => (1200, 1000, 0)
  | 1 => (1000, 960, 0)
  | 2 => (1500, 960, 0)
  | 3 => (1700, 950, 0)
  | 4 => (1200, 1000, 2)
  | 5 => (300, Config.openCode 0x0803 5, 1)
  | _ => (200, Config.openCode 0x0803 6, 1)

/-- SELFTEST_CATALOGUE's entry of a kind (R480, R387). -/
def catalogueEntry (k : Nat) : List Byte :=
  let f := sliceFacts k
  le 1 k ++ le 1 0 ++ le 2 (kindTotal k) ++ le 4 f.1 ++ le 2 f.2.1 ++ le 1 f.2.2 ++ le 5 0

/-- UNIT_RESTORE's own part (R482): one slice of an unusable unit. -/
def Die.unitRestore (d : Die) (kind inst : Nat) (pass : Bool) : KAns :=
  if d.units.map.contains (kind, inst) = false then .no d kStateConflict
  else
    let d := d.updCounts kind (fun c => { c with last := Tbl.set c.last inst d.now })
    if pass then
      let d := d.updCounts kind (fun c => { c with passed := satInc 0xFFFFFFFF c.passed })
      let d : Die := { d with units := { d.units with map := d.units.map.filter (fun u => u != (kind, inst)) } }
      .ok (((d.setUnit kind inst (if kind < 4 then .spare else .inService)).record 0x0C08 sevNotice inst (le 1 kind ++ le 2 inst)).poolReturn kind inst) []
    else .no (d.updCounts kind (fun c => { c with failed := satInc 0xFFFF c.failed })) kIntegrity

/-- UNIT_RESTORE's first wrong field. -/
def restoreBad (q : KReq) : Option Nat := if 7 ≤ q.get 0 1 then some 0 else if kindTotal (q.get 0 1) ≤ q.get 2 2 then some 2 else none

/-! ## NVMe Device Self-test (R486): STC is dword 10 bits 3:0 (log entry 10) -/

/-- A Device Self-test begun: short, one slice of every kind on the instance tested least recently; extended, every instance. -/
def Die.dstBegin (d : Die) (t stc : Nat) : Die := d.admin t 0x14 fun x e =>
  let code := bitsOf e.cdw10 0 4
  if !([0x1, 0x2, 0xF] : List Nat).contains code then d.finish t stInvalidField
  else if code ≠ stc then d
  else if d.units.run.isSome then d.finish t stSelfTestRunning
  else
    let todo := (List.range 7).flatMap (fun k => (if stc = 1 then (d.leastTested k).toList else d.usable k).map (fun i => (k, i)))
    ({ d with units := { d.units with run := some { what := stc, fn := x.fn, todo := todo } } } : Die).finish t stOk

/-- A Device Self-test aborted: the log reports 0x1. -/
def Die.dstAbort (d : Die) (t : Nat) : Die := d.admin t 0x14 fun _ e =>
  let code := bitsOf e.cdw10 0 4
  if !([0x1, 0x2, 0xF] : List Nat).contains code then d.finish t stInvalidField
  else if code ≠ 0xF then d
  else match d.units.run with
    | none => d.finish t stOk
    | some r =>
      if r.what = 0 then d.finish t stSelfTestRunning
      else ((({ d with units := { d.units with run := none } } : Die).updFn r.fn (fun f => { f with dstLog := some (1, 0, 0) }))).finish t stOk

/-! ## The meanings -/

/-- SELFTEST_RUN (R484). -/
def execSelftestRun (q : KReq) (s : State) : Host.Outcome State Fault Refusal :=
  s.run (·.kanex q { op := 0x0801, need := 4, used := [(0, 4)], bad := fun _ => selftestBad q, body := fun d => d.selftestRun q })
/-- SELFTEST_STATUS (R485). -/
def execSelftestStatus (q : KReq) (s : State) : Host.Outcome State Fault Refusal :=
  s.run (·.kanex q { op := 0x0802, body := fun d => .ok d ((List.range 7).flatMap d.selftestEntry) })
/-- SELFTEST_CATALOGUE (R480). -/
def execSelftestCatalogue (q : KReq) (s : State) : Host.Outcome State Fault Refusal :=
  s.run (·.kanex q { op := 0x0803, body := fun d => .ok d ((List.range 7).flatMap catalogueEntry) })
/-- UNIT_RESTORE (R482). -/
def execUnitRestore (q : KReq) (pass : Bool) (s : State) : Host.Outcome State Fault Refusal :=
  s.run (·.kanex q { op := 0x0804, need := 4, used := [(0, 1), (2, 2)], bad := fun _ => restoreBad q
                     body := fun d => d.unitRestore (q.get 0 1) (q.get 2 2) pass })
/-- SELFTEST_SLICE (R481). -/
def execSelftestSlice (kind inst : Nat) (free pass : Bool) (s : State) : Host.Outcome State Fault Refusal := s.run (·.slice kind inst free pass)
/-- DEVICE_SELF_TEST_SHORT (R486). -/
def execDeviceSelfTestShort (tag : Nat) (s : State) : Host.Outcome State Fault Refusal := s.run (·.dstBegin tag 1)
/-- DEVICE_SELF_TEST_EXTENDED (R486). -/
def execDeviceSelfTestExtended (tag : Nat) (s : State) : Host.Outcome State Fault Refusal := s.run (·.dstBegin tag 2)
/-- DEVICE_SELF_TEST_ABORT (R486). -/
def execDeviceSelfTestAbort (tag : Nat) (s : State) : Host.Outcome State Fault Refusal := s.run (·.dstAbort tag)

end Sys2Proof.Machine
end

