-- ==== Sys2Proof/Machine/Quay.lean ====
section
/-! DEFINITION. Quay links and the hierarchy (R488 to R507): positions, links, forwarded commands, messages, admission, retirement
and adoption of workers; and the loss of a reference clock (R536), which takes links of every kind with it. -/

namespace Sys2Proof.Machine

/-! ## Positions (R488, R497) -/

/-- STATE of a position (R506). -/
def QState.num : QState → Nat
  | .absent => 0
  | .offered => 1
  | .joining => 2
  | .serving => 3
  | .leaving => 4
  | .retired => 5
  | .lost => 6
  | .refused => 7
  | .adopting => 8

/-- ANA Change told to the functions with namespaces in the group of a position (R65, R549). -/
def Die.anaChanged (d : Die) (g : Nat) : Die :=
  (d.readyFns.filter (fun n => d.nss.any (fun (e : Nat × Ns) => e.2.alive && e.2.home == g && e.2.attached.contains n))).foldl
    (fun (x : Die) n => x.notice n 0x03 0x0C 11) d

/-- A QUAY_LINK record (R478). -/
def Die.quayRecord (d : Die) (q sev : Nat) : Die := d.record 0x0D01 sev q (le 2 q ++ le 1 (d.qpos q).st.num ++ le 2 (d.qpos q).cause)

/-- A transition of a position with its record (R497). -/
def Die.posTo (d : Die) (q : Nat) (st : QState) (cause : Nat) : Die :=
  let old := d.ana (q + 2)
  let sev := match st with | .refused => sevError | .lost => sevWarning | _ => sevNotice
  let d := (d.updQpos q (fun p => { p with st := st, cause := cause })).quayRecord q sev
  if d.ana (q + 2) = old then d else d.anaChanged (q + 2)

/-- The positions behind a position: itself, and behind a first-tier one the second tier of its branch (R488). -/
def behind (q : Nat) : List Nat := if q % 4 = 0 then List.range' q 4 else [q]

/-- The port of the upstream die that a position hangs on (R488). -/
def portOf (q : Nat) : Nat := if q % 4 = 0 then q / 4 else q % 4

/-- Whether this manager may have a link to a position: that of a second-tier worker passes through its first-tier worker. -/
def Die.reachable (d : Die) (q : Nat) : Bool := q % 4 == 0 || (d.qpos (q - q % 4)).lanes != 0

/-! ## Links (R490 to R493) -/

/-- Why a downstream die is refused: 1 position, 2 stepping, 3 SYSID, 4 certificate; 0 not at all (R491, R506). -/
def identCause (qport q : Nat) (id : QuayIdent) : Nat :=
  if id.worker = false ∨ id.quayId ≠ q ∨ qport ≠ portOf q then 1
  else if id.stepping ≠ 0xB0 then 2
  else if id.sysidOk = false then 3
  else if id.certOk = false then 4 else 0

/-- Where a link that has come up takes its position (R497). -/
def Pos.afterLink (p : Pos) (dsn : BitVec 64) : QState :=
  match p.st with
  | .joining | .serving | .leaving | .adopting | .offered => if p.dsn = dsn then p.st else if p.recDsn = dsn then .joining else .offered
  | _ => if p.recDsn ≠ 0 ∧ p.recDsn = dsn then .joining else .offered

/-- R461, R498 step 1: the manager's running image with its record, for a joining worker. -/
def Die.sendFirmware (d : Die) (q : Nat) : Die :=
  let s := d.fw.slot d.fw.running
  d.quayMgmtSend q (.firmware s.hdr s.parts d.fw.act)

/-- What this die sends of itself in the identity exchange of a link (R491 step 2, R551): on a manager the SYSID is its own. -/
def Die.ownIdent (d : Die) : QuayIdent :=
  { worker := !d.life.manager, quayId := d.life.quayId, dsn := Config.dsn, stepping := 0xB0, fwVer := d.fw.runVer
    sysid := if d.life.manager then Config.dsn else d.ql.mgrDsn, sysidOk := true, certOk := true }

/-- QUAY_LINK_TRAINING (R491, R497). On a worker it is the upstream link, by which it learns its manager. No two dies carry one DSN and
none is zero (R551): an identity with this die's or with zero is none. -/
def Die.quayTrained (d : Die) (qport q : Nat) (id : QuayIdent) (lanes : Nat) (fast : Bool) : Die :=
  if id.dsn = Config.dsn ∨ id.dsn = 0 then d
  else if d.life.manager = false then
    if q = d.life.quayId then
      let d := d.quayOut q (.wireIdent q d.ownIdent)
      if id.certOk then
        let k := d.freeVal
        ({ d with ql := { d.ql with upstream := true, mgrDsn := id.sysid, session := Tbl.set d.ql.session q (some k) } } : Die).drawn
      else d
    else d
  else if 16 ≤ q ∨ d.reachable q = false ∨ ([8, 4, 2].contains lanes = false) then d
  else if d.life.refclkLost.contains (q / 4) then d
  else
    let d := d.quayOut q (.wireIdent q d.ownIdent)
    let c := identCause qport q id
    if c ≠ 0 then (d.updQpos q (fun p => { p with lanes := 0, dsn := id.dsn, refusedFrom := if p.st = .refused then p.refusedFrom else p.st })).posTo q .refused c
    else
      let st := (d.qpos q).afterLink id.dsn
      let k := d.freeVal
      let was := (d.qpos q).st
      let d := (d.updQpos q (fun p => { p with lanes := lanes, fast := fast, dsn := id.dsn, fwVer := id.fwVer })).drawn
      let d : Die := { d with ql := { d.ql with session := Tbl.set d.ql.session q (some k) } }
      let d := if st = was then d else d.posTo q st 0
      if st = .joining then d.sendFirmware q else d

/-- A command of the owner that waits for a position ends. -/
def Die.posAnswer (d : Die) (q op status : Nat) : Die :=
  match (d.fn 0).mbx.cmd with
  | some r => if r.get 0 1 = q then d.kanexEndOf 0 op status 0 [] else d
  | none => d

/-- A position's link lost: the position and those behind it, the commands forwarded to them, and an activation under way (R493,
R500, R507). A position not yet admitted goes back to ABSENT (log entry 48). -/
def Die.posLost (d : Die) (q cause : Nat) : Die :=
  let p := d.qpos q
  if p.st = .absent ∨ p.st = .lost ∨ p.st = .retired then
    { d.updQpos q (fun y => { y with lanes := 0, dsn := 0 }) with ql := { (d.updQpos q (fun y => { y with lanes := 0, dsn := 0 })).ql with session := Tbl.set d.ql.session q none } }
  else
    let d := d.updQpos q (fun y => { y with lanes := 0, dsn := 0, pstate := 0 })
    let d : Die := { d with ql := { d.ql with session := Tbl.set d.ql.session q none } }
    let d := if p.recDsn = 0 then d.posTo q .absent 0 else d.posTo q .lost (if p.cause = 6 then 6 else cause)
    let d := ((d.qe.tags.filter (fun (e : Nat × Tag) => e.2.live && e.2.forwarded && match e.2.entry with
      | some x => (d.ns x.ns).home == q + 2
      | none => false)).map (fun e => e.1)).foldl (fun (x : Die) t => (x.timeoutRecord t).failTag t stInternalTimeout) d
    let d := ((d.funcs.filter (fun (e : Nat × Func) => e.2.mbx.answers.contains (q + 2, none))).map (fun e => e.1)).foldl
      (fun (x : Die) n => x.answerOf n (q + 2) kNotPresent) d
    let d := if p.st = .joining then d.posAnswer q 0x0A02 (openStatus 0x0A02 0) else d
    let d := if p.st = .leaving then d.posAnswer q 0x0A03 (openStatus 0x0A03 0) else d
    if p.st = .adopting then d.posAnswer q 0x0A04 (openStatus 0x0A04 0) else d

/-- QUAY_LINK_LOST. -/
def Die.linkLost (d : Die) (q : Nat) : Die :=
  if d.life.manager ∧ q < 16 then ((behind q).foldl (fun (x : Die) p => x.posLost p 5) d).activationFails 7 else d

/-- A retrain of a position's link counted; the third within 10 s loses it (R493). -/
def Die.quayRetrain (d : Die) (q : Nat) : Die :=
  let ts := d.now :: (d.qpos q).times.filter (fun t => decide (d.now < t + 10000000))
  let d := d.updQpos q (fun p => { p with retrains := satInc 0xFFFF p.retrains, times := ts })
  if 3 ≤ ts.length then d.linkLost q else d

/-- Whether a position's link is one this die has. -/
def Die.hasLink (d : Die) (q : Nat) : Bool := if d.life.manager then (d.qpos q).lanes != 0 else q == d.life.quayId && d.ql.upstream

/-- QUAY_LINK_SILENCE: the Quay step of the timeout ladder (R493, R525). -/
def Die.quaySilence (d : Die) (q : Nat) : Die := if d.hasLink q then (d.ladderTake 4 q 13 1 false).quayRetrain q else d

/-- QUAY_LANE_NARROW (R490). -/
def Die.laneNarrow (d : Die) (q lanes : Nat) : Die :=
  if lanes < (d.qpos q).lanes ∧ (lanes = 4 ∨ lanes = 2) then
    ((d.updQpos q (fun p => { p with lanes := lanes })).quayRecord q sevWarning).quayRetrain q
  else d

/-! ## Forwarded commands (R494) -/

/-- The doorbell write that a stamp's deadline counts from (R276), on the time base that the dies share (R495); a command without one
takes the time it came at. -/
def Die.rungOf (d : Die) (cls kind deadline : Nat) (dlv : Bool) : Nat :=
  if dlv then d.now - (d.now + (deadlineOf cls kind).getD 0 + 2 ^ 32 - deadline) % 2 ^ 32 else d.now

/-- QUAY_CMD: a worker binds the manager's handle with its stamp and runs the command under its own arbitration. -/
def Die.quayCmd (d : Die) (t : Nat) (gen : BitVec 8) (fn cls : Nat) (e : SqEntry) (s0 deadline : Nat) (dlv : Bool) : Die :=
  if d.life.manager ∨ Config.tags ≤ t ∨ (d.ns e.ns).alive = false then d
  else
    let d := if (d.tag t).st == .free then d else d.abandonTag t
    let st : Stamp := { tenant := fn, cls := cls, kind := kindOf false e.opc, s0 := s0, deadline := deadline, dlv := dlv, cost0 := d.cost0 false e }
    let x : Tag := { st := .admitted, gen := gen, fn := fn, sq := 1, entry := some e, fetched := d.now, rung := d.rungOf cls (kindOf false e.opc) deadline dlv, order := d.qe.order,
                     stamp := st, errLba := e.slba }
    let d : Die := { d with qe := { d.qe with tags := Tbl.set d.qe.tags t x, order := d.qe.order + 1 } }
    if d.gateShut e x.order then d.updTag t (fun y => { y with gated := true })
    else if rwOpcodes.contains e.opc then d.checkLate t e else d

/-- QUAY_DATA: write data arrives at the worker, read data at the manager, which sends it to the host from an LBA of the command
on (R494, R496). Data under a handle whose generation has moved on is stale (R83). Before the first of it reaches the host the manager
looks at the command's fail-fast deadline and data pointer (R116, R121); in an activation hold no command enters RETURN (R112), and the
message waits on its link. -/
def Die.quayData (d : Die) (t : Nat) (gen : BitVec 8) (off : Nat) (data : List SectorData) (hm : List (BitVec 128)) (poisoned : Bool) : Die :=
  let x := d.tag t
  if x.gen ≠ gen then d.staleReport
  else match x.entry with
  | none => d
  | some e =>
    if d.life.manager = false then d.dataPulled t data hm {}
    else if x.forwarded = true ∧ x.live = true ∧ e.opc = 0x02 ∧ off + data.length ≤ e.nlb ∧ (d.qe.hold = false ∨ x.st = .ret) then
      match d.stopsHere t with
      | some st => d.failTag t st
      | none =>
      let f := d.fn x.fn
      let pois := poisoned && f.poisonFwd
      let d := data.zipIdx.foldl (fun (y : Die) (p : SectorData × Nat) =>
        y.emit (.dataOut x.fn t (e.slba + off + p.2) p.1 ((d.ns e.ns).hostMeta e (e.slba + off + p.2) ((hm[p.2]?).getD 0)) pois f.relaxed)) d
      let d := d.updTag t (fun z => { z with st := .ret })
      if pois then (d.record 0x0107 sevError x.fn (le 2 x.fn ++ le 4 e.ns ++ le 8 (e.slba + off))).ferr x.fn 3 else d
    else d

/-- QUAY_CPL: the worker's completion, which the manager posts; DW1 tells what happened on the worker (R494), and an Abort that acts on the
command ends with it (R102, R104). One under a handle whose generation has moved on is stale (R83). A fail-fast command whose deadline
has passed before it reached RETURN ends with DEADLINE_MISSED (R116); in an activation hold none is posted (R112). -/
def Die.quayCpl (d : Die) (t : Nat) (gen : BitVec 8) (m : QuayCplMsg) : Die :=
  let x := d.tag t
  if x.gen ≠ gen then d.staleReport
  else if d.life.manager = true ∧ x.forwarded = true ∧ x.live = true ∧ x.st ≠ .posting ∧ d.qe.hold = false then
    if (m.sct, m.sc) = stOk ∧ d.stopsHere t = some stDeadline then d.failTag t stDeadline
    else ((d.updTag t (fun y => { y with dw0 := m.dw0, dw1 := m.dw1, report := y.report ||| m.dw1.setWidth 6, errLba := m.errLba })).finish t
      (m.sct, m.sc)).abortsEnd t gen (m.sct, m.sc)
  else d

/-- A command that its manager gives up, under its handle (R83): one not at its point of no return ends with the status named, or with
none; any other runs on to its end (R104, R107). -/
def Die.givenUp (d : Die) (t : Nat) (gen : BitVec 8) (status : Option Status) : Die :=
  let x := d.tag t
  if d.life.manager ∨ x.st = .free ∨ x.gen ≠ gen then d
  else match status with
    | some st => if x.early then d.failTag t st else d
    | none => d.abandonTag t

/-! ## Messages (R492, R495, R496) -/

/-- A record that a worker wrote, kept under its ANA group (R468). -/
def Die.workerRecord (d : Die) (g code sev inst : Nat) (payload : List Byte) : Die :=
  let l := d.lb.consume
  let r : LogRec := { seq := l.newest, opsec := d.opsec, rep := 1, pcycle := l.pcycle, sev := sev % 8, res := sev % 8 == sevFatal, restored := false,
                      anagrp := g, code := code, inst := inst, last := 0, payload := padTo 28 payload }
  { d with lb := l.add r d.now }

/-- R461, R498 step 1: a worker with other firmware takes the manager's image into its inactive slot, verifies it, and restarts into it;
it ends with the manager's record state and ACT_ID. -/
def Die.firmwareTaken (d : Die) (h : Option (List Byte)) (ps : List Part) (r : ActRec) : Die :=
  let same := decide (({ hdr := h, st := .running } : FwSlot).image = (d.fw.slot d.fw.running).image)
  if same then (if d.fw.act.st = r.st ∧ d.fw.act.actId = r.actId then d else { d with fw := d.fw.follow d.fw.running r })
  else
    let i := 1 - d.fw.running
    let f := d.fw.setSlot i { st := if r.st = 0 then .running else .trial, hdr := h, parts := ps, blocks := List.range ({ hdr := h, st := .running } : FwSlot).image.nblocks }
    let f := if r.st = 0 then f.setSlot d.fw.running { f.slot d.fw.running with st := .complete } else f
    let d := (({ d with fw := (f.switchParts i).follow i r } : Die).drainAll.closeAllRows).checkpointAll
    { d with life := { d.life with phase := .parked, restart := true, stopAt := d.now } }

/-- A worker's answer to a command forwarded to it (R376): an entry of the answers, the end of a departure or an adoption, or the
response. -/
def Die.workerAnswer (d : Die) (q fn status detail : Nat) (payload : List Byte) : Die :=
  let m := (d.fn fn).mbx
  if m.st ≠ .running then d
  else if m.answers.isEmpty = false then
    (if m.opcode = opKeyMigrate ∧ status = kOk then d.updMbx fn (fun y => { y with kept := le 8 (leAt y.kept 0 8 + leAt payload 0 8) }) else d).answerOf
      fn (q + 2) status
  else if m.opcode = 0x0A03 ∧ (d.qpos q).st = .leaving then
    (if status = kOk then d.posTo q .retired 0 else d.posTo q .serving 0).posAnswer q 0x0A03 status
  else if m.opcode = 0x0A04 ∧ (d.qpos q).st = .adopting then
    (if status = kOk then (d.posTo q .joining 0).sendFirmware q else d).posAnswer q 0x0A04 status
  else if m.opcode = 0x0304 then
    let d := match m.cmd with
      | some r => if status = kOk then d.zoneChanged (r.get 0 4) ((d.ns (r.get 0 4)).zoneOf (r.get 8 8)) else d
      | none => d
    d.respondFull fn status false false detail 0 payload
  else if kScope m.opcode ≠ 0 ∨ m.opcode = 0x070A then d.respondFull fn status false false detail 0 payload
  else d

/-- An event that a worker raises, posted on the controllers of its manager (R549). -/
def Die.workerEvent (d : Die) (etype info page bitNo : Nat) : Die :=
  if etype = 1 then d.smartEvent info bitNo else d.vendorEvent info page

/-- A tenant record as the payload of a request (R295). -/
def recordReq (record : List Byte) : KReq :=
  { fn := 0, dbSeq := 0, seq := 0, len := 64, tfunc := 0xFFFF, tdie := 0, rsv11 := 0, rsv20 := 0, roffset := 0, dlen := 0, dptr := 0, payload := record }

/-- QUAY_MGMT: what the message asks of the die that gets it. A Kanex command forwarded runs as its own row on the worker (log entry 28). -/
def Die.quayMgmt (d : Die) (q : Nat) (m : QuayMgmtMsg) : Die :=
  match m with
  | .weights w => if d.life.manager then d else { d with sch := { d.sch with wNext := some w } }
  | .profile p cap => if d.life.manager then d else
      { d with sch := { d.sch with profileNext := p % 4, leanCap := if cap = 0 then d.sch.leanCap else cap } }
  | .adopt prior => if d.life.manager then d else d.updQpos d.life.quayId (fun x => { x with st := .adopting, prior := prior })
  | .logRecord code sev inst payload => if d.life.manager ∧ q < 16 then d.workerRecord (q + 2) code sev inst payload else d
  | .kanexResponse fn status detail payload => if d.life.manager ∧ q < 16 then d.workerAnswer q fn status detail payload else d
  | .tenant n alive rec => if d.life.manager then d else d.updTenant n (fun t =>
      { (t.withRecord (recordReq rec) 0 0xFFFFFFFF n) with alive := alive })
  | .kanexCommand _ _ => d
  | .actId id => if d.life.manager then d else { d with ql := { d.ql with actId := some id } }
  | .policy w f => if d.life.manager then d else { d with mc := { d.mc with policy := w, policyForce := d.mc.policyForce ||| f } }
  | .firmware h ps r => if d.life.manager then d else d.firmwareTaken h ps r
  | .summary cap p formed used keys => if d.life.manager ∧ q < 16 then
      used.foldl (fun (x : Die) u => if (x.ns u.1).alive && (x.ns u.1).home == q + 2 then x.updNs u.1 (fun n => { n with usedAway := u.2 }) else x)
        (d.updQpos q (fun x => { x with userCap := cap, pstate := p % 4, formed := formed, keys := keys })) else d
  | .failing => if d.life.manager ∧ q < 16 then d.updQpos q (fun x => { x with cause := 6 }) else d
  | .event t i p b => if d.life.manager ∧ q < 16 then d.workerEvent t i p b else d
  | .nsMake n owner c salt dsn => if d.life.manager then d else d.nsTaken n owner c salt dsn
  | .nsRemove n => if d.life.manager ∨ (d.ns n).alive = false then d else d.nsRemove n
  | .nsFormat n f size salt => if d.life.manager ∨ (d.ns n).alive = false then d else d.nsFormatted n f size salt
  | .closeZones ids => if d.life.manager then d else d.closeIdle (fun i _ => ids.contains i)
  | .giveUp t gen st => d.givenUp t gen st

/-- QUAY_KEY of a slot: the worker applies its key and state; its epochs and counters are its own (R323). -/
def Die.quaySlot (d : Die) (k : Nat) (key : BitVec 256) (st : Nat) : Die :=
  let st' : KState := if st = 1 then .write else if st = 2 then .read else .empty
  if st' = .empty then d.updSlot k (fun s => { epoch := s.epoch })
  else if (d.slot k).st ≠ .empty ∧ (d.slot k).key = key then d.updSlot k (fun s => { s with st := st', before := st' })
  else d.loadKey k key st'

/-- The worker's word to its manager that a key command is applied (R323). -/
def Die.keyApplied (d : Die) (fn : Option Nat) : Die :=
  match fn with
  | some n => d.quayMgmtSend d.life.quayId (.kanexResponse n kOk 0 [])
  | none => d

/-- QUAY_KEY: a worker applies the key material that its manager passes it (R323). -/
def Die.quayKey (d : Die) (m : QuayKeyMsg) : Die :=
  if d.life.manager then d
  else match m.what with
    | .slot key st => if m.index < 4096 then (d.quaySlot m.index key st).keyApplied m.fn else d
    | .lock secret => (d.updTenant m.index (fun x => { x with lock := secret })).keyApplied m.fn
    | .unlock => ((d.unlockSlots m.index).progress).keyApplied m.fn

/-- QUAY_TIME: a worker's time base locked to the manager's (R495). -/
def Die.quayTime (d : Die) (us : Nat) : Die :=
  if d.life.manager then d else { d with ql := { d.ql with timeOffset := (us : Int) - ((d.aon.time - d.aon.zero : Nat) : Int) } }

/-! ## Workers (R497 to R501) -/

/-- The namespaces homed on a position told to its worker (R498 step 2), and to one that is to adopt before it restores them (R501). -/
def Die.sendNss (d : Die) (q : Nat) : Die :=
  (d.nss.filter (fun (e : Nat × Ns) => e.2.alive && e.2.home == q + 2)).foldl (fun (x : Die) e =>
    x.quayMgmtSend q (.nsMake e.1 e.2.owner e.2.toCreate e.2.salt e.2.homeDsn)) d

/-- WORKER_ADMIT's own part: the DSN recorded; the command ends when the worker has joined, or at once where it has to adopt. -/
def Die.workerAdmit (d : Die) (q : Nat) : KAns :=
  let p := d.qpos q
  if p.st ≠ .offered then .no d kStateConflict
  else
    let replaces := p.recDsn ≠ 0 ∧ p.recDsn ≠ p.dsn
    let d := d.updQpos q (fun x => { x with prior := if p.recDsn ≠ 0 ∧ p.recDsn ≠ p.dsn then p.recDsn else x.prior, recDsn := p.dsn })
    if replaces then .ok (((d.posTo q .adopting 0).quayMgmtSend q (.adopt (d.qpos q).prior)).sendNss q) [] else .go ((d.posTo q .joining 0).sendFirmware q) 4

/-- The current key state passed to a worker (R323, R498): the slots in use, then the locks; slots locked here are locked there (R324). -/
def Die.keyState (d : Die) (q : Nat) : Die :=
  let d := ((d.cl.slots.filter (fun (e : Nat × Slot) => e.2.st != .empty)).map (fun e => e.1)).foldl (fun (x : Die) k =>
    x.quayKeySend q (d.slotMsg none k)) d
  ((d.tenants.filter (fun (e : Nat × Tenant) => e.2.lock.isSome)).map (fun e => e.1)).foldl (fun (x : Die) t =>
    x.quayKeySend q { fn := none, index := t, what := .lock (d.tenant t).lock }) d

/-- JOIN_COMPLETE (R498): the worker has the firmware, the configuration, the keys, the weights and the profile. It waits for the
end of an activation hold (R507). -/
def Die.joinComplete (d : Die) (q : Nat) : Die :=
  if d.life.manager = true ∧ q < 16 ∧ (d.qpos q).st = .joining ∧ d.qe.hold = false then
    let d := ((d.updQpos q (fun p => { p with fwVer := d.fw.runVer })).posTo q .serving 0).sendNss q
    let d := (d.tenants.map (fun (e : Nat × Tenant) => e.1)).foldl (fun (x : Die) n =>
      x.quayMgmtSend q (.tenant n (d.tenant n).alive (d.tenantRecord n))) d
    let d := (d.keyState q).quayMgmtSend q (.policy d.mc.policy d.mc.policyForce)
    let d := d.quayMgmtSend q (.weights d.sch.w)
    let d := match d.ql.hierProfile with | some p => d.quayMgmtSend q (.profile p.1 p.2) | none => d
    d.posAnswer q 0x0A02 kOk
  else d

/-- WORKER_RETIRE's own part (R499, R507): the manager stops forwarding; the worker meets the conditions of P3 and answers. -/
def Die.workerRetire (d : Die) (q : Nat) : KAns :=
  if d.life.manager = false then
    if d.berthMoving then .no d kRefusedMoving
    else if d.hostBusy then .wait d
    else .ok (d.drainAll.closeAllRows.checkpointAll) []
  else
    let free := fun (i : Nat) => match (d.qpos i).st with | .retired | .absent | .lost => true | _ => false
    if (d.qpos q).st ≠ .serving ∨ (q % 4 = 0 ∧ [q + 1, q + 2, q + 3].all free = false) then .no d kStateConflict
    else .go ((d.posTo q .leaving 0).kanexForward (q + 2) 0x0A03 (d.fn 0).mbx.cmd) 3

/-- The berths of a failed worker adopted by its replacement: a label of the prior DSN is rewritten, any other die's is FOREIGN
(R501 steps 1 and 2). -/
def Die.adoptBerths (d : Die) (prior : BitVec 64) : Die :=
  let ps := (d.bp.ports.filter (fun (e : Nat × Port) => e.2.st == .quarantine && e.2.cause == causeHierarchy)).map (fun e => e.1)
  ps.foldl (fun (x : Die) p => match (x.port p).label, (x.port p).passport with
    | some l, some b => if l.dieser = prior then x.joinOnline p b .adopted else x.portTo p .quarantine causeForeign
    | _, _ => x) d

/-- R501 step 3: the checkpoint loaded, the journal replayed and the proofing area restored: the namespaces that the manager has told of
get their maps, and the die the reclaim units of the berths, numbered behind its own. -/
def Die.restoreImage (d : Die) (m : AdoptImage) : Die :=
  let o := d.rc.next
  let d := m.nss.foldl (fun (x : Die) e => if (x.ns e.1).alive then x.updNs e.1 (fun n => { n with
    map := e.2.map, crumbs := e.2.crumbs, pmask := e.2.pmask, zones := e.2.zones }) else x) d
  { d with
    te := { d.te with proof := m.proof ++ d.te.proof, seg := max d.te.seg m.seg, made := d.te.made, durable := d.te.made
                      proofNext := m.proof.foldl (fun a e => max a (e.1 + sectorUnits)) d.te.proofNext }
    rc := { d.rc with
      rus := m.rus.map (fun e => (o + e.1, e.2)) ++ d.rc.rus
      next := m.rus.foldl (fun a e => max a (o + e.1 + 1)) o
      blocks := m.blocks.map (fun (e : Nat × Block) => (e.1, { e.2 with st := match e.2.st with | .inRu r => .inRu (o + r) | b => b })) ++ d.rc.blocks
      subst := m.subst ++ d.rc.subst, owner := m.owner ++ d.rc.owner, crumbSlots := m.crumbSlots ++ d.rc.crumbSlots
      media := m.media ++ d.rc.media, parity := m.parity ++ d.rc.parity } }

/-- R503: the dock-down of the failed worker did not finish: what an unclean stop leaves, as at a start after one: open rows recovered,
staged sectors not rescued poisoned, zones whose heel was not rescued cut, and an ALERT with the position and the sectors lost, whose
code the spec does not give (log entry 173). -/
def Die.settleAdopted (d : Die) : Die :=
  let sectors := fun (x : Die) => sumBy (fun e => sumBy (fun z => z.2.wp) e.2.zones) x.nss
  let e := d.loseUnprogrammed.settleRescue.openRows.queueLost
  e.record (Config.openCode 0x0D00 0) sevAlert d.life.quayId (le 2 d.life.quayId ++ le 8 (e.rc.integrityErrs - d.rc.integrityErrs + (sectors d - sectors e)))

/-- BERTH_ADOPT's own part (R501): the replacement does it and answers; the position then joins. Each slot goes on from its reservation
record (R326), and berths of the adopted RUs that are absent count as missing (R259). -/
def Die.berthAdopt (d : Die) (q : Nat) (m : AdoptImage) : KAns :=
  if (d.qpos (if d.life.manager then q else d.life.quayId)).st ≠ .adopting then .no d kStateConflict
  else if d.life.manager then .go (d.kanexForward (q + 2) 0x0A04 (d.fn 0).mbx.cmd) 5
  else
    let d := (d.adoptBerths (d.qpos d.life.quayId).prior).restoreImage m
    let d := if m.finished then d else d.settleAdopted
    let d := d.updQpos d.life.quayId (fun p => { p with st := .absent })
    let d : Die := { d with cl := { d.cl with slots := m.reserved.foldl (fun t r => Tbl.upd {} t r.1 (fun (s : Slot) =>
      { s with durable := max s.durable r.2, next := max s.next (max s.durable r.2 * Config.block20) })) d.cl.slots } }
    let gone := (m.rus.flatMap (fun e => e.2.members.map (fun x => x.port))).eraseDups.filter (fun p => (d.port p).st != .online && (Tbl.get none d.se.missing p).isNone)
    .ok (gone.foldl (fun (x : Die) p => x.goMissing p x.se.rejoin) d) []

/-- HIER_PROFILE_SET's own part (R504). -/
def Die.hierProfileSet (d : Die) (q : KReq) : KAns :=
  let cap := q.get 2 2
  let d : Die := { d with
    sch := { d.sch with profileNext := q.get 0 1, leanCap := if cap = 0 then d.sch.leanCap else cap }
    ql := { d.ql with hierProfile := some (q.get 0 1, cap) } }
  .all ((d.servingWorkers.foldl (fun (x : Die) p => x.kanexForward (p + 2) 0x0A05 (some q)) d)) []

/-- HIER_PROFILE_SET's first wrong field (the cap's range is R287's; 0 leaves the cap except with LEAN: log entry 49). -/
def hierProfileBad (q : KReq) : Option Nat :=
  if 3 < q.get 0 1 then some 0
  else if (q.get 2 2 ≠ 0 ∨ q.get 0 1 = 3) ∧ (q.get 2 2 < 60 ∨ 190 < q.get 2 2) then some 2 else none

/-- ANA as HIER_STATUS gives it. -/
def Ana.num : Ana → Nat
  | .optimized => 0
  | .change => 1
  | .inaccessible => 2

/-- An item of HIER_STATUS: the manager, then the positions (R506). -/
def Die.hierItem (d : Die) (i : Nat) : List Byte :=
  if i = 0 then
    le 1 1 ++ le 1 3 ++ le 1 0 ++ le 1 0 ++ le 8 Config.dsn.toNat ++ le 8 Config.dsn.toNat ++ le 4 d.fw.runVer ++ le 2 0 ++ le 2 0 ++ le 4 0
  else
    let p := d.qpos (i - 1)
    le 1 (i + 1) ++ le 1 p.st.num ++ le 1 (d.ana (i + 1)).num ++ le 1 (p.lanes + 16 * bit (p.fast && p.lanes != 0)) ++ le 8 p.dsn.toNat ++ le 8 p.recDsn.toNat
      ++ le 4 p.fwVer ++ le 2 p.cause ++ le 2 p.retrains ++ le 4 0

/-- A command that names a position. -/
def positionBad (q : KReq) : Option Nat := if 16 ≤ q.get 0 1 then some 0 else none

/-! ## REFCLK_LOSS (R536) -/

/-- A reference clock input has stopped: a training failure of every link it serves, and its channels answer no more. -/
def Die.refclkLoss (d : Die) (n : Nat) (u : UcieEnv) : Die :=
  if 4 ≤ n ∨ d.life.refclkLost.contains n = true then d
  else
    let d : Die := { d with life := { d.life with refclkLost := n :: d.life.refclkLost } }
    let ps := ((d.bp.ports.filter (fun (e : Nat × Port) => e.1 / 256 == n && (e.2.linked || e.2.st == .training))).map (fun e => e.1))
    let d := ps.foldl (fun (x : Die) p => x.faultPort p causeTrainFail) d
    let d := [3 * n, 3 * n + 1, 3 * n + 2].foldl (fun (x : Die) c => x.channelFailed c) d
    let d := d.linkLost (4 * n)
    (d.retrainHost u).progress

/-! ## The meanings -/

/-- HIER_STATUS (R506). -/
def execHierStatus (q : KReq) (s : State) : Host.Outcome State Fault Refusal :=
  s.run (·.kanex q { op := 0x0A01, body := fun d => .paged d 17 32 d.hierItem })
/-- WORKER_ADMIT (R497). -/
def execWorkerAdmit (q : KReq) (s : State) : Host.Outcome State Fault Refusal :=
  s.run (·.kanex q { op := 0x0A02, need := 1, used := [(0, 1)], bad := fun _ => positionBad q, body := fun d => d.workerAdmit (q.get 0 1) })
/-- WORKER_RETIRE (R499). -/
def execWorkerRetire (q : KReq) (s : State) : Host.Outcome State Fault Refusal :=
  s.run (·.kanex q { op := 0x0A03, need := 1, used := [(0, 1)], bad := fun _ => positionBad q, body := fun d => d.workerRetire (q.get 0 1) })
/-- BERTH_ADOPT (R501). -/
def execBerthAdopt (r : KReq × AdoptImage) (s : State) : Host.Outcome State Fault Refusal :=
  s.run (·.kanex r.1 { op := 0x0A04, need := 1, used := [(0, 1)], bad := fun _ => positionBad r.1, body := fun d => d.berthAdopt (r.1.get 0 1) r.2 })
/-- HIER_PROFILE_SET (R504). -/
def execHierProfileSet (q : KReq) (s : State) : Host.Outcome State Fault Refusal :=
  s.run (·.kanex q { op := 0x0A05, need := 4, used := [(0, 1), (2, 2)], bad := fun _ => hierProfileBad q, body := fun d => d.hierProfileSet q })
/-- QUAY_LINK_TRAINING (R491). -/
def execQuayLinkTraining (qport position : Nat) (id : QuayIdent) (lanes : Nat) (fast : Bool) (s : State) : Host.Outcome State Fault Refusal :=
  s.run (·.quayTrained qport position id lanes fast)
/-- QUAY_CMD (R494). -/
def execQuayCmd (handle : QuayHandle) (fn : QuaySender) (entry : SqEntry) (s0 deadline : Nat) (dlv : Bool) (s : State) : Host.Outcome State Fault Refusal :=
  s.run (·.quayCmd handle.tag handle.gen fn.fn fn.cls entry s0 deadline dlv)
/-- QUAY_DATA (R492, R494). -/
def execQuayData (tag : QuayHandle) (off : Nat) (data : List SectorData) (hmeta : List (BitVec 128)) (poisoned : Bool) (s : State) : Host.Outcome State Fault Refusal :=
  s.run (·.quayData tag.tag tag.gen off data hmeta poisoned)
/-- QUAY_CPL (R494). -/
def execQuayCpl (tag : QuayHandle) (m : QuayCplMsg) (s : State) : Host.Outcome State Fault Refusal := s.run (·.quayCpl tag.tag tag.gen m)
/-- QUAY_MGMT (R492, R496). -/
def execQuayMgmt (position : Nat) (m : QuayMgmtMsg) (s : State) : Host.Outcome State Fault Refusal := s.run (·.quayMgmt position m)
/-- QUAY_KEY (R323). -/
def execQuayKey (fn : Option Nat) (index : Nat) (what : QuayKeyWhat) (s : State) : Host.Outcome State Fault Refusal :=
  s.run (·.quayKey { fn := fn, index := index, what := what })
/-- QUAY_TIME (R495). -/
def execQuayTime (us : Nat) (s : State) : Host.Outcome State Fault Refusal := s.run (·.quayTime us)
/-- QUAY_TIME_LOCK_LOST (R495). -/
def execQuayTimeLockLost (position : Nat) (s : State) : Host.Outcome State Fault Refusal :=
  s.run (fun d => if d.hasLink position then d.quayRetrain position else d)
/-- QUAY_LINK_SILENCE (R493). -/
def execQuayLinkSilence (position : Nat) (s : State) : Host.Outcome State Fault Refusal := s.run (·.quaySilence position)
/-- QUAY_LINK_LOST (R493, R500). -/
def execQuayLinkLost (position : Nat) (s : State) : Host.Outcome State Fault Refusal := s.run (·.linkLost position)
/-- QUAY_LANE_NARROW (R490). -/
def execQuayLaneNarrow (position lanes : Nat) (s : State) : Host.Outcome State Fault Refusal := s.run (·.laneNarrow position lanes)
/-- JOIN_COMPLETE (R497, R498). -/
def execJoinComplete (position : Nat) (s : State) : Host.Outcome State Fault Refusal := s.run (·.joinComplete position)
/-- WORKER_UPSTREAM_LOSS (R500). -/
def execWorkerUpstreamLoss (d : DockEnv) (s : State) : Host.Outcome State Fault Refusal :=
  s.run (fun x => if x.life.manager then x
    else ({ x.dockWake 0x05 with ql := { (x.dockWake 0x05).ql with upstream := false } } : Die).dockDown dockUpstream 0 d)
/-- QUAY_FLIT_CRC_DISCARD (R492). -/
def execQuayFlitCrcDiscard (_position : Nat) (s : State) : Host.Outcome State Fault Refusal :=
  s.run (fun d => { d with ql := { d.ql with crc := (d.ql.crc + 1) % 2 ^ 32 } })
/-- REFCLK_LOSS (R536). -/
def execRefclkLoss (n : Nat) (u : UcieEnv) (s : State) : Host.Outcome State Fault Refusal := s.run (·.refclkLoss n u)

end Sys2Proof.Machine
end

