-- ==== Sys2Proof/Machine/Incidents.lean ====
section
/-! DEFINITION. Stalls, watchdogs and timeouts of the interior (R17, R36, R379, R397, R524 to R527), ABANDON and unknown
opcodes (R377, R383), event injection (R398), and the two service ports of the package: management sideband and JTAG (R539, R543). -/

namespace Sys2Proof.Machine

/-! ## Handshake stalls (R17, R525) -/

/-- The self-test kind of a unit that has spares (R30), from its subsystem and instance. -/
def spareKind (sub inst : Nat) : Option Nat :=
  if sub = 10 then some 0 else if sub = 9 then some 1 else if sub = 8 then some 2 else if sub = 12 ∧ inst < 17 then some 3 else none

/-- Units that R483 lists, by the subsystem they belong to: queue engines, scheduler, translation engine with the journal buffer,
stripe engine with the parity store, and of the management complex all but the cores. -/
def noPathWithout (sub inst : Nat) : Bool := [2, 3, 4, 6].contains sub || (sub == 12 && decide (17 ≤ inst))

/-- The clocked island of an instance of a subsystem (R17): port group, UCIe module, channel pair or Quay port. -/
def islandOf (sub inst : Nat) : Option Nat :=
  if sub = 7 ∧ inst < 32 then some inst
  else if sub = 1 ∧ inst < 8 then some (32 + inst)
  else if sub = 11 ∧ inst < 8 then some (40 + inst)
  else if sub = 13 ∧ inst < 4 then some (48 + inst) else none

/-- What a fenced island takes with it (R30, R44, R203, R356, R493): its module, ports, channels or positions. -/
def Die.islandLost (d : Die) (i : Nat) : Die :=
  let d : Die := { d with life := { d.life with fencedIslands := if d.life.fencedIslands.contains i then d.life.fencedIslands else i :: d.life.fencedIslands } }
  if i < 32 then
    (List.range' (32 * i) 32).foldl (fun (x : Die) p => if (x.port p).linked then x.faultPort p causeLinkLost else x) d
  else if i < 40 then d.moduleLost (i - 32)
  else if i < 48 then
    let c := 3 * ((i - 40) / 2) + (i - 40) % 2
    (d.channelFailed c).channelFailed (c + 1)
  else d.linkLost (4 * (i - 48))

/-- Instance of a stall's rung: the subsystem and the instance (level 0 of R525). -/
def stallInst (sub inst : Nat) : Nat := sub * 4096 + inst % 4096

/-- A unit fenced at step 3 of its stall, with its spare in service or the device degraded (R30, R36), or failing (R483). -/
def Die.stallFence (d : Die) (sub inst : Nat) (dk : DockEnv) : Die :=
  match spareKind sub inst with
  | some k =>
    let spare := (d.freeSpare k inst).isSome
    let d := (d.ladderTake 0 (stallInst sub inst) sub 3 spare).takeOut k inst .fenced
    let d := if k = 3 then d.coreReset inst else d
    if spare then d
    else
      let d := d.ladderTake 0 (stallInst sub inst) sub 4 false
      if k = 3 ∧ d.serving 3 < 9 then d.failStep 0 (stallInst sub inst) sub dk else d
  | none =>
    let d := d.ladderTake 0 (stallInst sub inst) sub 3 false
    if noPathWithout sub inst then d.failStep 0 (stallInst sub inst) sub dk
    else
      let d := match islandOf sub inst with | some i => d.islandLost i | none => d
      d.ladderTake 0 (stallInst sub inst) sub 4 false

/-- The source of a unit's stall detector (R389: 0xB00 to 0xEFF); which group a unit's channels belong to is open (log entry 91). -/
def stallSource (sub inst : Nat) : Nat := 0xB00 + Config.stallGroup sub inst % 1024

/-- An occurrence that an effect of the die raises; what its payload holds is defined per source and not given (R395). -/
def Die.raiseEvent (d : Die) (n : Nat) : Die := d.drawn.occur n (BitVec.ofNat 64 d.freeVal) false

/-- HANDSHAKE_STALL: the detector reports the stall to the event controller, and the unit is reset, and fenced where the reset does not
clear the stall or came three times in 60 s. -/
def Die.handshakeStall (d : Die) (sub inst : Nat) (clears : Bool) (dk : DockEnv) : Die :=
  if sub = 0 ∨ 14 < sub ∨ 4096 ≤ inst then d
  else
  let d := d.raiseEvent (stallSource sub inst)
  if d.ladderStep 0 (stallInst sub inst) false = 2 then
    let d := d.ladderTake 0 (stallInst sub inst) sub 2 false
    let d := if sub = 12 ∧ inst < 17 then d.coreReset inst else d
    if clears then d else d.stallFence sub inst dk
  else d.stallFence sub inst dk

/-! ## Core watchdogs (R36, R397, R525) -/

/-- R36, R388: the commands that a core held end with TIMEOUT, and are not run again. -/
def Die.coreKanex (d : Die) (core : Nat) : Die :=
  ((d.funcs.filter (fun (f : Nat × Func) => f.2.mbx.st == .running && f.2.mbx.core == core)).map (fun f => f.1)).foldl
    (fun (x : Die) n => (x.stopLong n).synthetic n kTimeout (kClass (x.fn n).mbx.opcode)) d

/-- The work of a core that is reset goes to the spare, and the core is the spare from then on; without one it keeps its work. -/
def Die.workToSpare (d : Die) (core : Nat) : Die :=
  match d.freeSpare 3 core with
  | some sp => ((d.setUnit 3 sp .inService).setUnit 3 core .spare).passBits core sp
  | none => d

/-- CORE_WATCHDOG: source 0x010 + core occurs (R389); reset, then fenced, then degraded; a live activation under way ends as R460 states. -/
def Die.coreWatchdog (d : Die) (core : Nat) (dk : DockEnv) : Die :=
  if 17 ≤ core ∨ d.unit 3 core ≠ .inService then d
  else
    let d := ((d.raiseEvent (0x010 + core)).coreReset core).coreKanex core
    let d := d.activationFails 7
    if d.ladderStep 5 core false = 2 then (d.ladderTake 5 core 12 2 false).workToSpare core
    else
      let spare := (d.freeSpare 3 core).isSome
      let d := (d.ladderTake 5 core 12 3 spare).takeOut 3 core .fenced
      if spare then d
      else if d.serving 3 < 9 then (d.ladderTake 5 core 12 4 false).failStep 5 core 12 dk
      else d.ladderTake 5 core 12 4 false

/-! ## Kanex timeouts and ABANDON (R371, R377 to R381, R525) -/

/-- KANEX_TIMEOUT: the class limit has passed; the synthetic response, the record and step 1 of the Kanex ladder. -/
def Die.kanexTimeout (d : Die) (n : Nat) : Die :=
  let m := (d.fn n).mbx
  if m.st = .running ∧ d.qe.hold = false ∧ m.classFrom + classLimit (kClass m.opcode) ≤ d.now then
    let d := (d.stopLong n).synthetic n kTimeout (kClass m.opcode)
    let d := d.record 0x0C01 sevError n (le 2 n ++ le 2 m.opcode ++ le 2 m.seq ++ le 1 m.core)
    let d := d.ladderTake 6 n 12 1 false
    d.updMbx n (fun x => { x with stopping := true, classFrom := d.now })
  else d

/-- KANEX_STOP_TIMEOUT: the command has not stopped within 1 s, and the core that holds it is reset. -/
def Die.kanexStopTimeout (d : Die) (n : Nat) : Die :=
  let m := (d.fn n).mbx
  if m.stopping = true ∧ m.classFrom + 1000000 ≤ d.now then
    let d := ((d.coreReset m.core).workToSpare m.core).ladderTake 6 n 12 2 false
    d.updMbx n (fun x => { x with stopping := false })
  else d

/-- An ABANDON doorbell (R371, R377): a Long command stops, a Fast or Normal one goes on, one not running is dropped; while the
live activation of a command is past its start it finishes as R459 or R460 states. -/
def Die.abandon (d : Die) (n seq : Nat) : Die :=
  let m := (d.fn n).mbx
  if d.mbxPresent n = false ∨ d.mbxUnavailable n = true then d
  else if m.st ≠ .running ∨ m.seq ≠ seq % 65536 then d.mbxEvent n 2 false
  else if kClass m.opcode = 2 then
    if d.fw.live = true ∧ m.opcode = 0x0904 then d else d.abandonLong n
  else d

/-! ## Event injection (R398) -/

/-- The first wrong field of EVENT_INJECT's block. -/
def eventInjectBad (q : KReq) : Option Nat :=
  if q.get 0 2 < 0xFF0 ∨ 0xFFF < q.get 0 2 then some 0
  else if q.get 2 1 = 0 then some 2
  else if 64 ≤ q.get 3 1 then some 3
  else if 2 ≤ q.get 6 1 then some 6 else none

/-- The configuration that EVENT_INJECT gives its source, which may be claimed (R390). -/
def injectCfg (q : KReq) : Word :=
  srcCfg (BitVec.ofNat 32 (1 + 2 * (q.get 3 1 % 2) + 4 * (q.get 3 1 / 2 % 2) + 8 * (q.get 3 1 / 4 % 16) + 256 * (q.get 4 2 + 65536 * (q.get 6 1 % 2))))

/-- EVENT_INJECT's own part: the occurrences take no time of the die's (log entry 36). -/
def Die.eventInject (d : Die) (q : KReq) : KAns :=
  if d.testLock = true then .no d kLocked
  else
    let n := q.get 0 2
    let t := d.aon.time
    let d := (d.updSrc n (fun x => { x with cfg := injectCfg q })).injectEvents n (BitVec.ofNat 64 (q.get 8 8)) (q.get 2 1)
    .ok { d with aon := { d.aon with time := t } } []

/-! ## The meanings -/

/-- HANDSHAKE_STALL (R17). -/
def execHandshakeStall (subsys inst : Nat) (resetClears : Bool) (dk : DockEnv) (s : State) : Host.Outcome State Fault Refusal :=
  s.run (·.handshakeStall subsys inst resetClears dk)
/-- CORE_WATCHDOG (R397). -/
def execCoreWatchdog (core : Nat) (dk : DockEnv) (s : State) : Host.Outcome State Fault Refusal := s.run (·.coreWatchdog core dk)
/-- ABANDON (R377). -/
def execAbandon (fn seq : Nat) (s : State) : Host.Outcome State Fault Refusal := s.run (·.abandon fn seq)
/-- KANEX_TIMEOUT (R379). -/
def execKanexTimeout (fn : Nat) (s : State) : Host.Outcome State Fault Refusal := s.run (·.kanexTimeout fn)
/-- KANEX_STOP_TIMEOUT (R525). -/
def execKanexStopTimeout (fn : Nat) (s : State) : Host.Outcome State Fault Refusal := s.run (·.kanexStopTimeout fn)
/-- UNKNOWN_COMMAND (R383): the checks of the frame, then the status of an opcode that the catalogue does not hold. -/
def execUnknownCommand (q : KReq) (opcode : Nat) (s : State) : Host.Outcome State Fault Refusal :=
  s.run (fun d => if (catRow opcode).isNone then d.kanex q { op := opcode, body := fun x => .no x kUnknown } else d)
/-- EVENT_INJECT (R398). -/
def execEventInject (q : KReq) (s : State) : Host.Outcome State Fault Refusal :=
  s.run (·.kanex q { op := 0x0D02, need := 16, used := [(0, 7), (8, 8)], bad := fun _ => eventInjectBad q, body := fun d => d.eventInject q })
/-- I3C_DYNAMIC_ADDRESS_ASSIGN (R539): from then on the sideband runs I3C Basic, until the next COLD_RST_N. -/
def execI3cDynamicAddressAssign (addr : Nat) (s : State) : Host.Outcome State Fault Refusal :=
  s.always (fun d => { d with life := { d.life with i3cAddr := some (addr % 128) } })
/-- JTAG_INSTRUCTION (R543): while JTAG_LOCK is set every instruction but boundary scan selects BYPASS; with the lock clear any
other acts on the debug unit. -/
def execJtagInstruction (boundaryScan : Bool) (code : Nat) (s : State) : Host.Outcome State Fault Refusal :=
  let _ := code
  if boundaryScan = false ∧ s.die.jtagLock = false then .refused .jtagDebug
  else s.always (fun d => { d with life := { d.life with jtagScan := boundaryScan } })

end Sys2Proof.Machine
end

