-- ==== Sys2Proof/Machine/Registers.lean ====
section
/-! DEFINITION. What a read of BAR0 or BAR2 returns (R47, R49, R56, R58, R366, R373, R399, R438), writes of a function's registers
(R50, R56, R68, R366, R403), and the gated-block rule (R18, R419). -/

namespace Sys2Proof.Machine

/-- CAP (R58). -/
def capValue : Nat := 0xFFFF + 2 ^ 16 + 6 * 2 ^ 24 + 2 ^ 32 + 0x41 * 2 ^ 37 + 4 * 2 ^ 52 + 2 ^ 59

/-- CSTS: RDY, CFS, SHST, PP (R59, R106, R308, R459). -/
def Func.csts (f : Func) : Nat := bit f.rdy + 2 * bit f.cfs + 4 * f.shst.toNat + 32 * bit f.pp

/-- A dword of the NVMe controller registers. -/
def Func.nvmeDword (f : Func) : Nat → Nat
  | 0x00 => capValue % 2 ^ 32
  | 0x04 => capValue / 2 ^ 32
  | 0x08 => 0x00020000
  | 0x14 => f.cc.toNat
  | 0x1C => f.csts
  | 0x24 => f.aqa.toNat
  | 0x28 => f.asq.toNat % 2 ^ 32
  | 0x2C => f.asq.toNat / 2 ^ 32
  | 0x30 => f.acq.toNat % 2 ^ 32
  | 0x34 => f.acq.toNat / 2 ^ 32
  | _ => 0

/-- MBX_STATUS (R366, R368). -/
def Func.mbxStatus (f : Func) : Nat :=
  let st := if f.st == .teardown || f.st == .fenced then 3
    else match f.mbx.st with | .idle => 0 | .running => 1 | .done => 2
  st + 256 * f.mbx.pct + 65536 * f.mbx.seq

/-- A dword of the mailbox registers (R366). -/
def Die.mbxDword (d : Die) (n : Nat) : Nat → Nat
  | 0x00 => if n = 0 then 0x01040403 else 0x00040403
  | 0x04 => (d.fn n).mbx.ctrl.toNat
  | 0x0C => (d.fn n).mbxStatus
  | 0x10 => (d.fn n).mbx.event.toNat
  | 0x14 => (d.fn n).mbx.progress
  | 0x18 => (d.fn n).mbx.progTotal
  | 0x1C => min 0xFFFFFFFF ((d.now - (d.fn n).mbx.accepted) / 1000)
  | _ => 0

/-- The bytes of the response area (R373). -/
def KResp.bytes (r : KResp) : List Byte :=
  le 2 r.opcode ++ le 2 r.seq ++ le 2 r.status ++ le 1 (bit r.synth + 2 * bit r.more) ++ le 1 0 ++ le 4 r.payload.length ++ le 4 r.detail
    ++ le 4 r.total ++ le 4 r.elapsed ++ le 8 0 ++ r.payload

/-- A dword of the notification registers (R399, R400). -/
def Die.notifyDword (d : Die) (n off : Nat) : Nat :=
  let f := d.fn n
  let vs := (d.tenant n).vectors
  if off = 0 then (vs - 1) % 4096
  else if off = 4 then f.ndef.toNat
  else if off = 8 then f.nsweep
  else if 0x1000 ≤ off ∧ (off - 0x1000) / 8 < vs then
    let v := f.vec ((off - 0x1000) / 8)
    if off % 8 = 0 then v.vmod.toNat
    else v.count + 256 * (match v.due with | none => 0 | some t => min 1023 (t - d.now)) + 2 ^ 18 * bit v.pba
  else 0

/-- FERR_LINK (R56). -/
def Link.ferrLink (l : Link) : Nat := l.mask.toNat + 256 * (l.lanesRepaired % 256) + 65536 * l.rate

/-- A dword of the FERR block (R56). -/
def Die.ferrDword (d : Die) (n : Nat) : Nat → Nat
  | 0x00 => (d.fn n).ferr.toNat
  | 0x04 => (d.fn n).ferrMask.toNat
  | 0x08 => (d.fn n).ferrAddr % 2 ^ 32
  | 0x0C => (d.fn n).ferrAddr / 2 ^ 32
  | 0x10 => if n = 0 then d.link.ferrLink else 0
  | _ => 0

/-- AON_PSTATE (R438). -/
def Die.aonPstate (d : Die) : Nat :=
  d.aon.pstate + 4 * d.aon.target + 16 * bit (decide (1 ≤ d.aon.auto)) + 32 * bit (d.aon.auto == 2) + 64 * bit d.aon.entering
    + 128 * bit (d.life.phase == .thermalHold)

/-- A dword of the device window (R438). -/
def Die.windowDword (d : Die) : Nat → Nat
  | 0x00 => d.aonPstate
  | 0x04 => d.aon.wakeSrc
  | 0x08 => d.aon.wakeTime % 2 ^ 32
  | 0x0C => d.aon.wakeTime / 2 ^ 32
  | 0x10 => (d.aon.time - d.aon.zero) % 2 ^ 32
  | 0x14 => (d.aon.time - d.aon.zero) / 2 ^ 32
  | 0x18 => d.aon.paceMax + 65536 * d.aon.paceMon
  | 0x1C => d.aon.vcore + 4096 * bit d.aon.fixed + 65536 * d.aon.power
  | 0x20 => d.aon.thmSummary
  | 0x28 => d.maskOfSensors (fun x => x.faulty) % 2 ^ 32
  | 0x2C => d.maskOfSensors (fun x => x.faulty) / 2 ^ 32
  | 0x30 => d.maskOfSensors (fun x => x.excluded) % 2 ^ 32
  | 0x34 => d.maskOfSensors (fun x => x.excluded) / 2 ^ 32
  | 0x40 => d.bwStatus
  | 0x44 => d.aon.volt
  | 0x48 => d.bwCap
  | 0x4C => d.aon.energy
  | _ => 0

/-- A dword read at a BAR0 offset of a function (R49): doorbells read as zero, and the rest of a region reads zero. -/
def Die.readDword (d : Die) (n off : Nat) : Word :=
  let f := d.fn n
  BitVec.ofNat 32 (
    if off < 0x1000 then f.nvmeDword off
    else if off < 0x80000 then 0
    else if off < 0x80040 then d.mbxDword n (off - 0x80000)
    else if 0x81000 ≤ off ∧ off < 0x82000 then leVal ((List.range 4).map (fun i => Memory.read f.mbx.req (off - 0x81000 + i)))
    else if 0x82000 ≤ off ∧ off < 0x83000 then (match f.mbx.resp with | some r => leAt r.bytes (off - 0x82000) 4 | none => 0)
    else if 0x90000 ≤ off ∧ off < 0xA0000 then d.notifyDword n (off - 0x90000)
    else if 0xA0000 ≤ off ∧ off < 0xB0000 then d.ferrDword n (off - 0xA0000)
    else if 0x100000 ≤ off ∧ n = 0 then d.windowDword (off - 0x100000)
    else 0)

/-! ## Writes (R50, R68) -/

/-- A write of CC: the stored fields, then what a change of EN or of SHN brings about (R106, R306, R307). -/
def Die.ccWrite (d : Die) (n : Nat) (w : Word) : Die :=
  let was := (d.fn n).cc
  let d := d.updFn n (fun f => { f with cc := (f.cc &&& 0xC001#32) ||| (w &&& 0x00FF3FF0#32) })
  if w.getLsbD 0 ≠ was.getLsbD 0 then (if w.getLsbD 0 then d.ccEnSet n w else d.ccEnClear n w)
  else if bitsOf w 14 2 = bitsOf was 14 2 then d
  else if bitsOf w 14 2 = 1 then d.shnNormal n
  else if bitsOf w 14 2 = 2 then d.shnAbrupt n
  else d

/-- A write in the doorbell region (R68, R69): the SQ tail doorbell of queue y at 0x1000 + 16 × y, its CQ head doorbell 8 bytes above;
what lies between two doorbells is unassigned. ok: the write is of 4 bytes. -/
def Die.doorbellWrite (d : Die) (n off : Nat) (w : Word) (ok : Bool) : Die :=
  let y := (off - 0x1000) / 16
  let aligned := ok && off % 4 == 0
  if off % 16 < 4 then d.sqDoorbell n y w aligned
  else if 8 ≤ off % 16 ∧ off % 16 < 12 then d.cqDoorbell n y w aligned
  else d

/-- One dword written to a BAR0 offset, to whichever register lies there: RSV bits, read-only and unassigned offsets are dropped
(R13, R50). -/
def Die.writeBar0 (d : Die) (n off : Nat) (w : Word) : Die :=
  if off = 0x14 then d.ccWrite n w
  else if off = 0x24 then d.updFn n (fun f => { f with aqa := w &&& 0x0FFF0FFF#32 })
  else if off = 0x28 then d.updFn n (fun f => { f with asq := (f.asq &&& 0xFFFFFFFF00000000#64) ||| ((w &&& 0xFFFFF000#32).zeroExtend 64) })
  else if off = 0x2C then d.updFn n (fun f => { f with asq := (f.asq &&& 0xFFFFFFFF#64) ||| (w.zeroExtend 64 <<< 32) })
  else if off = 0x30 then d.updFn n (fun f => { f with acq := (f.acq &&& 0xFFFFFFFF00000000#64) ||| ((w &&& 0xFFFFF000#32).zeroExtend 64) })
  else if off = 0x34 then d.updFn n (fun f => { f with acq := (f.acq &&& 0xFFFFFFFF#64) ||| (w.zeroExtend 64 <<< 32) })
  else if 0x1000 ≤ off ∧ off < 0x80000 then d.doorbellWrite n off w true
  else if off = 0x80004 then d.updMbx n (fun m => { m with ctrl := w &&& 0x07FF0003#32 })
  else if off = 0x80010 then d.updMbx n (fun m => { m with event := m.event &&& ~~~ (w.truncate 3) })
  else if off = 0x90004 then d.ndefWrite n w
  else if 0x91000 ≤ off ∧ off < 0xA0000 ∧ off % 8 = 0 then d.vmodWrite n ((off - 0x91000) / 8) w
  else if off = 0xA0000 then d.ferrWrite n w
  else if off = 0xA0004 then d.updFn n (fun f => { f with ferrMask := w })
  else d

/-- One dword written to a BAR2 offset: the MSI-X table (R47); the Mask bit through its own command's meaning (R403). -/
def Die.writeBar2 (d : Die) (n off : Nat) (w : Word) : Die :=
  let v := off / 16
  if (d.tenant n).vectors ≤ v then d
  else if off % 16 = 0 then d.updFn n (fun f => f.updVec v (fun y => { y with addr := y.addr / 2 ^ 32 * 2 ^ 32 + w.toNat / 4 * 4 }))
  else if off % 16 = 4 then d.updFn n (fun f => f.updVec v (fun y => { y with addr := y.addr % 2 ^ 32 + w.toNat * 2 ^ 32 }))
  else if off % 16 = 8 then d.updFn n (fun f => f.updVec v (fun y => { y with data := w.toNat }))
  else if off % 16 = 12 then d.maskWrite n (some v) (w.getLsbD 0)
  else d

/-- One dword written to a BAR of a function. -/
def Die.writeDword (d : Die) (n bar off : Nat) (w : Word) : Die :=
  if bar = 0 then d.writeBar0 n off w else if bar = 2 then d.writeBar2 n off w else d

/-- Bytes written into the request area (R369). -/
def Die.writeRequest (d : Die) (n off size : Nat) (value : Word64) : Die :=
  d.updMbx n (fun m => { m with req := Memory.writeAll m.req off (le (min size (4096 - off)) value.toNat) })

/-- REGISTER_WRITE: aligned dwords to registers, any bytes to the request area, and a doorbell by a write of 4 aligned bytes alone. -/
def Die.registerWrite (d : Die) (n bar off size : Nat) (value : Word64) : Die :=
  if d.fnPresent n = false ∨ (d.fn n).d3 = true then d
  else if bar = 0 ∧ 0x81000 ≤ off ∧ off < 0x82000 then d.writeRequest n (off - 0x81000) (min size 8) value
  else if bar = 0 ∧ 0x1000 ≤ off ∧ off < 0x80000 then d.doorbellWrite n off (value.truncate 32) (size == 4)
  else if off % 4 ≠ 0 then d
  else if size = 4 then d.writeDword n bar off (value.truncate 32)
  else if size = 8 then (d.writeDword n bar off (value.truncate 32)).writeDword n bar (off + 4) ((value >>> 32).truncate 32)
  else d

/-- A dword read at a BAR2 offset of a function (R47): the MSI-X table at 0x0000, four dwords a vector, and the PBA at 0x8000. -/
def Die.readBar2 (d : Die) (n off : Nat) : Word :=
  let f := d.fn n
  let vs := (d.tenant n).vectors
  BitVec.ofNat 32 (
    if off / 16 < vs then
      let v := f.vec (off / 16)
      if off % 16 = 0 then v.addr % 2 ^ 32 else if off % 16 = 4 then v.addr / 2 ^ 32 else if off % 16 = 8 then v.data else bit v.mask
    else if 0x8000 ≤ off ∧ off < 0x8100 then
      sumBy (fun i => if (off - 0x8000) * 8 + i < vs ∧ (f.vec ((off - 0x8000) * 8 + i)).pba = true then 2 ^ i else 0) (List.range 32)
    else 0)

/-- GATED_REGISTER_ACCESS (R419). -/
def Die.gatedAccess (d : Die) (n off : Nat) (write : Bool) (w : Word) (wakes : Bool) : Die :=
  if d.fnPresent n = false ∨ off % 4 ≠ 0 then d
  else if wakes then (if write then d.writeBar0 n off w else d.emit (.readValue n off (d.readDword n off)))
  else
    let d := (d.updFn n (fun f => { f with ferrAddr := off })).ferr n 0
    let d := d.record 0x0E0A sevNotice n (le 2 n ++ le 4 off)
    if write then d else d.emit (.readValue n off 0xFFFFFFFF#32)

/-! ## The meanings -/

/-- GATED_ISLAND_WAKE (R18). -/
def execGatedIslandWake (island : Nat) (s : State) : Host.Outcome State Fault Refusal := s.run (·.islandWake island)
/-- REGISTER_WRITE (R50). -/
def execRegisterWrite (fn bar offset size : Nat) (value : Word64) (s : State) : Host.Outcome State Fault Refusal :=
  s.run (·.registerWrite fn bar offset size value)
/-- GATED_REGISTER_ACCESS (R419). -/
def execGatedRegisterAccess (fn offset : Nat) (write : Bool) (value : Word) (wakes : Bool) (s : State) : Host.Outcome State Fault Refusal :=
  s.run (·.gatedAccess fn offset write value wakes)

end Sys2Proof.Machine
end

