-- ==== Sys2Proof/Machine/Service.lean ====
section
/-! DEFINITION. The owner's service commands: scrub, health and map (R267 to R270, R186, R155, R157, R245), and the berth
service group (R228, R221, R236, R260). -/

namespace Sys2Proof.Machine

/-! ## Scrub on command (R267, R269) -/

/-- Whether SCRUB_START's target is there: a group or a berth, or a namespace with the range named. -/
def Die.scrubTarget (d : Die) (q : KReq) : Option Nat :=
  let t := q.get 4 4
  match q.get 0 1 with
  | 0 => none
  | 1 => if t < 8 then none else some kNotPresent
  | 2 => if d.portServes t then none else some kNotPresent
  | _ => if (d.ns t).alive then none else some kNotPresent

/-- SCRUB_START's first wrong field: a scope or mode that is none, a target where the whole die is meant, a range that leaves the
namespace. -/
def Die.scrubBad (d : Die) (q : KReq) : Option Nat :=
  let n := d.ns (q.get 4 4)
  if 5 < q.get 0 1 then some 0
  else if 2 < q.get 1 1 then some 1
  else if q.get 0 1 = 0 ∧ q.get 4 4 ≠ 0 then some 4
  else if 4 ≤ q.get 0 1 ∧ n.alive = true ∧ n.nsze ≤ q.get 8 8 then some 8
  else if q.get 0 1 = 5 ∧ n.alive = true ∧ n.nsze < q.get 8 8 + q.get 16 8 then some 16
  else if q.get 0 1 = 4 ∧ n.alive = true ∧ n.zoneCount < n.zoneOf (q.get 8 8) + q.get 16 8 then some 16
  else none

/-- SCRUB_START's own part. A zone range of a namespace without zones is a conflict (DESIGN CHOICE, log entry 171). -/
def Die.scrubStart (d : Die) (q : KReq) : KAns :=
  match d.scrubTarget q with
  | some st => .no d st
  | none =>
    if d.se.scrub.st = 1 ∨ (q.get 0 1 = 4 ∧ (d.ns (q.get 4 4)).isZoned = false) then .no d kStateConflict
    else
      let s : Scrub := { id := d.se.scrub.id + 1, st := 1, scope := q.get 0 1, mode := q.get 1 1, target := q.get 4 4, first := q.get 8 8,
                         count := q.get 16 8, begun := d.now }
      .ok { d with se := { d.se with scrub := s } } (le 8 s.id)

/-- Code words in the scope of the scrub: those stored that it would read (R267). -/
def Die.scrubScope (d : Die) : Nat :=
  let inIt := fun (bk k : Nat) => d.inScrub (bk / 8192 / 16) bk (k / 64 % 2048) (k % 64)
  (d.rc.media.filter (fun e => inIt (d.resolveBlock (e.1 / 16 / 8192)) e.1)).length + (d.rc.parity.filter (fun e => inIt (e.1 / 16 / 8192) e.1)).length

/-- SCRUB_STATUS's payload (R387). -/
def Die.scrubStatus (d : Die) : List Byte :=
  let s := d.se.scrub
  le 8 s.id ++ le 1 s.st ++ le 1 s.scope ++ le 1 s.mode ++ le 1 0 ++ le 8 s.cwRead ++ le 8 d.scrubScope ++ le 8 s.recon ++ le 8 s.poisoned

/-- The 64-byte summary (R269). -/
def Scrub.summary (s : Scrub) : List Byte :=
  le 8 s.id ++ le 1 s.scope ++ le 1 s.mode ++ le 1 s.result ++ le 1 0 ++ le 4 s.seconds ++ le 8 s.cwRead ++ le 8 s.soft ++ le 8 s.recon
    ++ le 8 s.poisoned ++ le 4 s.parityBad ++ le 4 s.refreshed ++ le 8 0

/-- SCRUB_ABANDON's own part (R267). -/
def Die.scrubAbandon (d : Die) : KAns := if d.se.scrub.st = 1 then .ok (d.scrubEnded 1) [] else .no d kStateConflict

/-! ## Row width and spare allowance (R245) -/

/-- A value of ROW_WIDTH_SET, or what stands where it is 0. -/
def orOld (new old : Nat) : Nat := if new = 0 then old else new

/-- A group's width and allowance set; a formed group's user capacity computed anew, and one that now has members enough forms (R148,
R245). -/
def Die.widen (d : Die) (k spare g : Nat) : Die :=
  let d := d.updGroup g (fun x => { x with k := orOld k x.k, spare := orOld spare x.spare })
  if (d.group g).formed then d.updGroup g (fun x => { x with userCap := d.computeUserCap g }) else d.formGroup g

/-- The groups a group byte names. -/
def groupsNamed (g : Nat) : List Nat := if g = 0xFF then List.range 8 else [g]

/-- ROW_WIDTH_SET's first wrong field: a value out of range, or a formed group with too few ONLINE berths. -/
def Die.rowWidthBad (d : Die) (q : KReq) : Option Nat :=
  let g := q.get 0 1
  let k := q.get 1 1
  if 8 ≤ g ∧ g ≠ 0xFF then some 0
  else if k ≠ 0 ∧ (k < 6 ∨ 62 < k) then some 1
  else if (groupsNamed g).any (fun g => (d.group g).formed && decide ((d.members g).length < orOld k (d.group g).k + 2)) then some 1
  else if q.get 2 2 ≠ 0 ∧ (q.get 2 2 < 80 ∨ 300 < q.get 2 2) then some 2
  else none

/-- ROW_WIDTH_SET's own part: for every group named or for none. -/
def Die.rowWidthSet (d : Die) (q : KReq) : KAns :=
  let gs := groupsNamed (q.get 0 1)
  let e := gs.foldl (fun x g => x.widen (q.get 1 1) (q.get 2 2) g) d
  if e.fittedDram < dramNeed e.needUser e.rawBytes e.dc.proofGib then .no d kExhausted
  else if gs.any (fun g => (e.group g).formed && decide ((e.group g).userCap < e.groupAlloc g)) then .no d kExhausted
  else .ok (gs.foldl (fun x g => x.groupJoined g) e) []

/-! ## Health and map (R155, R157, R186) -/

/-- Device write amplification over the last hour, times 100 (R187), saturating; 0 while no host data was written. -/
def Die.wa1h (d : Die) : Nat :=
  let l := d.rc.hour.filter (fun e => decide (d.now / 1000000 < e.1 + 3600))
  let m := sumBy (fun e => e.2.1) l
  let h := sumBy (fun e => e.2.2) l
  if h = 0 then 0 else min 65535 (100 * m / h)

/-- One group's 64-byte record (R186). -/
def Die.healthRecord (d : Die) (g : Nat) : List Byte :=
  let x := d.group g
  let ec := d.eraseCounts g
  le 1 g ++ le 1 (d.groupState g) ++ le 2 (d.spareRemaining g) ++ le 4 (d.freeRus g) ++ le 4 (d.totalRus g) ++ le 4 x.retired
    ++ le 2 ec.1 ++ le 2 ec.2.1 ++ le 2 ec.2.2 ++ le 2 (d.peRated g) ++ le 4 (d.validPpm g) ++ le 2 d.wa1h ++ le 2 (d.lifeTerm g)
    ++ le 8 (x.mediaBytes / 65536) ++ le 8 x.refreshed ++ le 8 (d.poisonedIn g) ++ le 8 0

/-- HEALTH_DETAIL's payload (R186). -/
def Die.healthDetail (d : Die) : List Byte :=
  le 8 d.crumbCount ++ le 8 d.crumbLimit ++ le 8 d.mapPagesUsed ++ le 8 d.te.retained ++ (List.range 8).flatMap d.healthRecord

/-- TYPE of a loaf entry (R155, R156). -/
def typeCode : LType → Nat
  | .unmapped => 0
  | .loaf => 1
  | .inflight => 2
  | .part => 3
  | .heel => 4
  | .staged => 5

/-- A loaf entry's 64 bits (R155). -/
def LoafEntry.word (e : LoafEntry) : Nat :=
  let place := if e.typ == .heel || e.typ == .staged then e.prot % 2 ^ 40
    else if e.typ == .unmapped then 0
    else e.loc.slot + e.loc.pu * 2 ^ 2 + e.loc.block * 2 ^ 13 + e.loc.die * 2 ^ 26 + e.loc.port * 2 ^ 30
  place + typeCode e.typ * 2 ^ 40 + e.vmask.toNat * 2 ^ 43 + bit e.crb * 2 ^ 59 + bit e.poison * 2 ^ 60 + e.heat * 2 ^ 61

/-- A crumb entry's 128 bits (R157). -/
def Crumb.word (c : Crumb) (nsid sect : Nat) : Nat :=
  let st := match c.st with | .free => 0 | .media => 1 | .staged => 2
  let place := if c.st == .staged then c.prot % 2 ^ 39 * 2 ^ 64
    else c.loc.port * 2 ^ 64 + c.loc.die * 2 ^ 74 + c.loc.block * 2 ^ 78 + c.loc.pu * 2 ^ 91 + c.sslot * 2 ^ 102
  (nsid - 1) + sect * 2 ^ 14 + st * 2 ^ 54 + bit c.poison * 2 ^ 56 + place + c.wgen.toNat * 2 ^ 108

/-- A PMASK record's 128 bits (R157). -/
def pmaskWord (nsid loaf : Nat) (m : BitVec 16) : Nat := (nsid - 1) + loaf * 16 * 2 ^ 14 + 3 * 2 ^ 54 + m.toNat * 2 ^ 64

/-- The entry of a loaf as the map holds it; a zone's heel stands before the part that settled it. -/
def Ns.shown (n : Ns) (l : Nat) : LoafEntry :=
  match n.zones.find? (fun (z : Nat × Zone) => z.2.heelMask != 0 && n.wpLoaf z.1 == l) with
  | some z => if n.isZoned then { typ := .heel, prot := z.2.heelProt, vmask := z.2.heelMask, poison := (n.entry l).poison } else n.entry l
  | none => n.entry l

/-- MAP_PROBE's own part: the loaf entry, then the loaf's crumb entries and its PMASK record. -/
def Die.mapProbe (d : Die) (q : KReq) : KAns :=
  let nsid := q.get 0 4
  let n := d.ns nsid
  if n.alive = false then .no d kNotPresent
  else if n.home ≠ d.anaGroup then
    match d.anaRefuses nsid with
    | some st => .no d (if st = stAnaTransition then kRefusedMoving else kNotPresent)
    | none => .go (d.kanexForward n.home 0x070A (some q)) 0
  else
    let l := q.get 8 8 / n.lbasPerSector / 16
    let cs := (List.range 16).filter (fun i => (n.crumb (l * 16 + i)).st != .free)
    let pm := Tbl.get 0 n.pmask l
    let recs := cs.flatMap (fun i => le 16 ((n.crumb (l * 16 + i)).word nsid (l * 16 + i))) ++ (if pm = 0 then [] else le 16 (pmaskWord nsid l pm))
    .ok d (le 8 (n.shown l).word ++ le 1 (recs.length / 16) ++ le 7 0 ++ recs)

/-- MAP_PROBE's first wrong field: an LBA past the namespace. -/
def Die.mapProbeBad (d : Die) (q : KReq) : Option Nat :=
  let n := d.ns (q.get 0 4)
  if n.alive = true ∧ n.nsze ≤ q.get 8 8 then some 8 else none

/-! ## The berth service group (R228, R221, R236) -/

/-- Link power as BP_PSTATE gives it. -/
def LPwr.num : LPwr → Nat
  | .l0 => 0
  | .ls => 1
  | .ld => 2
  | .off => 3

/-- A port's 32-byte record (R236). -/
def Port.bytes (x : Port) : List Byte :=
  le 4 (x.st.num + x.cause * 2 ^ 4 + x.lpwr.num * 2 ^ 12 + x.dfence.toNat * 2 ^ 16)
    ++ le 4 (bit x.rate32 + bit x.rxinv * 2 + bit x.brxinv * 4 + x.preset * 2 ^ 3 + x.bpreset * 2 ^ 7 + x.attempts * 2 ^ 16)
    ++ le 4 x.crcerr ++ le 4 x.replays ++ le 4 x.retrains ++ le 4 x.ops ++ le 4 x.passcrc ++ le 4 0

/-- RUs to which a drain of a port would give replacement blocks (R228, R262). -/
def Die.drainNeeds (d : Die) (p : Nat) : List Nat := (d.rusOf p).filter (fun r => !decide (d.validCount r * 4 < d.ruSectors r))

/-- Free blocks on the other ONLINE berths of a port's group, the GC reserve excluded (R228). -/
def Die.drainRoom (d : Die) (p : Nat) : Nat :=
  let g := groupOf p
  sumBy d.freeBlocks ((d.members g).filter (fun x => x != p)) - Config.gcReserve * ((d.group g).k + 2)

/-- BERTH_PREPARE's own part: the drain begins. -/
def Die.berthPrepare (d : Die) (p : Nat) : KAns :=
  if (d.port p).st ≠ .online then .no d kStateConflict
  else if d.drainRoom p < (d.drainNeeds p).length then .no d kExhausted
  else
    let d := d.portTo p .draining 0
    let mine := (d.rusOf p).map (fun r => (r, p))
    .ok { d with se := { d.se with rebuild := d.se.rebuild.filter (fun e => !mine.contains e) ++ mine } } []

/-- Whether a row of an RU with a block on the berth already lacks a member (R228). -/
def Die.rowsLack (d : Die) (p : Nat) : Bool := (d.rusHeld p).any (fun r => decide (0 < d.goneCount r) || !(d.ru r).lost.isEmpty)

/-- BERTH_RELEASE's own part: the berth counts as missing with a window of 0 (R260). -/
def Die.berthRelease (d : Die) (p : Nat) : KAns :=
  if (d.port p).st ≠ .online ∨ d.rowsLack p = true then .no d kStateConflict
  else .ok ((((d.sendLmgt p lmgtRelease 0).portTo p .released 0).goMissing p 0).clearEmptyGroup (groupOf p)) []

/-- BERTH_CANCEL's own part: what was moved stays where it is. -/
def Die.berthCancel (d : Die) (p : Nat) : KAns :=
  if (d.port p).st ≠ .draining then .no d kStateConflict
  else
    let d := d.portTo p .online 0
    let d := d.rc.rus.foldl (fun (x : Die) e => (e.2.rebuild.filter (fun b => b.port == p)).foldl (fun (y : Die) b => y.rebuildBreak e.1 b.pos) x) d
    .ok { d with se := { d.se with rebuild := d.se.rebuild.filter (fun e => e.2 != p) } } []

/-- BERTH_ADMIT's own part. -/
def Die.berthAdmit (d : Die) (p : Nat) (erase : Bool) : KAns :=
  let st := (d.port p).st
  if (st ≠ .released ∧ st ≠ .quarantine) ∨ (erase = true ∧ st ≠ .quarantine) then .no d kStateConflict
  else .ok (((d.portTo p .powering 0).updPort p (fun x => { x with
    attn := false, eraseSys := erase, reread := false })).switchOn p) []

/-- BERTH_CLEAR_FAULT's own part. -/
def Die.berthClear (d : Die) (p : Nat) : KAns :=
  if (d.port p).st ≠ .fault then .no d kStateConflict
  else .ok ((d.portTo p .present 0).powerPort p) []

/-- The cycles of a tunnel sequence: type and value (R221). -/
def tunnelCycles (q : KReq) (n : Nat) : List (Nat × Nat) := (List.range (n / 2)).map (fun i => (q.get (8 + 2 * i) 1, q.get (9 + 2 * i) 1))

/-- The bytes a sequence reads from the die. -/
def tunnelReads (cs : List (Nat × Nat)) : Nat := sumBy (fun c => if c.1 = 4 then c.2 else 0) cs

/-- BERTH_TUNNEL's first wrong field. -/
def tunnelBad (q : KReq) : Option Nat :=
  if 16 ≤ q.get 2 1 then some 2
  else if q.get 4 2 < 2 ∨ 512 < q.get 4 2 then some 4
  else if q.len < 8 + q.get 4 2 then some q.len
  else if 4060 < tunnelReads (tunnelCycles q (q.get 4 2)) then some 8 else none

/-- BERTH_TUNNEL's own part (R221): it waits for the die's operations, then the sequence goes to the berth alone, which judges it; the
answer waits for its RSP and gives the bytes that RDATA brought; returned are those bytes where no RDATA row has brought them. -/
def Die.berthTunnel (d : Die) (q : KReq) (returned : List Byte) : KAns :=
  let p := q.get 0 2
  let die := q.get 2 1
  let n := q.get 4 2
  match (d.port p).passport with
  | none => .no d kNotPresent
  | some x =>
    if d.portServes p = false ∨ (d.port p).dfence.getLsbD die = true then .no d kStateConflict
    else if x.dies ≤ die then .no d kNotPresent
    else match (d.dsch (dieKey p die)).tunnelRsp with
      | some st =>
        let reads := tunnelReads (tunnelCycles q n)
        let bytes := if (d.port p).sysData.isEmpty then returned else (d.port p).sysData
        let d := (d.updDsch (dieKey p die) (fun s => { s with tunnelRsp := none })).updPort p (fun y => { y with sysData := [] })
        if st = 0 then .ok d (le 2 reads ++ le 2 0 ++ padTo reads bytes) else .no d (openStatus 0x0B07 0)
      | none =>
        if (d.dsch (dieKey p die)).tunnel = true ∨ (d.outstAt p die).isEmpty = false ∨ (d.port p).canSend = false then .wait d
        else .wait ((d.updDsch (dieKey p die) (fun s => { s with tunnel := true })).issueOp
          { port := p, die := die, op := opTunnel, xlen := n, system := true, what := .tunnel ((q.payload.drop 8).take n) })

/-- BERTH_PASSPORT's own part (R228). -/
def Die.berthPassport (d : Die) (p : Nat) : KAns :=
  let st := (d.port p).st
  if Config.ports ≤ p ∨ st = .absent then .no d kNotPresent
  else if st = .present ∨ st = .powering ∨ st = .training then .no d kStateConflict
  else match (d.port p).passport with
    | some x => .ok d (padTo 512 x.raw)
    | none => .no d kStateConflict

/-- PORT_ENABLE_SET's own part: a port that waits in PRESENT goes on once enabled (R227, R228). -/
def Die.portEnable (d : Die) (p : Nat) (on : Bool) : KAns :=
  if Config.ports ≤ p ∧ p ≠ 0xFFFF then .no d kNotPresent
  else .ok ((if p = 0xFFFF then List.range Config.ports else [p]).foldl (fun x n => (x.updPort n (fun y => { y with enabled := on })).powerPort n) d) []

/-- A command that names one port. -/
def Die.onPort (d : Die) (q : KReq) (f : Die → Nat → KAns) : KAns :=
  if Config.ports ≤ q.get 0 2 then .no d kNotPresent else f d (q.get 0 2)

/-! ## The meanings -/

/-- SCRUB_START (R267). -/
def execScrubStart (q : KReq) (s : State) : Host.Outcome State Fault Refusal :=
  s.run (·.kanex q { op := 0x0701, need := 24, used := [(0, 2), (4, 20)], bad := fun d => d.scrubBad q, body := fun d => d.scrubStart q })
/-- SCRUB_STATUS (R387). -/
def execScrubStatus (q : KReq) (s : State) : Host.Outcome State Fault Refusal :=
  s.run (·.kanex q { op := 0x0702, body := fun d => .ok d d.scrubStatus })
/-- SCRUB_ABANDON (R267). -/
def execScrubAbandon (q : KReq) (s : State) : Host.Outcome State Fault Refusal :=
  s.run (·.kanex q { op := 0x0703, body := fun d => d.scrubAbandon })
/-- SCRUB_SUMMARY (R269). -/
def execScrubSummary (q : KReq) (s : State) : Host.Outcome State Fault Refusal :=
  s.run (·.kanex q { op := 0x0704, body := fun d => .ok d d.se.scrubDone.summary })
/-- SCRUB_END (R269): RESULT is 0, 1 or 2. -/
def execScrubEnd (result : Nat) (s : State) : Host.Outcome State Fault Refusal := s.run (fun d => if result ≤ 2 then d.scrubEnded result else d)
/-- PATROL_SET (R266). -/
def execPatrolSet (q : KReq) (s : State) : Host.Outcome State Fault Refusal :=
  s.run (·.kanex q { op := 0x0705, need := 2, used := [(0, 2)], bad := fun _ => if q.get 0 2 < 1 ∨ 90 < q.get 0 2 then some 0 else none
                     body := fun d => .ok { d with rc := { d.rc with patrolDays := q.get 0 2 } } [] })
/-- ROW_WIDTH_SET (R245). -/
def execRowWidthSet (q : KReq) (s : State) : Host.Outcome State Fault Refusal :=
  s.run (·.kanex q { op := 0x0706, need := 4, used := [(0, 4)], bad := fun d => d.rowWidthBad q, body := fun d => d.rowWidthSet q })
/-- POISON_FWD_SET (R270). -/
def execPoisonFwdSet (q : KReq) (s : State) : Host.Outcome State Fault Refusal :=
  s.run (·.kanex q { op := 0x0707, need := 3, used := [(0, 3)], bad := fun _ => if 1 < q.get 2 1 then some 2 else none
                     body := fun d => if Config.functions ≤ q.get 0 2 then .no d kNotPresent
                       else .ok (d.updFn (q.get 0 2) (fun f => { f with poisonFwd := q.get 2 1 == 1 })) [] })
/-- SPARE_THRESH_SET (R184). -/
def execSpareThreshSet (q : KReq) (s : State) : Host.Outcome State Fault Refusal :=
  s.run (·.kanex q { op := 0x0708, need := 1, used := [(0, 1)], bad := fun _ => if 100 < q.get 0 1 then some 0 else none
                     body := fun d => .ok (({ d with rc := { d.rc with spareThresh := q.get 0 1 } } : Die).checkSpare) [] })
/-- HEALTH_DETAIL (R186). -/
def execHealthDetail (q : KReq) (s : State) : Host.Outcome State Fault Refusal :=
  s.run (·.kanex q { op := 0x0709, body := fun d => .ok d d.healthDetail })
/-- MAP_PROBE (R155, R157). -/
def execMapProbe (q : KReq) (s : State) : Host.Outcome State Fault Refusal :=
  s.run (·.kanex q { op := 0x070A, need := 16, used := [(0, 4), (8, 8)], bad := fun d => d.mapProbeBad q, body := fun d => d.mapProbe q })
/-- BERTH_STATUS (R236). -/
def execBerthStatus (q : KReq) (s : State) : Host.Outcome State Fault Refusal :=
  s.run (·.kanex q { op := 0x0B01, body := fun d => .paged d Config.ports 32 (fun p => (d.port p).bytes) })
/-- BERTH_PREPARE (R228, R264). -/
def execBerthPrepare (q : KReq) (s : State) : Host.Outcome State Fault Refusal :=
  s.run (·.kanex q { op := 0x0B02, need := 2, used := [(0, 2)], body := fun d => d.onPort q (fun d p => d.berthPrepare p) })
/-- BERTH_RELEASE (R228, R260). -/
def execBerthRelease (q : KReq) (s : State) : Host.Outcome State Fault Refusal :=
  s.run (·.kanex q { op := 0x0B03, need := 2, used := [(0, 2)], body := fun d => d.onPort q (fun d p => d.berthRelease p) })
/-- BERTH_CANCEL (R227). -/
def execBerthCancel (q : KReq) (s : State) : Host.Outcome State Fault Refusal :=
  s.run (·.kanex q { op := 0x0B04, need := 2, used := [(0, 2)], body := fun d => d.onPort q (fun d p => d.berthCancel p) })
/-- BERTH_ADMIT (R227, R228). -/
def execBerthAdmit (q : KReq) (s : State) : Host.Outcome State Fault Refusal :=
  s.run (·.kanex q { op := 0x0B05, need := 3, used := [(0, 3)], bad := fun _ => if 1 < q.get 2 1 then some 2 else none
                     body := fun d => d.onPort q (fun d p => d.berthAdmit p (q.get 2 1 == 1)) })
/-- BERTH_CLEAR_FAULT (R227). -/
def execBerthClearFault (q : KReq) (s : State) : Host.Outcome State Fault Refusal :=
  s.run (·.kanex q { op := 0x0B06, need := 2, used := [(0, 2)], body := fun d => d.onPort q (fun d p => d.berthClear p) })
/-- BERTH_TUNNEL (R221): returned are the bytes the die sends back. -/
def execBerthTunnel (q : KReq) (returned : List Byte) (s : State) : Host.Outcome State Fault Refusal :=
  s.run (·.kanex q { op := 0x0B07, need := 8, used := [(0, 3), (4, 2), (8, q.get 4 2)], bad := fun _ => tunnelBad q
                     body := fun d => d.onPort q (fun d _ => d.berthTunnel q returned) })
/-- BERTH_PASSPORT (R228). -/
def execBerthPassport (q : KReq) (s : State) : Host.Outcome State Fault Refusal :=
  s.run (·.kanex q { op := 0x0B08, need := 2, used := [(0, 2)], body := fun d => d.berthPassport (q.get 0 2) })
/-- PORT_ENABLE_SET (R228). -/
def execPortEnableSet (q : KReq) (s : State) : Host.Outcome State Fault Refusal :=
  s.run (·.kanex q { op := 0x0B09, need := 3, used := [(0, 3)], bad := fun _ => if 1 < q.get 2 1 then some 2 else none
                     body := fun d => d.portEnable (q.get 0 2) (q.get 2 1 == 1) })
/-- REJOIN_WINDOW_SET (R260). -/
def execRejoinWindowSet (q : KReq) (s : State) : Host.Outcome State Fault Refusal :=
  s.run (·.kanex q { op := 0x0B0A, need := 2, used := [(0, 2)], bad := fun _ => if 600 < q.get 0 2 then some 0 else none
                     body := fun d => .ok { d with se := { d.se with rejoin := q.get 0 2 } } [] })

end Sys2Proof.Machine
end

