-- ==== Sys2Proof/Machine/Dispatch.lean ====
section
/-! DEFINITION. One arm for each command: a direct call of its meaning. -/

namespace Sys2Proof.Machine

/-- The effect of a command on everything but the queue. -/
def exec (i : Instr) (s : State) : Host.Outcome State Fault Refusal :=
  match i with
  | .powerOnReset e => Sys2Proof.Machine.execPowerOnReset e s
  | .supplyLoss => Sys2Proof.Machine.execSupplyLoss s
  | .coldRstNRise e => Sys2Proof.Machine.execColdRstNRise e s
  | .coldRstNFall d => Sys2Proof.Machine.execColdRstNFall d s
  | .startWatchdogExpiry e => Sys2Proof.Machine.execStartWatchdogExpiry e s
  | .deviceRestart e => Sys2Proof.Machine.execDeviceRestart e s
  | .pfNFall d => Sys2Proof.Machine.execPfNFall d s
  | .pfNRise stillHigh e => Sys2Proof.Machine.execPfNRise stillHigh e s
  | .railOutOfWindow r d => Sys2Proof.Machine.execRailOutOfWindow r d s
  | .refclkLoss n u => Sys2Proof.Machine.execRefclkLoss n u s
  | .handshakeStall subsys inst resetClears d => Sys2Proof.Machine.execHandshakeStall subsys inst resetClears d s
  | .ladderIdleReset level inst => Sys2Proof.Machine.execLadderIdleReset level inst s
  | .gatedIslandWake island => Sys2Proof.Machine.execGatedIslandWake island s
  | .gatedRegisterAccess fn offset write value wakes => Sys2Proof.Machine.execGatedRegisterAccess fn offset write value wakes s
  | .heldWritesRelease => Sys2Proof.Machine.execHeldWritesRelease s
  | .ucieTraining u => Sys2Proof.Machine.execUcieTraining u s
  | .laneError module lane u => Sys2Proof.Machine.execLaneError module lane u s
  | .flitCrcError => Sys2Proof.Machine.execFlitCrcError s
  | .dlDown cause => Sys2Proof.Machine.execDlDown cause s
  | .l1Request completionDue => Sys2Proof.Machine.execL1Request completionDue s
  | .l2Request => Sys2Proof.Machine.execL2Request s
  | .outOfBarRequest fn addr write => Sys2Proof.Machine.execOutOfBarRequest fn addr write s
  | .registerWrite fn bar offset size value => Sys2Proof.Machine.execRegisterWrite fn bar offset size value s
  | .ferrWrite fn value => Sys2Proof.Machine.execFerrWrite fn value s
  | .hostReadFailure tag status => Sys2Proof.Machine.execHostReadFailure tag status s
  | .poisonedTlpReceived tag => Sys2Proof.Machine.execPoisonedTlpReceived tag s
  | .sqFetchFail fn sq => Sys2Proof.Machine.execSqFetchFail fn sq s
  | .flr fn => Sys2Proof.Machine.execFlr fn s
  | .conventionalReset => Sys2Proof.Machine.execConventionalReset s
  | .vfEnableWrite enable numVfs => Sys2Proof.Machine.execVfEnableWrite enable numVfs s
  | .d3hotEntry fn => Sys2Proof.Machine.execD3hotEntry fn s
  | .ccEnSet fn cc => Sys2Proof.Machine.execCcEnSet fn cc s
  | .ccEnClear fn cc => Sys2Proof.Machine.execCcEnClear fn cc s
  | .ccShnNormal fn => Sys2Proof.Machine.execCcShnNormal fn s
  | .ccShnAbrupt fn => Sys2Proof.Machine.execCcShnAbrupt fn s
  | .functionReady fn => Sys2Proof.Machine.execFunctionReady fn s
  | .teardownComplete fn => Sys2Proof.Machine.execTeardownComplete fn s
  | .teardownLate fn => Sys2Proof.Machine.execTeardownLate fn s
  | .msixEnableWrite fn enable => Sys2Proof.Machine.execMsixEnableWrite fn enable s
  | .vectorMaskWrite fn vector mask => Sys2Proof.Machine.execVectorMaskWrite fn vector mask s
  | .sqTailDoorbell fn y value aligned => Sys2Proof.Machine.execSqTailDoorbell fn y value aligned s
  | .cqHeadDoorbell fn y value aligned => Sys2Proof.Machine.execCqHeadDoorbell fn y value aligned s
  | .sqEntryFetch fn sq tag entry => Sys2Proof.Machine.execSqEntryFetch fn sq tag entry s
  | .commandAdmit tag => Sys2Proof.Machine.execCommandAdmit tag s
  | .completionPost tag => Sys2Proof.Machine.execCompletionPost tag s
  | .moderationTimerDue fn v => Sys2Proof.Machine.execModerationTimerDue fn v s
  | .internalTimeout tag => Sys2Proof.Machine.execInternalTimeout tag s
  | .failFastDeadline tag => Sys2Proof.Machine.execFailFastDeadline tag s
  | .read tag => Sys2Proof.Machine.execRead tag s
  | .write tag => Sys2Proof.Machine.execWrite tag s
  | .zoneAppend tag => Sys2Proof.Machine.execZoneAppend tag s
  | .writeZeroes tag => Sys2Proof.Machine.execWriteZeroes tag s
  | .datasetManagement tag ranges => Sys2Proof.Machine.execDatasetManagement tag ranges s
  | .flush tag => Sys2Proof.Machine.execFlush tag s
  | .verify tag => Sys2Proof.Machine.execVerify tag s
  | .ioManagementReceive tag => Sys2Proof.Machine.execIoManagementReceive tag s
  | .ioManagementSend tag pids => Sys2Proof.Machine.execIoManagementSend tag pids s
  | .zoneOpen tag => Sys2Proof.Machine.execZoneOpen tag s
  | .zoneClose tag => Sys2Proof.Machine.execZoneClose tag s
  | .zoneFinish tag => Sys2Proof.Machine.execZoneFinish tag s
  | .zoneReset tag => Sys2Proof.Machine.execZoneReset tag s
  | .zoneOffline tag => Sys2Proof.Machine.execZoneOffline tag s
  | .setZoneDescriptorExtension tag => Sys2Proof.Machine.execSetZoneDescriptorExtension tag s
  | .reportZones tag => Sys2Proof.Machine.execReportZones tag s
  | .zoneGateOpen tag => Sys2Proof.Machine.execZoneGateOpen tag s
  | .heelSettle ns zone => Sys2Proof.Machine.execHeelSettle ns zone s
  | .createIoSq tag => Sys2Proof.Machine.execCreateIoSq tag s
  | .createIoCq tag => Sys2Proof.Machine.execCreateIoCq tag s
  | .deleteIoSq tag => Sys2Proof.Machine.execDeleteIoSq tag s
  | .deleteIoCq tag => Sys2Proof.Machine.execDeleteIoCq tag s
  | .getLogPage tag => Sys2Proof.Machine.execGetLogPage tag s
  | .nvmeIdentify tag => Sys2Proof.Machine.execNvmeIdentify tag s
  | .abort tag => Sys2Proof.Machine.execAbort tag s
  | .setFeatures tag data => Sys2Proof.Machine.execSetFeatures tag data s
  | .setFeaturesInterruptCoalescing tag => Sys2Proof.Machine.execSetFeaturesInterruptCoalescing tag s
  | .setFeaturesInterruptVectorConfig tag => Sys2Proof.Machine.execSetFeaturesInterruptVectorConfig tag s
  | .setFeaturesNumberOfQueues tag => Sys2Proof.Machine.execSetFeaturesNumberOfQueues tag s
  | .setFeaturesFdp tag => Sys2Proof.Machine.execSetFeaturesFdp tag s
  | .getFeatures tag => Sys2Proof.Machine.execGetFeatures tag s
  | .asynchronousEventRequest tag => Sys2Proof.Machine.execAsynchronousEventRequest tag s
  | .namespaceManagementCreate tag data => Sys2Proof.Machine.execNamespaceManagementCreate tag data s
  | .namespaceManagementDelete tag => Sys2Proof.Machine.execNamespaceManagementDelete tag s
  | .namespaceAttach tag ctrls => Sys2Proof.Machine.execNamespaceAttach tag ctrls s
  | .namespaceDetach tag ctrls => Sys2Proof.Machine.execNamespaceDetach tag ctrls s
  | .formatNvm tag => Sys2Proof.Machine.execFormatNvm tag s
  | .formatNvmCryptoErase tag => Sys2Proof.Machine.execFormatNvmCryptoErase tag s
  | .firmwareImageDownload tag last hdr badBlocks => Sys2Proof.Machine.execFirmwareImageDownload tag last hdr badBlocks s
  | .firmwareCommitVerify tag v => Sys2Proof.Machine.execFirmwareCommitVerify tag v s
  | .firmwareCommitNextStart tag v => Sys2Proof.Machine.execFirmwareCommitNextStart tag v s
  | .firmwareCommitSlot tag v => Sys2Proof.Machine.execFirmwareCommitSlot tag v s
  | .firmwareCommitLive tag v dieFails => Sys2Proof.Machine.execFirmwareCommitLive tag v dieFails s
  | .deviceSelfTestShort tag => Sys2Proof.Machine.execDeviceSelfTestShort tag s
  | .deviceSelfTestExtended tag => Sys2Proof.Machine.execDeviceSelfTestExtended tag s
  | .deviceSelfTestAbort tag => Sys2Proof.Machine.execDeviceSelfTestAbort tag s
  | .nvmeMiBasicManagement => Sys2Proof.Machine.execNvmeMiBasicManagement s
  | .writeDataPulled tag data hmeta => Sys2Proof.Machine.execWriteDataPulled tag data hmeta s
  | .rangeLockGrant tag => Sys2Proof.Machine.execRangeLockGrant tag s
  | .conventionalDrain ns loaf => Sys2Proof.Machine.execConventionalDrain ns loaf s
  | .dieDispatch port die => Sys2Proof.Machine.execDieDispatch port die s
  | .accountingWindow => Sys2Proof.Machine.execAccountingWindow s
  | .trainingAttempt port shortTx termination => Sys2Proof.Machine.execTrainingAttempt port shortTx termination s
  | .ts1Received port ts => Sys2Proof.Machine.execTs1Received port ts s
  | .ts2Received port ts => Sys2Proof.Machine.execTs2Received port ts s
  | .skpReceived port => Sys2Proof.Machine.execSkpReceived port s
  | .eiosReceived port => Sys2Proof.Machine.execEiosReceived port s
  | .wakeOrderedSetReceived port => Sys2Proof.Machine.execWakeOrderedSetReceived port s
  | .trainingStepTimeout port step => Sys2Proof.Machine.execTrainingStepTimeout port step s
  | .flitCrcDiscard port hdr => Sys2Proof.Machine.execFlitCrcDiscard port hdr s
  | .nopReceived port hdr => Sys2Proof.Machine.execNopReceived port hdr s
  | .nakRepeat port => Sys2Proof.Machine.execNakRepeat port s
  | .berthLinkSilence port => Sys2Proof.Machine.execBerthLinkSilence port s
  | .retrainTimeout port => Sys2Proof.Machine.execRetrainTimeout port s
  | .rspReceived port rsp => Sys2Proof.Machine.execRspReceived port rsp s
  | .rdataReceived port hdr desc => Sys2Proof.Machine.execRdataReceived port hdr desc s
  | .evtTempWarn port die value => Sys2Proof.Machine.execEvtTempWarn port die value s
  | .evtTempCrit port die value => Sys2Proof.Machine.execEvtTempCrit port die value s
  | .evtTempOk port die value => Sys2Proof.Machine.execEvtTempOk port die value s
  | .evtPowerWarn port die value => Sys2Proof.Machine.execEvtPowerWarn port die value s
  | .evtBridgeError port die value => Sys2Proof.Machine.execEvtBridgeError port die value s
  | .creditInit port short long => Sys2Proof.Machine.execCreditInit port short long s
  | .pwrAck port => Sys2Proof.Machine.execPwrAck port s
  | .pwrNak port => Sys2Proof.Machine.execPwrNak port s
  | .dockEcho port => Sys2Proof.Machine.execDockEcho port s
  | .releaseDone port => Sys2Proof.Machine.execReleaseDone port s
  | .bridgeResetDone port => Sys2Proof.Machine.execBridgeResetDone port s
  | .retrainReq port => Sys2Proof.Machine.execRetrainReq port s
  | .lmgtRepeat port => Sys2Proof.Machine.execLmgtRepeat port s
  | .linkIdleLs port => Sys2Proof.Machine.execLinkIdleLs port s
  | .linkIdleLd port => Sys2Proof.Machine.execLinkIdleLd port s
  | .berthErrorRate port => Sys2Proof.Machine.execBerthErrorRate port s
  | .nandOpTimeout port otag resetFails => Sys2Proof.Machine.execNandOpTimeout port otag resetFails s
  | .slotIbi controller present pwrGood oc => Sys2Proof.Machine.execSlotIbi controller present pwrGood oc s
  | .slotPoll controller present pwrGood oc => Sys2Proof.Machine.execSlotPoll controller present pwrGood oc s
  | .presenceStable port present => Sys2Proof.Machine.execPresenceStable port present s
  | .slotControllerSilent controller => Sys2Proof.Machine.execSlotControllerSilent controller s
  | .powerGood port => Sys2Proof.Machine.execPowerGood port s
  | .powerGoodTimeout port => Sys2Proof.Machine.execPowerGoodTimeout port s
  | .overcurrent port => Sys2Proof.Machine.execOvercurrent port s
  | .shortDetected port tx => Sys2Proof.Machine.execShortDetected port tx s
  | .rejoinWindowEnd port => Sys2Proof.Machine.execRejoinWindowEnd port s
  | .rebuildRu ru port => Sys2Proof.Machine.execRebuildRu ru port s
  | .drainComplete port => Sys2Proof.Machine.execDrainComplete port s
  | .decodeDone job outcome => Sys2Proof.Machine.execDecodeDone job outcome s
  | .cipherSectorDone job pair outcome slicePass => Sys2Proof.Machine.execCipherSectorDone job pair outcome slicePass s
  | .journalSegmentWrite => Sys2Proof.Machine.execJournalSegmentWrite s
  | .journalSegmentDurable seg => Sys2Proof.Machine.execJournalSegmentDurable seg s
  | .checkpointCycleStart => Sys2Proof.Machine.execCheckpointCycleStart s
  | .checkpointCycleComplete => Sys2Proof.Machine.execCheckpointCycleComplete s
  | .gcPass group => Sys2Proof.Machine.execGcPass group s
  | .foldScan ns loaf => Sys2Proof.Machine.execFoldScan ns loaf s
  | .mediaPatrol port die block pu cw outcome => Sys2Proof.Machine.execMediaPatrol port die block pu cw outcome s
  | .dramWriteDrain ch => Sys2Proof.Machine.execDramWriteDrain ch s
  | .mergeBufferTimeout ch line => Sys2Proof.Machine.execMergeBufferTimeout ch line s
  | .dramPatrol ch line word outcome => Sys2Proof.Machine.execDramPatrol ch line word outcome s
  | .refreshWindow => Sys2Proof.Machine.execRefreshWindow s
  | .granuleCopyDone granule uncorrectable => Sys2Proof.Machine.execGranuleCopyDone granule uncorrectable s
  | .channelFailure ch => Sys2Proof.Machine.execChannelFailure ch s
  | .trayAlloc unit inst bytes use link => Sys2Proof.Machine.execTrayAlloc unit inst bytes use link s
  | .trayShare unit inst size tray rcv => Sys2Proof.Machine.execTrayShare unit inst size tray rcv s
  | .trayFree unit inst size tray => Sys2Proof.Machine.execTrayFree unit inst size tray s
  | .abandon fn seq => Sys2Proof.Machine.execAbandon fn seq s
  | .kanexTimeout fn => Sys2Proof.Machine.execKanexTimeout fn s
  | .identify q => Sys2Proof.Machine.execIdentify q s
  | .catalogueGet q => Sys2Proof.Machine.execCatalogueGet q s
  | .policyGet q => Sys2Proof.Machine.execPolicyGet q s
  | .policySet q => Sys2Proof.Machine.execPolicySet q s
  | .tenantCreate q => Sys2Proof.Machine.execTenantCreate q s
  | .tenantDelete q => Sys2Proof.Machine.execTenantDelete q s
  | .tenantSet q => Sys2Proof.Machine.execTenantSet q s
  | .tenantGet q => Sys2Proof.Machine.execTenantGet q s
  | .tenantList q => Sys2Proof.Machine.execTenantList q s
  | .nsShare q => Sys2Proof.Machine.execNsShare q s
  | .nsUnshare q => Sys2Proof.Machine.execNsUnshare q s
  | .funcFence q => Sys2Proof.Machine.execFuncFence q s
  | .nsCreate q => Sys2Proof.Machine.execNsCreate q s
  | .nsDelete q => Sys2Proof.Machine.execNsDelete q s
  | .nsList q => Sys2Proof.Machine.execNsList q s
  | .zoneSetRo q => Sys2Proof.Machine.execZoneSetRo q s
  | .keyInfo q => Sys2Proof.Machine.execKeyInfo q s
  | .keyGenerate q => Sys2Proof.Machine.execKeyGenerate q s
  | .keyImport q unwraps key => Sys2Proof.Machine.execKeyImport q unwraps key s
  | .keyRotate q => Sys2Proof.Machine.execKeyRotate q s
  | .keyMigrate q tagFails => Sys2Proof.Machine.execKeyMigrate q tagFails s
  | .keyRetire q => Sys2Proof.Machine.execKeyRetire q s
  | .keyCryptoErase q => Sys2Proof.Machine.execKeyCryptoErase q s
  | .keyLockSet q => Sys2Proof.Machine.execKeyLockSet q s
  | .keyUnlock q => Sys2Proof.Machine.execKeyUnlock q s
  | .keyAgreePub q => Sys2Proof.Machine.execKeyAgreePub q s
  | .profileGet q => Sys2Proof.Machine.execProfileGet q s
  | .profileSet q => Sys2Proof.Machine.execProfileSet q s
  | .powerCapSet q => Sys2Proof.Machine.execPowerCapSet q s
  | .histogramRead q => Sys2Proof.Machine.execHistogramRead q s
  | .thermalStatus q => Sys2Proof.Machine.execThermalStatus q s
  | .paceStatus q => Sys2Proof.Machine.execPaceStatus q s
  | .powerStateSet q => Sys2Proof.Machine.execPowerStateSet q s
  | .breakwaterStatus q => Sys2Proof.Machine.execBreakwaterStatus q s
  | .breakwaterTest q => Sys2Proof.Machine.execBreakwaterTest q s
  | .sensorExclude q => Sys2Proof.Machine.execSensorExclude q s
  | .logRead q => Sys2Proof.Machine.execLogRead q s
  | .logStatus q => Sys2Proof.Machine.execLogStatus q s
  | .logMark q => Sys2Proof.Machine.execLogMark q s
  | .scrubStart q => Sys2Proof.Machine.execScrubStart q s
  | .scrubStatus q => Sys2Proof.Machine.execScrubStatus q s
  | .scrubAbandon q => Sys2Proof.Machine.execScrubAbandon q s
  | .scrubSummary q => Sys2Proof.Machine.execScrubSummary q s
  | .scrubEnd result => Sys2Proof.Machine.execScrubEnd result s
  | .patrolSet q => Sys2Proof.Machine.execPatrolSet q s
  | .rowWidthSet q => Sys2Proof.Machine.execRowWidthSet q s
  | .poisonFwdSet q => Sys2Proof.Machine.execPoisonFwdSet q s
  | .spareThreshSet q => Sys2Proof.Machine.execSpareThreshSet q s
  | .healthDetail q => Sys2Proof.Machine.execHealthDetail q s
  | .mapProbe q => Sys2Proof.Machine.execMapProbe q s
  | .selftestRun q => Sys2Proof.Machine.execSelftestRun q s
  | .selftestStatus q => Sys2Proof.Machine.execSelftestStatus q s
  | .selftestCatalogue q => Sys2Proof.Machine.execSelftestCatalogue q s
  | .unitRestore q pass => Sys2Proof.Machine.execUnitRestore q pass s
  | .selftestSlice kind inst free pass => Sys2Proof.Machine.execSelftestSlice kind inst free pass s
  | .updBegin q hdr => Sys2Proof.Machine.execUpdBegin q hdr s
  | .updBlock q crcOk => Sys2Proof.Machine.execUpdBlock q crcOk s
  | .updVerify q v => Sys2Proof.Machine.execUpdVerify q v s
  | .updActivate q dieFails e => Sys2Proof.Machine.execUpdActivate q dieFails e s
  | .activationHoldExpiry => Sys2Proof.Machine.execActivationHoldExpiry s
  | .updConfirm q => Sys2Proof.Machine.execUpdConfirm q s
  | .confirmationWindowEnd => Sys2Proof.Machine.execConfirmationWindowEnd s
  | .updStatus q => Sys2Proof.Machine.execUpdStatus q s
  | .updDiscard q => Sys2Proof.Machine.execUpdDiscard q s
  | .hierStatus q => Sys2Proof.Machine.execHierStatus q s
  | .workerAdmit q => Sys2Proof.Machine.execWorkerAdmit q s
  | .workerRetire q => Sys2Proof.Machine.execWorkerRetire q s
  | .berthAdopt q => Sys2Proof.Machine.execBerthAdopt q s
  | .hierProfileSet q => Sys2Proof.Machine.execHierProfileSet q s
  | .berthStatus q => Sys2Proof.Machine.execBerthStatus q s
  | .berthPrepare q => Sys2Proof.Machine.execBerthPrepare q s
  | .berthRelease q => Sys2Proof.Machine.execBerthRelease q s
  | .berthCancel q => Sys2Proof.Machine.execBerthCancel q s
  | .berthAdmit q => Sys2Proof.Machine.execBerthAdmit q s
  | .berthClearFault q => Sys2Proof.Machine.execBerthClearFault q s
  | .berthTunnel q returned => Sys2Proof.Machine.execBerthTunnel q returned s
  | .berthPassport q => Sys2Proof.Machine.execBerthPassport q s
  | .portEnableSet q => Sys2Proof.Machine.execPortEnableSet q s
  | .rejoinWindowSet q => Sys2Proof.Machine.execRejoinWindowSet q s
  | .dramStatus q => Sys2Proof.Machine.execDramStatus q s
  | .dramVacate q => Sys2Proof.Machine.execDramVacate q s
  | .dramCancel q => Sys2Proof.Machine.execDramCancel q s
  | .dramRejoin q f => Sys2Proof.Machine.execDramRejoin q f s
  | .proofSizeSet q => Sys2Proof.Machine.execProofSizeSet q s
  | .traySplitSet q => Sys2Proof.Machine.execTraySplitSet q s
  | .dramInject q => Sys2Proof.Machine.execDramInject q s
  | .eventInject q => Sys2Proof.Machine.execEventInject q s
  | .sensorOverride q => Sys2Proof.Machine.execSensorOverride q s
  | .eventOccurrence src payload => Sys2Proof.Machine.execEventOccurrence src payload s
  | .eventClaim src => Sys2Proof.Machine.execEventClaim src s
  | .eoi core src => Sys2Proof.Machine.execEoi core src s
  | .evcSrcCfgWrite src value => Sys2Proof.Machine.execEvcSrcCfgWrite src value s
  | .evcGctrlWrite value => Sys2Proof.Machine.execEvcGctrlWrite value s
  | .evcRqHeadWrite value => Sys2Proof.Machine.execEvcRqHeadWrite value s
  | .coreWatchdog core d => Sys2Proof.Machine.execCoreWatchdog core d s
  | .qeVmodWrite fn v value => Sys2Proof.Machine.execQeVmodWrite fn v value s
  | .qeNdefWrite fn value => Sys2Proof.Machine.execQeNdefWrite fn value s
  | .idleTimerP1 => Sys2Proof.Machine.execIdleTimerP1 s
  | .idleTimerP2 => Sys2Proof.Machine.execIdleTimerP2 s
  | .wakeSource code failedBanks lostChannels berths => Sys2Proof.Machine.execWakeSource code failedBanks lostChannels berths s
  | .paceSample paces => Sys2Proof.Machine.execPaceSample paces s
  | .vcoreAdjust powerDw => Sys2Proof.Machine.execVcoreAdjust powerDw s
  | .avsAbsent => Sys2Proof.Machine.execAvsAbsent s
  | .oscTrim => Sys2Proof.Machine.execOscTrim s
  | .clockLost => Sys2Proof.Machine.execClockLost s
  | .sensorSample readings d => Sys2Proof.Machine.execSensorSample readings d s
  | .throttleStepTimer => Sys2Proof.Machine.execThrottleStepTimer s
  | .breakwaterSample mV => Sys2Proof.Machine.execBreakwaterSample mV s
  | .breakwaterTestPeriodic => Sys2Proof.Machine.execBreakwaterTestPeriodic s
  | .breakwaterTestEnd us v1 cMeasured => Sys2Proof.Machine.execBreakwaterTestEnd us v1 cMeasured s
  | .logSegmentTimer => Sys2Proof.Machine.execLogSegmentTimer s
  | .bootImageWrite => Sys2Proof.Machine.execBootImageWrite s
  | .opsecPersist => Sys2Proof.Machine.execOpsecPersist s
  | .quayLinkTraining qport position id lanes fast => Sys2Proof.Machine.execQuayLinkTraining qport position id lanes fast s
  | .quayCmd handle fn entry s0 deadline dlv => Sys2Proof.Machine.execQuayCmd handle fn entry s0 deadline dlv s
  | .quayData tag off data hmeta poisoned => Sys2Proof.Machine.execQuayData tag off data hmeta poisoned s
  | .quayCpl tag m => Sys2Proof.Machine.execQuayCpl tag m s
  | .quayMgmt position m => Sys2Proof.Machine.execQuayMgmt position m s
  | .quayKey fn index what => Sys2Proof.Machine.execQuayKey fn index what s
  | .quayTime us => Sys2Proof.Machine.execQuayTime us s
  | .quayTimeLockLost position => Sys2Proof.Machine.execQuayTimeLockLost position s
  | .quayLinkSilence position => Sys2Proof.Machine.execQuayLinkSilence position s
  | .quayLinkLost position => Sys2Proof.Machine.execQuayLinkLost position s
  | .quayLaneNarrow position lanes => Sys2Proof.Machine.execQuayLaneNarrow position lanes s
  | .joinComplete position => Sys2Proof.Machine.execJoinComplete position s
  | .workerUpstreamLoss d => Sys2Proof.Machine.execWorkerUpstreamLoss d s
  | .returnToD0 fn => Sys2Proof.Machine.execReturnToD0 fn s
  | .crystalStable => Sys2Proof.Machine.execCrystalStable s
  | .quayFlitCrcDiscard position => Sys2Proof.Machine.execQuayFlitCrcDiscard position s
  | .kanexStopTimeout fn => Sys2Proof.Machine.execKanexStopTimeout fn s
  | .retentionRefreshDue port die block => Sys2Proof.Machine.execRetentionRefreshDue port die block s
  | .i3cDynamicAddressAssign addr => Sys2Proof.Machine.execI3cDynamicAddressAssign addr s
  | .jtagInstruction boundaryScan code => Sys2Proof.Machine.execJtagInstruction boundaryScan code s
  | .unknownCommand q opcode => Sys2Proof.Machine.execUnknownCommand q opcode s

end Sys2Proof.Machine
end

