-- ==== Sys2Proof/WellFormed.lean ====
section
/-! DEFINITION. Well-formed commands: every operand within the width or the range that the spec gives the thing it names. A
command that is not well formed names something the die does not have. -/

namespace Sys2Proof

def okFn (n : Nat) : Bool := decide (n < Config.functions)
def okTag (t : Nat) : Bool := decide (t < Config.tags)
def okPort (p : Nat) : Bool := decide (p < Config.ports)
def okDie (d : Nat) : Bool := decide (d < 16)
def okChan (c : Nat) : Bool := decide (c < 12)
def okCore (c : Nat) : Bool := decide (c < 17)
def okSrc (n : Nat) : Bool := decide (n < 4096)
def okNsid (n : Nat) : Bool := decide (0 < n) && decide (n < 2 ^ 32)
def okPosition (p : Nat) : Bool := decide (p < 16)
def okWidth (w v : Nat) : Bool := decide (v < 2 ^ w)
/-- A berth die's address: port, die, block (R188, R224). -/
def okBlock (p d b : Nat) : Bool := okPort p && okDie d && decide (b < 8192)
/-- Self-test kinds and their instances (R480). -/
def okUnit (kind inst : Nat) : Bool := decide (kind < 7) && decide (inst < [100, 104, 544, 17, 32, 64, 64].getD kind 0)
/-- Levels of the timeout ladder (R525). -/
def okLevel (l : Nat) : Bool := decide (l < 11)
/-- Subsystems (R15). -/
def okSub (s : Nat) : Bool := decide (1 ≤ s) && decide (s ≤ 14)
/-- A value in a log of events of a berth (R221). -/
def okEvt (p d : Nat) : Bool := okPort p && okWidth 8 d

/-- The header of a Kanex request in its field widths, with the payload that LEN gives and the area holds (R369). -/
def KReq.wf (q : KReq) : Bool :=
  okFn q.fn && okWidth 16 q.dbSeq && okWidth 16 q.seq && okWidth 32 q.len && okWidth 16 q.tfunc && okWidth 8 q.tdie && okWidth 8 q.rsv11
    && okWidth 32 q.rsv20 && okWidth 32 q.roffset && okWidth 32 q.dlen && okWidth 64 q.dptr && decide (q.payload.length = min q.len 4064)

/-- What a dock-down's energy gives: at most the seven steps of R28, and an end time for each step completed. -/
def DockEnv.wf (e : DockEnv) : Bool := decide (e.steps ≤ 7) && decide (e.ends.length = e.steps)

/-- Eight modules, of the six rates each (R38, R40). -/
def UcieEnv.wf (u : UcieEnv) : Bool :=
  decide (u.rates.length = 8) && u.rates.all (fun r => match r with | some i => decide (i < 6) | none => true)
    && u.repaired.all (fun x => decide (x.1 < 8)) && u.degraded.all (fun x => decide (x.1 < 8))

def ChanFind.wf (c : ChanFind) : Bool := okChan c.ch && decide (c.dimms ≤ 2)

/-- A manifest of whole entries, with a digest for each (R443). -/
def VerifyFacts.wf (v : VerifyFacts) : Bool := decide (v.manifest.length = 64 * v.digests.length) && decide (v.digests.length ≤ 32)

/-- A berth as a start finds it: its passport and the copies of its label, whole (R224, R261). -/
def BerthFind.wf (b : BerthFind) : Bool :=
  okPort b.port && decide (b.passport.raw.length = 512) && b.labels.all (fun l => decide (l.raw.length = 64))

/-- The environment of a start: units that exist, channels, berths and 64 sensors. -/
def BootEnv.wf (e : BootEnv) : Bool :=
  e.failedUnits.all (fun u => okUnit u.1 u.2) && e.chans.all ChanFind.wf && e.berths.all BerthFind.wf
    && decide (e.temps.length = 64) && e.ucie.wf

/-- Widths of a flit header's fields (R199). -/
def FlitHdr.wf (h : FlitHdr) : Bool := okWidth 4 h.ft && okWidth 8 h.seq && okWidth 8 h.ack && okWidth 8 h.crs && okWidth 8 h.crl

/-- One port, tag or unit within its range, every width kept. -/
def Instr.wf : Instr → Bool
  | .powerOnReset e => e.wf
  | .supplyLoss => true
  | .coldRstNRise e => e.wf
  | .coldRstNFall d => d.wf
  | .startWatchdogExpiry e => e.wf
  | .deviceRestart e => e.wf
  | .pfNFall d => d.wf
  | .pfNRise _ e => e.wf
  | .railOutOfWindow _ d => d.wf
  | .refclkLoss n u => decide (n < 4) && u.wf
  | .handshakeStall sub inst _ d => okSub sub && okWidth 12 inst && d.wf
  | .ladderIdleReset level inst => okLevel level && okWidth 16 inst
  | .gatedIslandWake i => decide (i < 52)
  | .gatedRegisterAccess fn off _ _ _ => okFn fn && okWidth 21 off
  | .heldWritesRelease => true
  | .ucieTraining u => u.wf
  | .laneError m lane u => decide (m < 8) && decide (lane < 64) && u.wf
  | .flitCrcError => true
  | .dlDown c => okWidth 8 c
  | .l1Request _ => true
  | .l2Request => true
  | .outOfBarRequest fn a _ => okFn fn && okWidth 64 a
  | .registerWrite fn bar off size _ => okFn fn && decide (bar < 6) && okWidth 64 off && (size == 1 || size == 2 || size == 4 || size == 8)
  | .ferrWrite fn _ => okFn fn
  | .hostReadFailure t st => okTag t && (okWidth 3 st || Config.listStatuses.contains st)
  | .poisonedTlpReceived t => okTag t
  | .sqFetchFail fn sq => okFn fn && okWidth 16 sq
  | .flr fn => okFn fn
  | .conventionalReset => true
  | .vfEnableWrite _ n => okWidth 16 n
  | .d3hotEntry fn => okFn fn
  | .ccEnSet fn _ => okFn fn
  | .ccEnClear fn _ => okFn fn
  | .ccShnNormal fn => okFn fn
  | .ccShnAbrupt fn => okFn fn
  | .functionReady fn => okFn fn
  | .teardownComplete fn => okFn fn
  | .teardownLate fn => okFn fn
  | .msixEnableWrite fn _ => okFn fn
  | .vectorMaskWrite fn v _ => okFn fn && (match v with | some x => okWidth 11 x | none => true)
  | .sqTailDoorbell fn y _ _ => okFn fn && okWidth 16 y
  | .cqHeadDoorbell fn y _ _ => okFn fn && okWidth 16 y
  | .sqEntryFetch fn sq t _ => okFn fn && okWidth 16 sq && okTag t
  | .commandAdmit t => okTag t
  | .completionPost t => okTag t
  | .moderationTimerDue fn v => okFn fn && okWidth 11 v
  | .internalTimeout t => okTag t
  | .failFastDeadline t => okTag t
  | .read t => okTag t
  | .write t => okTag t
  | .zoneAppend t => okTag t
  | .writeZeroes t => okTag t
  | .datasetManagement t r => okTag t && decide (r.length ≤ 256)
  | .flush t => okTag t
  | .verify t => okTag t
  | .ioManagementReceive t => okTag t
  | .ioManagementSend t p => okTag t && p.all (okWidth 16)
  | .zoneOpen t => okTag t
  | .zoneClose t => okTag t
  | .zoneFinish t => okTag t
  | .zoneReset t => okTag t
  | .zoneOffline t => okTag t
  | .setZoneDescriptorExtension t => okTag t
  | .reportZones t => okTag t
  | .zoneGateOpen t => okTag t
  | .heelSettle n _ => okNsid n
  | .createIoSq t => okTag t
  | .createIoCq t => okTag t
  | .deleteIoSq t => okTag t
  | .deleteIoCq t => okTag t
  | .getLogPage t => okTag t
  | .nvmeIdentify t => okTag t
  | .abort t => okTag t
  | .setFeatures t _ => okTag t
  | .setFeaturesInterruptCoalescing t => okTag t
  | .setFeaturesInterruptVectorConfig t => okTag t
  | .setFeaturesNumberOfQueues t => okTag t
  | .setFeaturesFdp t => okTag t
  | .getFeatures t => okTag t
  | .asynchronousEventRequest t => okTag t
  | .namespaceManagementCreate t _ => okTag t
  | .namespaceManagementDelete t => okTag t
  | .namespaceAttach t l => okTag t && decide (l.length ≤ 2047) && l.all (okWidth 16)
  | .namespaceDetach t l => okTag t && decide (l.length ≤ 2047) && l.all (okWidth 16)
  | .formatNvm t => okTag t
  | .formatNvmCryptoErase t => okTag t
  | .firmwareImageDownload t _ h _ => okTag t && decide (h.length = 256)
  | .firmwareCommitVerify t v => okTag t && v.wf
  | .firmwareCommitNextStart t v => okTag t && v.wf
  | .firmwareCommitSlot t v => okTag t && v.wf
  | .firmwareCommitLive t v _ => okTag t && v.wf
  | .deviceSelfTestShort t => okTag t
  | .deviceSelfTestExtended t => okTag t
  | .deviceSelfTestAbort t => okTag t
  | .nvmeMiBasicManagement => true
  | .writeDataPulled t d m => okTag t.on && decide (m.length ≤ d.length)
  | .rangeLockGrant t => okTag t.on
  | .conventionalDrain n _ => okNsid n
  | .dieDispatch p d => okPort p && okDie d
  | .accountingWindow => true
  | .trainingAttempt p _ _ => okPort p
  | .ts1Received p t => okPort p && decide (t.bytes.length = 16)
  | .ts2Received p t => okPort p && decide (t.bytes.length = 16)
  | .skpReceived p => okPort p
  | .eiosReceived p => okPort p
  | .wakeOrderedSetReceived p => okPort p
  | .trainingStepTimeout p st => okPort p && decide (st ≤ 10)
  | .flitCrcDiscard p h => okPort p && h.wf
  | .nopReceived p h => okPort p && h.wf
  | .nakRepeat p => okPort p
  | .berthLinkSilence p => okPort p
  | .retrainTimeout p => okPort p
  | .rspReceived p r => okPort p && r.on.hdr.wf
  | .rdataReceived p h c => okPort p && h.wf && decide (c.payload.length ≤ 512)
  | .evtTempWarn p d e => okEvt p d && e.hdr.wf
  | .evtTempCrit p d e => okEvt p d && e.hdr.wf
  | .evtTempOk p d e => okEvt p d && e.hdr.wf
  | .evtPowerWarn p d e => okEvt p d && e.hdr.wf
  | .evtBridgeError p d e => okEvt p d && e.hdr.wf
  | .creditInit p s l => okPort p && okWidth 12 s && okWidth 12 l
  | .pwrAck p => okPort p
  | .pwrNak p => okPort p
  | .dockEcho p => okPort p
  | .releaseDone p => okPort p
  | .bridgeResetDone p => okPort p
  | .retrainReq p => okPort p
  | .lmgtRepeat p => okPort p
  | .linkIdleLs p => okPort p
  | .linkIdleLd p => okPort p
  | .berthErrorRate p => okPort p
  | .nandOpTimeout p o _ => okPort p && okWidth 16 o
  | .slotIbi c _ _ _ => decide (c < 128)
  | .slotPoll c _ _ _ => decide (c < 128)
  | .presenceStable p _ => okPort p
  | .slotControllerSilent c => decide (c < 128)
  | .powerGood p => okPort p
  | .powerGoodTimeout p => okPort p
  | .overcurrent p => okPort p
  | .shortDetected p _ => okPort p
  | .rejoinWindowEnd p => okPort p
  | .rebuildRu _ p => okPort p.on
  | .drainComplete p => okPort p
  | .decodeDone _ _ => true
  | .cipherSectorDone _ pair _ _ => decide (pair < 104)
  | .journalSegmentWrite => true
  | .journalSegmentDurable _ => true
  | .checkpointCycleStart => true
  | .checkpointCycleComplete => true
  | .gcPass _ => true
  | .foldScan n _ => okNsid n
  | .mediaPatrol p d b pu cw _ => okBlock p d b && okWidth 11 pu && decide (cw.on < 48)
  | .dramWriteDrain c => okChan c
  | .mergeBufferTimeout c _ => okChan c
  | .dramPatrol c _ w _ => okChan c && decide (w < 8)
  | .refreshWindow => true
  | .granuleCopyDone g _ => decide (g < 4 * 1048576)
  | .channelFailure c => okChan c
  | .trayAlloc u _ _ _ _ => okWidth 8 u
  | .trayShare u _ _ _ rcv => okWidth 8 u && okWidth 8 rcv
  | .trayFree u _ _ _ => okWidth 8 u
  | .abandon fn sq => okFn fn && okWidth 16 sq
  | .kanexTimeout fn => okFn fn
  | .identify q => q.wf
  | .catalogueGet q => q.wf
  | .policyGet q => q.wf
  | .policySet q => q.wf
  | .tenantCreate q => q.wf
  | .tenantDelete q => q.wf
  | .tenantSet q => q.wf
  | .tenantGet q => q.wf
  | .tenantList q => q.wf
  | .nsShare q => q.wf
  | .nsUnshare q => q.wf
  | .funcFence q => q.wf
  | .nsCreate q => q.wf
  | .nsDelete q => q.wf
  | .nsList q => q.wf
  | .zoneSetRo q => q.wf
  | .keyInfo q => q.wf
  | .keyGenerate q => q.wf
  | .keyImport q _ _ => q.wf
  | .keyRotate q => q.wf
  | .keyMigrate q _ => q.wf
  | .keyRetire q => q.wf
  | .keyCryptoErase q => q.wf
  | .keyLockSet q => q.wf
  | .keyUnlock q => q.wf
  | .keyAgreePub q => q.wf
  | .profileGet q => q.wf
  | .profileSet q => q.wf
  | .powerCapSet q => q.wf
  | .histogramRead q => q.wf
  | .thermalStatus q => q.wf
  | .paceStatus q => q.wf
  | .powerStateSet q => q.wf
  | .breakwaterStatus q => q.wf
  | .breakwaterTest q => q.wf
  | .sensorExclude q => q.wf
  | .logRead q => q.wf
  | .logStatus q => q.wf
  | .logMark q => q.wf
  | .scrubStart q => q.wf
  | .scrubStatus q => q.wf
  | .scrubAbandon q => q.wf
  | .scrubSummary q => q.wf
  | .scrubEnd r => okWidth 8 r
  | .patrolSet q => q.wf
  | .rowWidthSet q => q.wf
  | .poisonFwdSet q => q.wf
  | .spareThreshSet q => q.wf
  | .healthDetail q => q.wf
  | .mapProbe q => q.wf
  | .selftestRun q => q.wf
  | .selftestStatus q => q.wf
  | .selftestCatalogue q => q.wf
  | .unitRestore q _ => q.wf
  | .selftestSlice k i _ _ => okUnit k i
  | .updBegin q h => (q.withHeader h).wf
  | .updBlock q _ => q.wf
  | .updVerify q v => q.wf && v.wf
  | .updActivate q _ e => q.wf && e.wf
  | .activationHoldExpiry => true
  | .updConfirm q => q.wf
  | .confirmationWindowEnd => true
  | .updStatus q => q.wf
  | .updDiscard q => q.wf
  | .hierStatus q => q.wf
  | .workerAdmit q => q.wf
  | .workerRetire q => q.wf
  | .berthAdopt q => q.1.wf
  | .hierProfileSet q => q.wf
  | .berthStatus q => q.wf
  | .berthPrepare q => q.wf
  | .berthRelease q => q.wf
  | .berthCancel q => q.wf
  | .berthAdmit q => q.wf
  | .berthClearFault q => q.wf
  | .berthTunnel q _ => q.wf
  | .berthPassport q => q.wf
  | .portEnableSet q => q.wf
  | .rejoinWindowSet q => q.wf
  | .dramStatus q => q.wf
  | .dramVacate q => q.wf
  | .dramCancel q => q.wf
  | .dramRejoin q f => q.wf && f.wf
  | .proofSizeSet q => q.wf
  | .traySplitSet q => q.wf
  | .dramInject q => q.wf
  | .eventInject q => q.wf
  | .sensorOverride q => q.wf
  | .eventOccurrence n _ => okSrc n
  | .eventClaim n => okSrc n
  | .eoi c n => okCore c && okSrc n
  | .evcSrcCfgWrite n _ => okSrc n
  | .evcGctrlWrite _ => true
  | .evcRqHeadWrite _ => true
  | .coreWatchdog c d => okCore c && d.wf
  | .qeVmodWrite fn v _ => okFn fn && okWidth 11 v
  | .qeNdefWrite fn _ => okFn fn
  | .idleTimerP1 => true
  | .idleTimerP2 => true
  | .wakeSource c banks chans b => okWidth 8 c && banks.all (fun x => decide (x < 71)) && chans.all okChan && b.all BerthFind.wf
  | .paceSample l => decide (l.length = 64)
  | .vcoreAdjust _ => true
  | .avsAbsent => true
  | .oscTrim => true
  | .clockLost => true
  | .sensorSample l d => decide (l.length = 64) && d.wf
  | .throttleStepTimer => true
  | .breakwaterSample v => okWidth 16 v
  | .breakwaterTestPeriodic => true
  | .breakwaterTestEnd _ v c => okWidth 16 v && okWidth 24 c
  | .logSegmentTimer => true
  | .bootImageWrite => true
  | .opsecPersist => true
  | .quayLinkTraining p q _ lanes _ => decide (p < 4) && okPosition q && decide (lanes ≤ 8)
  | .quayCmd h f _ _ _ _ => okTag h.tag && okFn f.fn && decide (f.cls < 4)
  | .quayData t _ d m _ => okTag t.tag && decide (m.length ≤ d.length)
  | .quayCpl t _ => okTag t.tag
  | .quayMgmt q _ => okPosition q
  | .quayKey _ i w => match w with | .slot _ _ => okWidth 12 i | .lock _ => okFn i | .unlock => okFn i
  | .quayTime us => okWidth 64 us
  | .quayTimeLockLost q => okPosition q
  | .quayLinkSilence q => okPosition q
  | .quayLinkLost q => okPosition q
  | .quayLaneNarrow q lanes => okPosition q && decide (lanes ≤ 8)
  | .joinComplete q => okPosition q
  | .workerUpstreamLoss d => d.wf
  | .returnToD0 fn => okFn fn
  | .crystalStable => true
  | .quayFlitCrcDiscard q => okPosition q
  | .kanexStopTimeout fn => okFn fn
  | .retentionRefreshDue p d b => okBlock p d b
  | .i3cDynamicAddressAssign a => okWidth 7 a
  | .jtagInstruction _ _ => true
  | .unknownCommand q op => q.wf && okWidth 16 op

end Sys2Proof
end

