-- ==== Sys2Proof/Safety.lean ====
section
/-! DEFINITION. What the statements speak of: commands that complete, requests that a mailbox takes, the parts of a die that a
command leaves as they are, and the invariants that every step keeps. -/

namespace Sys2Proof

/-- What a start meets in which nothing fails, every sensor answers below 105 degrees and no berth or channel is found. -/
def BootEnv.smooth (e : BootEnv) : Bool :=
  e.bootStoreOk && e.failedUnits.isEmpty && e.essentialFail.isNone && e.avs && decide (e.temps.length = 64) && e.temps.all (fun r => match r with | some v => decide (-400 ≤ v) && decide (v < 1050) | none => false) && e.slotAOk && e.slotBOk && e.reachesReady
    && e.chans.isEmpty && e.berths.isEmpty

end Sys2Proof

namespace Sys2Proof.Machine

/-- A command completes: exec answers a next state with the queue as it was and a die of which P holds. -/
def Completes (i : Instr) (s : State) (P : Die → Prop) : Prop := ∃ t, exec i s = .next t ∧ t.pending = s.pending ∧ P t.die

/-- The die is ready in P0 with no activation hold and no dock-down: the ordinary case of service. -/
def Die.serves (d : Die) : Bool := d.life.phase == .ready && !d.qe.hold && !d.qe.stopped && d.aon.pstate == 0 && !d.aon.committed

/-- The die is awake in P0 with no entry to another power state under way. -/
def Die.settledP0 (d : Die) : Bool := d.awake && d.aon.pstate == 0 && !d.aon.entering && !d.aon.committed

/-! ## Kanex -/

/-- The die when a request has been accepted (R370): the mailbox RUNNING with the request copied. -/
def Die.accepted (d : Die) (q : KReq) (op : Nat) : Die :=
  (d.updMbx q.fn (fun m => m.taken q op d.now (d.freeVal % 17))).drawn

/-- A standing response that a resubmission of its SEQ and OPCODE leaves in place (R372). -/
def Die.standing (d : Die) (q : KReq) (op : Nat) : Bool :=
  match (d.fn q.fn).mbx.resp with | some r => r.seq == q.seq && r.opcode == op && q.dbSeq == q.seq | none => false

/-- A request that is accepted with its frame in order (R368 to R372, R383 checks 1 to 3): the function serves and nothing runs or
waits on its mailbox, its tenant exists, the header is right. bulk: the opcode may have bulk data. -/
def Die.takesFrame (d : Die) (q : KReq) (op : Nat) (bulk : Bool) : Bool :=
  d.life.phase == .ready && decide (q.fn < Config.functions) && d.mbxPresent q.fn && !d.mbxUnavailable q.fn
    && (d.fn q.fn).mbx.st != .running && !d.standing q op && !d.mbxStopping q.fn && !d.qe.hold && (d.tenant q.fn).alive
    && q.dbSeq == q.seq && (kHeaderBad q bulk).isNone

/-- Checks 1 to 6 of R383 passed by a request to this die's own mailbox that names this die: besides its frame, opcode and privilege
are right. acts: the command acts on the tenant that TFUNC names. -/
def Die.takesHeader (d : Die) (q : KReq) (op : Nat) (acts : Bool) : Bool :=
  d.takesFrame q op (op == 0x0403 || op == 0x0902) && (catRow op).isSome
    && !(kPriv op == 0 && q.fn != 0) && !kForeign q (kPriv op) && q.tdie == 0 && (!acts || (d.tenant (kTenant q)).alive)

/-- Check 7 of R383 but for the command's own fields: the payload is long enough, and the bytes that R387 does not list are zero. -/
def takesPayload (q : KReq) (need : Nat) (used : List (Nat × Nat)) : Bool :=
  decide (need ≤ q.len) && (kRsvAt q used).isNone

/-- A request that reaches its command's own part on this die. -/
def Die.takes (d : Die) (q : KReq) (op : Nat) (acts : Bool) (need : Nat) (used : List (Nat × Nat)) : Bool :=
  d.takesHeader q op acts && takesPayload q need used

/-- A mailbox shows a response of firmware with a status (R366, R373). -/
abbrev Die.answered (d : Die) (n st : Nat) : Prop :=
  (d.fn n).mbx.st = .done ∧ (d.fn n).mbx.resp.map (fun r => (r.status, r.synth)) = some (st, false)

/-- A mailbox shows a response of firmware with a status and a payload. -/
abbrev Die.answeredWith (d : Die) (n st : Nat) (payload : List Byte) : Prop :=
  (d.fn n).mbx.st = .done ∧ (d.fn n).mbx.resp.map (fun r => (r.status, r.synth, r.payload)) = some (st, false, payload)

/-- A hierarchy-wide command done on this die (R323, R376): the mailbox answers OK where no worker serves, and otherwise waits for the
answer of each worker that does. -/
abbrev Die.applied (t d : Die) (n : Nat) : Prop :=
  (d.servingWorkers = [] → t.answered n kOk) ∧
  (d.servingWorkers ≠ [] → (t.fn n).mbx.st = .running ∧ (t.fn n).mbx.answers = (d.anaGroup, some kOk) :: d.servingWorkers.map (fun p => (p + 2, none)))

/-- The same with the payload that the answer has. -/
abbrev Die.appliedWith (t d : Die) (n : Nat) (payload : List Byte) : Prop :=
  t.applied d n ∧ (d.servingWorkers = [] → t.answeredWith n kOk payload) ∧ (d.servingWorkers ≠ [] → (t.fn n).mbx.kept = payload)

/-- A Long command goes on, or waits, on a mailbox. -/
abbrev Die.stillRuns (d : Die) (n op : Nat) : Prop := (d.fn n).mbx.st = .running ∧ (d.fn n).mbx.opcode = op

/-- Two dies that differ only in what a mailbox's answer writes: the functions' registers (the mailbox, the vector it signals), the
link and the gated islands that a message wakes, the outputs and the stream of free values. -/
abbrev Die.sameButAnswer (t d : Die) : Prop :=
  { t with funcs := d.funcs, link := d.link, life := { t.life with gated := d.life.gated }, out := d.out, free := d.free } = d

/-- The catalogue's commands that only read, with their opcode, whether they act on TFUNC's tenant, and their constructor. -/
def kanexReads : List (Nat × Bool × (KReq → Instr)) := [
  (0x0101, false, .identify), (0x0102, false, .catalogueGet), (0x0103, false, .policyGet), (0x0204, true, .tenantGet),
  (0x0205, false, .tenantList), (0x0303, false, .nsList), (0x0401, true, .keyInfo), (0x040A, false, .keyAgreePub),
  (0x0501, false, .profileGet), (0x0505, false, .thermalStatus), (0x0506, false, .paceStatus), (0x0508, false, .breakwaterStatus),
  (0x0602, false, .logStatus), (0x0702, false, .scrubStatus), (0x0704, false, .scrubSummary), (0x0709, false, .healthDetail),
  (0x0802, false, .selftestStatus), (0x0803, false, .selftestCatalogue), (0x0906, false, .updStatus), (0x0A01, false, .hierStatus),
  (0x0B01, false, .berthStatus), (0x0C01, false, .dramStatus)]

/-! ## Berth links -/

/-- A port but for the lane: its scramblers, the blocks since the last SKP, the times of its traffic, and whether its TX is in idle (R190, R192,
R207). -/
abbrev Port.offLane (x : Port) : Port := { x with txLfsr := 0, rxLfsr := 0, sinceSkp := 0, busyAt := 0, heardAt := 0, txIdle := false }

/-- A port in L0 that accepts a sequenced flit with a header: a good flit in its order that carries no NAK (R202, R203). -/
abbrev Port.takesNext (x : Port) (h : FlitHdr) : Prop :=
  x.linked = true ∧ x.lpwr = .l0 ∧ x.retrain = false ∧ hdrBad h = false ∧ h.nak = false ∧ h.seq = x.rxSeq

/-- Nothing unacknowledged and nothing waiting to leave. -/
abbrev Port.nothingToSend (x : Port) : Prop := x.unacked = [] ∧ x.wdata = [] ∧ x.cmds = []

/-- The port behind such a flit: the next SEQ expected, its credits taken in (R203, R205). -/
abbrev Port.accepted (x : Port) (h : FlitHdr) : Port :=
  { x.credited h.crs h.crl with rxSeq := (x.rxSeq + 1) % 256, nak := false, waking := false }

/-- The last that left the die is a flit on a port's lane, scrambled from a state of its LFSR (R190, R198). -/
abbrev Die.lastSent (t : Die) (p : Nat) (lfsr : BitVec 23) (flit : List Byte) : Prop := t.out.head? = some (.lane p (flitBlocks lfsr flit))

/-! ## Commands under a tag -/

/-- A tag holds an admin command of an opcode, bound or admitted and not yet acted on, with no activation hold. -/
abbrev Die.adminTag (d : Die) (t opc : Nat) (e : SqEntry) : Prop :=
  ((d.tag t).st = .bound ∨ (d.tag t).st = .admitted) ∧ (d.tag t).adminOpc = opc ∧ (d.tag t).entry = some e ∧ d.qe.hold = false ∧ d.awake = true

/-- A tag holds an admitted I/O command of an opcode on a namespace at home here, its zone gate not waited for, with no activation hold. -/
abbrev Die.ioTag (d : Die) (t opc : Nat) (e : SqEntry) : Prop :=
  d.awake = true ∧ (d.tag t).st = .admitted ∧ (d.tag t).ioOpc = opc ∧ (d.tag t).entry = some e ∧ (d.tag t).gated = false
    ∧ (d.tag t).forwarded = false ∧ d.qe.hold = false

/-- A tag waits in POSTING with a status. -/
abbrev Die.ends (d : Die) (t : Nat) (st : Status) : Prop := (d.tag t).st = .posting ∧ (d.tag t).sct = st.1 ∧ (d.tag t).sc = st.2

/-! ## Invariants -/

/-- R293: tenant 0, the owner, exists. -/
def Die.ownerAlive (d : Die) : Bool := (d.tenant 0).alive

end Sys2Proof.Machine
end

