-- ==== Sys2Proof/Certificates/Slice0/Obligations.lean ====
section
/-! DEFINITION. The statements for the provers, in the order of OBLIGATIONS.json. -/

open Sys2Proof
open Sys2Proof.Machine

/-- The step of the block: the front command runs with the queue's rest. That an idle step is one microsecond of the time base is the
model's choice (log entry 12). -/
def Obligations.StepRunsFrontCommand : Prop :=
  (∀ (c : Instr) (r : List Instr) (d : Die), step { die := d, pending := c :: r } = exec c { die := d, pending := r })
    ∧ (∀ d : Die, ∃ t : State, step { die := d, pending := [] } = .next t ∧ t.pending = [])

/-- R543 gives no effect of a debug instruction while JTAG_LOCK is clear; everything else has one. -/
def Obligations.OnlyDebugIsRefused : Prop := ∀ (i : Instr) (s : State),
  (∀ r, exec i s ≠ .fault r) ∧
  (exec i s = .refused .jtagDebug ↔ ∃ code, i = .jtagInstruction false code ∧ s.die.jtagLock = false) ∧
  ((∃ r, exec i s = .refused r) → exec i s = .refused .jtagDebug) ∧
  (∀ t, exec i s = .next t → t.pending = s.pending)

/-- IDENTIFY, CATALOGUE_GET, POLICY_GET, TENANT_GET, TENANT_LIST, NS_LIST, KEY_INFO, KEY_AGREE_PUB, PROFILE_GET, THERMAL_STATUS, PACE_STATUS,
BREAKWATER_STATUS, LOG_STATUS, SCRUB_STATUS, SCRUB_SUMMARY, HEALTH_DETAIL, SELFTEST_STATUS, SELFTEST_CATALOGUE, UPD_STATUS,
HIER_STATUS, BERTH_STATUS, DRAM_STATUS. -/
def Obligations.KanexReadsAnswer : Prop := ∀ (s : State) (q : KReq), ∀ p ∈ kanexReads,
  s.die.takes q p.1 p.2.1 0 [] = true →
    Completes (p.2.2 q) s (fun t => t.answered q.fn kOk ∧ t.sameButAnswer s.die ∧ ∀ n, n ≠ q.fn → t.fn n = s.die.fn n)

/-- POLICY_SET, PROFILE_SET, POWER_CAP_SET, PATROL_SET, SPARE_THRESH_SET, POISON_FWD_SET, REJOIN_WINDOW_SET, TRAY_SPLIT_SET. -/
def Obligations.OwnerSettingsTake : Prop := ∀ (s : State) (q : KReq),
  (s.die.takes q 0x0104 false 4 [(0, 4)] = true → q.get 0 4 < 8 → Completes (.policySet q) s (fun t => t.applied s.die q.fn ∧
    t.mc.policy = BitVec.ofNat 32 (q.get 0 4) ∧ t.mc.policyForce = s.die.mc.policyForce ||| BitVec.ofNat 32 (q.get 0 4))) ∧
  (s.die.takes q 0x0502 false 1 [(0, 1)] = true → q.get 0 1 ≤ 3 → Completes (.profileSet q) s (fun t => t.answered q.fn kOk ∧
    t.sch = { s.die.sch with profileNext := q.get 0 1 })) ∧
  (s.die.takes q 0x0503 false 2 [(0, 2)] = true → 60 ≤ q.get 0 2 → q.get 0 2 ≤ 190 → Completes (.powerCapSet q) s (fun t => t.answered q.fn kOk ∧
    t.sch = { s.die.sch with leanCap := q.get 0 2 })) ∧
  (s.die.takes q 0x0705 false 2 [(0, 2)] = true → 1 ≤ q.get 0 2 → q.get 0 2 ≤ 90 → Completes (.patrolSet q) s (fun t => t.answered q.fn kOk ∧
    t.rc = { s.die.rc with patrolDays := q.get 0 2 })) ∧
  (s.die.takes q 0x0708 false 1 [(0, 1)] = true → q.get 0 1 ≤ 100 → Completes (.spareThreshSet q) s (fun t => t.answered q.fn kOk ∧
    t.rc.spareThresh = q.get 0 1)) ∧
  (s.die.takes q 0x0707 false 3 [(0, 3)] = true → q.get 0 2 < Config.functions → q.get 2 1 ≤ 1 → Completes (.poisonFwdSet q) s (fun t =>
    t.answered q.fn kOk ∧ (t.fn (q.get 0 2)).poisonFwd = (q.get 2 1 == 1))) ∧
  (s.die.takes q 0x0B0A false 2 [(0, 2)] = true → q.get 0 2 ≤ 600 → Completes (.rejoinWindowSet q) s (fun t => t.answered q.fn kOk ∧
    t.se = { s.die.se with rejoin := q.get 0 2 })) ∧
  (s.die.takes q 0x0C06 false 5 [(0, 5)] = true → splitBad q = none → Completes (.traySplitSet q) s (fun t => t.answered q.fn kOk ∧
    t.tp = { s.die.tp with splitNext := (List.range 5).map (fun i => q.get i 1) }))

/-- LOG_READ, LOG_MARK, BERTH_PASSPORT, SCRUB_START, SCRUB_ABANDON, HISTOGRAM_READ, MAP_PROBE, ROW_WIDTH_SET. -/
def Obligations.OwnerServiceTakes : Prop := ∀ (s : State) (q : KReq),
  (s.die.takes q 0x0601 false 10 [(0, 10)] = true → q.get 8 1 ≤ 7 → q.get 9 1 ≤ 2 → Completes (.logRead q) s (fun t =>
    t.answered q.fn kOk ∧ t.sameButAnswer s.die)) ∧
  (s.die.takes q 0x0603 false 28 [(0, 28)] = true → Completes (.logMark q) s (fun t =>
    t.lb = ((s.die.accepted q 0x0603).record 0x0C0C sevInfo noInst (padTo 28 q.body)).lb ∧ t.answeredWith q.fn kOk (le 8 t.lb.newest))) ∧
  (s.die.takes q 0x0B08 false 2 [(0, 2)] = true → q.get 0 2 < Config.ports → (s.die.port (q.get 0 2)).st ≠ .absent →
    ∀ x, (s.die.port (q.get 0 2)).passport = some x → Completes (.berthPassport q) s (fun t =>
      t.answeredWith q.fn kOk (padTo 512 x.raw) ∧ t.sameButAnswer s.die)) ∧
  (s.die.takes q 0x0701 false 24 [(0, 2), (4, 20)] = true → s.die.scrubBad q = none → s.die.scrubTarget q = none → s.die.se.scrub.st ≠ 1 →
    (q.get 0 1 = 4 → (s.die.ns (q.get 4 4)).isZoned = true) → Completes (.scrubStart q) s (fun t => t.answeredWith q.fn kOk (le 8 (s.die.se.scrub.id + 1)) ∧ t.se.scrub.st = 1
      ∧ t.se.scrub.id = s.die.se.scrub.id + 1 ∧ t.se.scrub.scope = q.get 0 1 ∧ t.se.scrub.mode = q.get 1 1)) ∧
  (s.die.takes q 0x0703 false 0 [] = true → s.die.se.scrub.st = 1 → Completes (.scrubAbandon q) s (fun t => t.answered q.fn kOk ∧
    t.se.scrub.st = 2 ∧ t.se.scrub.result = 1 ∧ t.se.scrubDone = t.se.scrub)) ∧
  (s.die.takes q 0x0504 false 5 [(0, 5)] = true → histBad q = none → q.fn = 0 ∨ q.get 0 2 = 0xFFFF ∨ q.get 0 2 = q.fn →
    Completes (.histogramRead q) s (fun t => t.answered q.fn kOk ∧ (q.get 4 1 = 0 → t.sameButAnswer s.die))) ∧
  (s.die.takes q 0x070A false 16 [(0, 4), (8, 8)] = true → (s.die.ns (q.get 0 4)).alive = true → q.get 8 8 < (s.die.ns (q.get 0 4)).nsze →
    (s.die.ns (q.get 0 4)).home = s.die.anaGroup → Completes (.mapProbe q) s (fun t => t.answered q.fn kOk ∧ t.sameButAnswer s.die)) ∧
  (s.die.takes q 0x0706 false 4 [(0, 4)] = true → s.die.rowWidthBad q = none →
    (let e := (groupsNamed (q.get 0 1)).foldl (fun (x : Die) g => x.widen (q.get 1 1) (q.get 2 2) g) s.die;
      dramNeed e.needUser e.rawBytes e.dc.proofGib ≤ e.fittedDram ∧
        (groupsNamed (q.get 0 1)).all (fun g => !(e.group g).formed || decide (e.groupAlloc g ≤ (e.group g).userCap)) = true) →
    Completes (.rowWidthSet q) s (fun t => t.answered q.fn kOk ∧ (groupsNamed (q.get 0 1)).all (fun g =>
      (t.group g).k == orOld (q.get 1 1) (s.die.group g).k && (t.group g).spare == orOld (q.get 2 2) (s.die.group g).spare) = true))

/-- TENANT_CREATE, TENANT_SET, TENANT_DELETE, NS_SHARE, NS_UNSHARE, FUNC_FENCE. -/
def Obligations.TenantRecordsChange : Prop := ∀ (s : State) (q : KReq),
  (let n := kTenant q;
    let base : Tenant := { qpairs := (s.die.tenant n).qpairs, vectors := (s.die.tenant n).vectors }
    let new := if q.len = 0 then base else base.withRecord q 0 0xFFFFFFFF n
    s.die.takes q 0x0201 false 0 (recordUsed 0) = true → (q.len ≠ 0 → 64 ≤ q.len ∧ recordBad q 0 0xFFFFFFFF = none) → n < Config.functions →
    (s.die.tenant n).alive = false → s.die.recordRefused n (s.die.tenant n) new = none → s.die.epochLeft (2 * n) = true →
    Completes (.tenantCreate q) s (fun t => t.answered q.fn kOk ∧ (t.tenant n).alive = true ∧ (t.tenant n).share = new.share
      ∧ (t.slot (2 * n)).st = .write ∧ (t.slot (2 * n)).epoch = (s.die.slot (2 * n)).epoch + 1)) ∧
  (s.die.takes q 0x0203 true 68 ((0, 4) :: recordUsed 4) = true → recordBad q 4 (q.get 0 4) = none →
    s.die.recordRefused (kTenant q) (s.die.tenant (kTenant q)) ((s.die.tenant (kTenant q)).withRecord q 4 (q.get 0 4) (kTenant q)) = none →
    Completes (.tenantSet q) s (fun t => t.answered q.fn kOk ∧
      t.tenant (kTenant q) = (s.die.tenant (kTenant q)).withRecord q 4 (q.get 0 4) (kTenant q) ∧
      (selects (q.get 0 4) 2 = true → (t.tenant (kTenant q)).share = q.get 8 2))) ∧
  (s.die.takes q 0x0206 false 6 [(0, 6)] = true → s.die.shareNames q = true → (s.die.ns (q.get 0 4)).attached.contains (q.get 4 2) = false →
    Completes (.nsShare q) s (fun t => t.answered q.fn kOk ∧ (t.ns (q.get 0 4)).attached.contains (q.get 4 2) = true)) ∧
  (s.die.takes q 0x0207 false 6 [(0, 6)] = true → s.die.shareNames q = true → (s.die.ns (q.get 0 4)).attached.contains (q.get 4 2) = true →
    s.die.nsInFlight (q.get 0 4) (some (q.get 4 2)) = false →
    Completes (.nsUnshare q) s (fun t => t.answered q.fn kOk ∧ (t.ns (q.get 0 4)).attached.contains (q.get 4 2) = false)) ∧
  (s.die.takes q 0x0208 true 0 [] = true → kTenant q ≠ q.fn → (s.die.fn (kTenant q)).st = .ready →
    Completes (.funcFence q) s (fun t => (t.fn (kTenant q)).st = .fenced ∧ (t.fn (kTenant q)).cfs = true)) ∧
  (s.die.takes q 0x0202 true 0 [] = true → kTenant q ≠ 0 → kTenant q ≠ q.fn → (s.die.fn (kTenant q)).st = .off →
    (s.die.fn (kTenant q)).mbx.st ≠ .running → s.die.nsOfTenant (kTenant q) = [] →
    Completes (.tenantDelete q) s (fun t => t.answered q.fn kOk ∧ (t.tenant (kTenant q)).alive = false
      ∧ (t.slot (2 * kTenant q)).st = .empty ∧ (t.slot (2 * kTenant q + 1)).st = .empty))

/-- KEY_GENERATE, KEY_IMPORT, KEY_ROTATE, KEY_RETIRE, KEY_MIGRATE, KEY_LOCK_SET, KEY_UNLOCK, KEY_CRYPTO_ERASE. -/
def Obligations.KeySlotsMove : Prop := ∀ (s : State) (q : KReq),
  let n := kTenant q
  let k := keySlot q
  (s.die.takes q 0x0402 true 1 [(0, 1)] = true → q.get 0 1 < 2 → (s.die.slot k).st = .empty → s.die.slotIn n .locked = none →
    s.die.epochLeft k = true → Completes (.keyGenerate q) s (fun t => t.applied s.die q.fn ∧ (t.slot k).st = s.die.loadState n
      ∧ (t.slot k).epoch = (s.die.slot k).epoch + 1 ∧ (t.slot k).next = 0)) ∧
  (∀ key, s.die.takes q 0x0403 true 144 [(0, 1), (4, 97), (104, 40)] = true → q.get 0 1 < 2 → (s.die.slot k).st = .empty →
    s.die.slotIn n .locked = none → s.die.epochLeft k = true → Completes (.keyImport q true key) s (fun t => t.applied s.die q.fn ∧
      (t.slot k).st = s.die.loadState n ∧ (t.slot k).key = key ∧ (t.slot k).epoch = (s.die.slot k).epoch + 1)) ∧
  (∀ w r, s.die.takes q 0x0404 true 0 [] = true → s.die.slotIn n .write = some w → s.die.slotIn n .read = some r →
    Completes (.keyRotate q) s (fun t => t.applied s.die q.fn ∧ (t.slot w).st = .read ∧ (t.slot r).st = .write)) ∧
  (s.die.takes q 0x0406 true 1 [(0, 1)] = true → q.get 0 1 < 2 → (s.die.slot k).st = .read → s.die.cl.migrating.contains n = false →
    s.die.keySectorsAll k = 0 → Completes (.keyRetire q) s (fun t => t.applied s.die q.fn ∧ (t.slot k).st = .empty ∧ (t.slot k).epoch = (s.die.slot k).epoch)) ∧
  (∀ w r, s.die.takes q opKeyMigrate true 0 [] = true → s.die.slotIn n .write = some w → s.die.slotIn n .read = some r →
    s.die.cl.migrating.contains n = false → s.die.keySectors r = 0 → s.die.countersLeft w 0 = true →
    Completes (.keyMigrate q []) s (fun t => t.appliedWith s.die q.fn (le 8 0) ∧ t.cl.migrating.contains n = false)) ∧
  (s.die.takes q 0x0408 true 68 [(0, 1), (4, 64)] = true → s.die.keyLockBad q = none → s.die.slotIn n .locked = none →
    (match (s.die.tenant n).lock with | none => q.get 0 1 == 1 | some cur => secretAt q 36 == cur) = true →
    Completes (.keyLockSet q) s (fun t => t.applied s.die q.fn ∧ (t.tenant n).lock = (if q.get 0 1 = 0 then none else some (secretAt q 4)))) ∧
  (s.die.takes q 0x0409 true 32 [(0, 32)] = true → (s.die.tenant n).wrongUnlocks < 10 → s.die.slotIn n .locked ≠ none →
    (s.die.tenant n).lock = some (secretAt q 0) → Completes (.keyUnlock q) s (fun t => t.applied s.die q.fn ∧
      [2 * n, 2 * n + 1].all (fun i => (t.slot i).st == (if (s.die.slot i).st == .locked then (s.die.slot i).before else (s.die.slot i).st)) = true)) ∧
  (s.die.takes q opCryptoErase true 0 [] = true → (s.die.nsOfTenant n).all (fun i => !s.die.nsInFlight i none) = true →
    s.die.epochLeft (2 * n) = true → Completes (.keyCryptoErase q) s (fun t => t.applied s.die q.fn ∧
      (t.slot (2 * n)).st = .write ∧ (t.slot (2 * n)).epoch = (s.die.slot (2 * n)).epoch + 1 ∧ (t.slot (2 * n + 1)).st = .empty))

/-- NS_CREATE, NS_DELETE, ZONE_SET_RO: the conditions are those of R126, R153 and R145. -/
def Obligations.NamespacesComeAndGo : Prop := ∀ (s : State) (q : KReq),
  (s.die.takes q 0x0301 true 82 [(0, 2), (8, 74 + 2 * q.get 80 2)] = true → 82 + 2 * q.get 80 2 ≤ q.len →
    s.die.nsRefused (kTenant q) (nsCreateOf q) = none → Completes (.nsCreate q) s (fun t =>
      let n := s.die.freeNsid.getD 1
      t.answeredWith q.fn kOk (le 4 n) ∧ (t.ns n).alive = true ∧ (t.ns n).owner = kTenant q ∧ (t.ns n).nsze = q.get 8 8
        ∧ (t.ns n).attached = [kTenant q])) ∧
  (s.die.takes q opNsDelete false 4 [(0, 4)] = true → (s.die.ns (q.get 0 4)).alive = true → s.die.anaRefuses (q.get 0 4) = none →
    s.die.nsInFlight (q.get 0 4) none = false → Completes (.nsDelete q) s (fun t => t.answered q.fn kOk ∧ (t.ns (q.get 0 4)).alive = false)) ∧
  (let n := s.die.ns (q.get 0 4);
    let z := n.zoneOf (q.get 8 8)
    s.die.takes q 0x0304 false 16 [(0, 4), (8, 8)] = true → n.alive = true → n.isZoned = true → n.home = s.die.anaGroup →
    q.get 8 8 % n.zoneLbas = 0 → z < n.zoneCount → (n.zone z).st ≠ .zso →
    s.die.zoneEarlier (q.get 0 4) z ((n.zone z).roWait.getD s.die.qe.order) = false → Completes (.zoneSetRo q) s (fun t =>
      t.answered q.fn kOk ∧ (t.zone (q.get 0 4) z).st = .zsro))

/-- CREATE_IO_CQ, CREATE_IO_SQ, DELETE_IO_CQ, DELETE_IO_SQ. -/
def Obligations.AdminQueuesChange : Prop := ∀ (s : State) (t : Nat) (e : SqEntry),
  let f := (s.die.tag t).fn
  let others := fun (u : Die) => (∀ n, n ≠ f → u.fn n = s.die.fn n) ∧ u.ends t stOk
  (s.die.adminTag t 0x05 e → e.qid ≠ 0 → e.qid ≤ (s.die.tenant f).qpairs → ((s.die.fn f).cq e.qid).size = 0 → 2 ≤ e.qsize →
    bitsOf e.cdw11 0 1 = 1 → bitsOf e.cdw11 16 16 < (s.die.tenant f).vectors → Completes (.createIoCq t) s (fun u => others u ∧
      (u.fn f).cq e.qid = { size := e.qsize, vector := bitsOf e.cdw11 16 16, ien := bitsOf e.cdw11 1 1 == 1 } ∧
      (u.fn f).sqs = (s.die.fn f).sqs ∧ ∀ y, y ≠ e.qid → (u.fn f).cq y = (s.die.fn f).cq y)) ∧
  (s.die.adminTag t 0x01 e → e.qid ≠ 0 → e.qid ≤ (s.die.tenant f).qpairs → ((s.die.fn f).sq e.qid).size = 0 → 2 ≤ e.qsize →
    bitsOf e.cdw11 0 1 = 1 → bitsOf e.cdw11 16 16 ≠ 0 → ((s.die.fn f).cq (bitsOf e.cdw11 16 16)).size ≠ 0 →
    Completes (.createIoSq t) s (fun u => others u ∧ (u.fn f).sq e.qid = { size := e.qsize, cq := bitsOf e.cdw11 16 16 } ∧
      (u.fn f).cqs = (s.die.fn f).cqs ∧ ∀ y, y ≠ e.qid → (u.fn f).sq y = (s.die.fn f).sq y)) ∧
  (s.die.adminTag t 0x04 e → e.qid ≠ 0 → ((s.die.fn f).cq e.qid).size ≠ 0 → (∀ x ∈ (s.die.fn f).sqs, x.2.size = 0 ∨ x.2.cq ≠ e.qid) →
    Completes (.deleteIoCq t) s (fun u => others u ∧ ((u.fn f).cq e.qid).size = 0 ∧ (u.fn f).sqs = (s.die.fn f).sqs ∧
      ∀ y, y ≠ e.qid → (u.fn f).cq y = (s.die.fn f).cq y)) ∧
  (s.die.adminTag t 0x00 e → e.qid ≠ 0 → ((s.die.fn f).sq e.qid).size ≠ 0 →
    (∀ x ∈ s.die.qe.tags, x.2.st = .free ∨ x.2.fn ≠ f ∨ x.2.sq ≠ e.qid) →
    Completes (.deleteIoSq t) s (fun u => others u ∧ ((u.fn f).sq e.qid).size = 0 ∧ (u.fn f).cqs = (s.die.fn f).cqs ∧
      ∀ y, y ≠ e.qid → (u.fn f).sq y = (s.die.fn f).sq y))

/-- GET_LOG_PAGE, NVME_IDENTIFY, NVME_MI_BASIC_MANAGEMENT. -/
def Obligations.AdminDataIsSent : Prop := ∀ (s : State) (t : Nat) (e : SqEntry),
  let f := (s.die.tag t).fn
  let cns := bitsOf e.cdw10 0 8
  (s.die.adminTag t 0x02 e → logSupported f e.lid = true → (e.lid = 0xBF → s.die.reaches f e.ns = true) → Completes (.getLogPage t) s (fun u => u.ends t stOk ∧
    u.out = .logPage f t e.lid (s.die.logData f e.lid e.ns) :: s.die.out ∧
    (e.rae = true → { u with qe := s.die.qe, out := s.die.out, link := s.die.link, life := { u.life with gated := s.die.life.gated } } = s.die) ∧
    (e.rae = false → ((u.fn f).unread ++ (u.fn f).held).all (fun a => a.page != e.lid) = true))) ∧
  (s.die.adminTag t 0x06 e → cnsSupported.contains cns = true → ([0x00, 0x03, 0x05, 0x08, 0x11].contains cns = true → 1 ≤ e.ns ∧ e.ns ≤ 16384) →
    Completes (.nvmeIdentify t) s (fun u => u.ends t stOk ∧
      u.out = .logPage f t (0x600 + cns) (s.die.identifyData f cns e.ns (bitsOf e.cdw11 24 8)) :: s.die.out ∧
      { u with qe := s.die.qe, out := s.die.out, link := s.die.link, life := { u.life with gated := s.die.life.gated } } = s.die)) ∧
  (s.die.awake = true → Completes .nvmeMiBasicManagement s (fun u => u.mc.mi.length = 9 ∧ u.out = .mi u.mc.mi :: s.die.out ∧
    { u with mc := { u.mc with mi := s.die.mc.mi }, out := s.die.out } = s.die))

/-- SET_FEATURES, SET_FEATURES_INTERRUPT_COALESCING, SET_FEATURES_INTERRUPT_VECTOR_CONFIG, SET_FEATURES_NUMBER_OF_QUEUES, SET_FEATURES_FDP,
GET_FEATURES, ASYNCHRONOUS_EVENT_REQUEST, ABORT. -/
def Obligations.FeaturesAreStored : Prop := ∀ (s : State) (t : Nat) (e : SqEntry),
  let f := (s.die.tag t).fn
  let named := fun (x : Nat × Tag) => x.2.st != .free && x.2.fn == f && x.2.sq == bitsOf e.cdw10 0 16 && x.2.sq != 0
    && (match x.2.entry with | some y => y.cid == bitsOf e.cdw10 16 16 | none => false)
  let aborts := (s.die.qe.tags.filter (fun x => x.1 != t && x.2.st != .free && x.2.fn == f && x.2.adminOpc == 0x08 && decide (x.2.order < (s.die.tag t).order))).length
  (∀ data, s.die.adminTag t 0x09 e → plainFids.contains e.fid = true → featBad (s.die.fn f) e = false → e.sv = false →
    (e.fid = 0x0E → s.die.pointerBad (s.die.tag t) e 8 = none) →
    Completes (.setFeatures t data) s (fun u => u.ends t stOk ∧
      (e.fid = 0x0E → u.mc.stamp = (bitsOf data 0 48, s.die.now)) ∧
      (e.fid ≠ 0x0E → Tbl.get 0 (u.fn f).feats (featKey e) = (if e.fid = 0x1E then e.cdw12.toNat else e.cdw11.toNat)))) ∧
  (s.die.adminTag t 0x09 e → e.fid = 0x08 → e.sv = false → Completes (.setFeaturesInterruptCoalescing t) s (fun u => u.ends t stOk ∧
    (u.fn f).ndef = BitVec.ofNat 32 (min (bitsOf e.cdw11 0 8 + 1) 255 + 256 * min (bitsOf e.cdw11 8 8 * 100) 1000))) ∧
  (s.die.adminTag t 0x09 e → e.fid = 0x09 → e.sv = false → bitsOf e.cdw11 0 16 < (s.die.tenant f).vectors →
    Completes (.setFeaturesInterruptVectorConfig t) s (fun u => u.ends t stOk ∧
      ((u.fn f).vec (bitsOf e.cdw11 0 16)).cd = (bitsOf e.cdw11 16 1 == 1) ∧
      ∀ v, v ≠ bitsOf e.cdw11 0 16 → (u.fn f).vec v = (s.die.fn f).vec v)) ∧
  (s.die.adminTag t 0x09 e → e.fid = 0x07 → e.sv = false → Completes (.setFeaturesNumberOfQueues t) s (fun u => u.ends t stOk ∧
    (1 ≤ (s.die.tenant f).qpairs → (u.tag t).dw0 = BitVec.ofNat 32 (((s.die.tenant f).qpairs - 1) * 65537)))) ∧
  (s.die.adminTag t 0x09 e → e.fid = 0x1D → e.sv = false → f = 0 → s.die.endgBad e = false → bitsOf e.cdw12 8 8 = 0 → (∀ x ∈ s.die.nss, x.2.alive = false ∨ x.2.home ≠ s.die.anaGroup) →
    Completes (.setFeaturesFdp t) s (fun u => u.ends t stOk ∧ u.mc.fdp = (bitsOf e.cdw12 0 1 == 1))) ∧
  (s.die.adminTag t 0x0A e → e.fid = 0x01 → bitsOf e.cdw10 8 3 = 0 → Completes (.getFeatures t) s (fun u => u.ends t stOk ∧
    (u.tag t).dw0 = BitVec.ofNat 32 (Tbl.get 0 (s.die.fn f).feats 0x01) ∧ { u with qe := s.die.qe } = s.die)) ∧
  (s.die.adminTag t 0x0C e → (s.die.fn f).aers.contains t = false → (s.die.fn f).aers.length < 16 → (s.die.fn f).held = [] →
    Completes (.asynchronousEventRequest t) s (fun u => (u.fn f).aers = (s.die.fn f).aers ++ [t] ∧ (u.tag t).st = .admitted)) ∧
  (∀ a, s.die.adminTag t 0x0C e → (s.die.fn f).aers = [] → (s.die.fn f).held = [a] → (s.die.fn f).unread.all (fun b => b.etype != a.etype) = true →
    Completes (.asynchronousEventRequest t) s (fun u => u.ends t stOk ∧ (u.tag t).dw0 = a.dw0 ∧ (u.fn f).unread = (s.die.fn f).unread ++ [a]
      ∧ (u.fn f).aers = [] ∧ (u.fn f).held = [])) ∧
  (s.die.adminTag t 0x08 e → (s.die.tag t).target = none → aborts < 16 → s.die.qe.tags.all (fun x => !named x) = true →
    Completes (.abort t) s (fun u => u.ends t stOk ∧ (u.tag t).dw0 = 1)) ∧
  (∀ v, s.die.adminTag t 0x08 e → (s.die.tag t).target = none → aborts < 16 → v ≠ t → s.die.qe.tags.contains (v, s.die.tag v) = true →
    named (v, s.die.tag v) = true → s.die.qe.tags.all (fun x => !named x || x == (v, s.die.tag v)) = true → (s.die.tag v).early = true →
    (s.die.tag v).forwarded = false → Completes (.abort t) s (fun u => u.ends v stAbortRequested ∧ u.ends t stOk ∧ (u.tag t).dw0 = 0))

/-- NAMESPACE_MANAGEMENT_CREATE, NAMESPACE_MANAGEMENT_DELETE, NAMESPACE_ATTACH, NAMESPACE_DETACH, FORMAT_NVM, FORMAT_NVM_CRYPTO_ERASE: the conditions are
those of R124, R126, R129, R153 and R328. -/
def Obligations.AdminNamespacesChange : Prop := ∀ (s : State) (t : Nat) (e : SqEntry),
  let f := (s.die.tag t).fn
  let n := s.die.ns e.ns
  let lbaf := bitsOf e.cdw10 0 4
  (∀ c, s.die.adminTag t 0x0D e → bitsOf e.cdw10 0 4 = 0 → s.die.nsRefused f c = none → Completes (.namespaceManagementCreate t c) s (fun u =>
    let i := s.die.freeNsid.getD 1
    u.ends t stOk ∧ (u.tag t).dw0 = BitVec.ofNat 32 i ∧ u.ns i = { s.die.nsOf f c with salt := BitVec.ofNat 256 s.die.freeVal, saltOn := s.die.mirrors } ∧
      ∀ j, j ≠ i → u.ns j = s.die.ns j)) ∧
  (let ids := if e.ns = nsidAll then s.die.nsList 0 (fun m => m.owner == f) else [e.ns];
    s.die.adminTag t 0x0D e → bitsOf e.cdw10 0 4 = 1 → (e.ns ≠ nsidAll → 1 ≤ e.ns ∧ n.alive = true ∧ n.owner = f) →
    ids.all (fun i => (s.die.anaRefuses i).isNone && !s.die.nsInFlight i none && !(s.die.ns i).busy) = true →
    Completes (.namespaceManagementDelete t) s (fun u => u.ends t stOk ∧ ids.all (fun i => !(u.ns i).alive) = true)) ∧
  (s.die.adminTag t 0x15 e → bitsOf e.cdw10 0 4 = 0 → n.alive = true → n.owner = f → s.die.deleting e.ns = false → n.attached.contains f = false →
    Completes (.namespaceAttach t [f]) s (fun u => u.ends t stOk ∧ u.ns e.ns = { n with attached := n.attached ++ [f] } ∧
      ∀ j, j ≠ e.ns → u.ns j = s.die.ns j)) ∧
  (s.die.adminTag t 0x15 e → bitsOf e.cdw10 0 4 = 1 → n.alive = true → n.owner = f → s.die.deleting e.ns = false → n.attached.contains f = true →
    s.die.nsInFlight e.ns (some f) = false → Completes (.namespaceDetach t [f]) s (fun u => u.ends t stOk ∧
      u.ns e.ns = { n with attached := n.attached.filter (fun x => x != f) } ∧ ∀ j, j ≠ e.ns → u.ns j = s.die.ns j)) ∧
  (∀ size, s.die.adminTag t 0x80 e → bitsOf e.cdw10 9 3 = 0 → s.die.reaches f e.ns = true → s.die.anaRefuses e.ns = none →
    n.formatOk lbaf = true → bitsOf e.cdw10 4 5 = 0 → n.sizeUnder lbaf = some size → s.die.earlierDone e true (s.die.tag t).order = true →
    Completes (.formatNvm t) s (fun u => u.ends t stOk ∧ (u.ns e.ns).lbaf = lbaf ∧ (u.ns e.ns).nsze = size ∧ (u.ns e.ns).map = [] ∧
      (u.ns e.ns).crumbs = [] ∧ (u.ns e.ns).zones = [] ∧ (u.ns e.ns).salt = n.salt)) ∧
  (∀ size, s.die.adminTag t 0x80 e → bitsOf e.cdw10 9 3 = 2 → s.die.reaches f e.ns = true → s.die.anaRefuses e.ns = none →
    n.formatOk lbaf = true → bitsOf e.cdw10 4 5 = 0 → n.sizeUnder lbaf = some size → s.die.earlierDone e true (s.die.tag t).order = true →
    Completes (.formatNvmCryptoErase t) s (fun u => u.ends t stOk ∧ (u.ns e.ns).lbaf = lbaf ∧ (u.ns e.ns).nsze = size ∧ (u.ns e.ns).map = [] ∧
      (u.ns e.ns).crumbs = [] ∧ (u.ns e.ns).zones = [] ∧ (u.ns e.ns).salt = BitVec.ofNat 256 s.die.freeVal))

/-- SELFTEST_RUN, DEVICE_SELF_TEST_SHORT, DEVICE_SELF_TEST_EXTENDED, DEVICE_SELF_TEST_ABORT, SELFTEST_SLICE, UNIT_RESTORE. -/
def Obligations.SelfTestsRun : Prop := ∀ (s : State) (t : Nat) (e : SqEntry) (q : KReq),
  (s.die.adminTag t 0x14 e → bitsOf e.cdw10 0 4 = 1 → s.die.units.run = none → Completes (.deviceSelfTestShort t) s (fun u =>
    u.ends t stOk ∧ ∃ r, u.units.run = some r ∧ r.what = 1 ∧ r.fn = (s.die.tag t).fn)) ∧
  (s.die.adminTag t 0x14 e → bitsOf e.cdw10 0 4 = 2 → s.die.units.run = none → Completes (.deviceSelfTestExtended t) s (fun u =>
    u.ends t stOk ∧ ∃ r, u.units.run = some r ∧ r.what = 2 ∧ r.fn = (s.die.tag t).fn)) ∧
  (∀ r, s.die.adminTag t 0x14 e → bitsOf e.cdw10 0 4 = 0xF → s.die.units.run = some r → r.what ≠ 0 → Completes (.deviceSelfTestAbort t) s (fun u =>
    u.ends t stOk ∧ u.units.run = none ∧ (u.fn r.fn).dstLog = some (1, 0, 0))) ∧
  (s.die.takes q 0x0804 false 4 [(0, 1), (2, 2)] = true → q.get 0 1 < 7 → q.get 2 2 < kindTotal (q.get 0 1) →
    s.die.units.map.contains (q.get 0 1, q.get 2 2) = true → Completes (.unitRestore q true) s (fun u =>
      u.answered q.fn kOk ∧ u.units.map.contains (q.get 0 1, q.get 2 2) = false ∧
      u.unit (q.get 0 1) (q.get 2 2) = (if q.get 0 1 < 4 then .spare else .inService))) ∧
  (∀ k, s.die.takes q 0x0801 false 4 [(0, 4)] = true → k < 7 → q.get 0 2 = 2 ^ k → q.get 2 2 < kindTotal k → s.die.units.run = none →
    Completes (.selftestRun q) s (fun u => u.stillRuns q.fn 0x0801 ∧ (u.fn q.fn).mbx.progTotal = 1 ∧
      ∃ r, u.units.run = some r ∧ r.todo = [(k, q.get 2 2)])) ∧
  (∀ kind inst, s.die.serves = true → kind < 7 → inst < kindTotal kind → s.die.sliceDue kind inst = true → s.die.unit kind inst = .inService →
    s.die.standIn kind inst = true → (kind = 0 → s.die.bankIdle inst = true) → Completes (.selftestSlice kind inst true true) s (fun u =>
      (4 ≤ kind → u.units.st = s.die.units.st) ∧ (kind < 4 → u.unit kind inst = .spare) ∧
      (kind < 4 → u.unit kind ((s.die.freeSpare kind inst).getD 0) = .inService) ∧ u.units.map = s.die.units.map ∧
      (Tbl.get {} u.units.counts kind).passed = satInc 0xFFFFFFFF (Tbl.get {} s.die.units.counts kind).passed)) ∧
  (∀ kind inst, s.die.serves = true → kind < 7 → inst < kindTotal kind → s.die.sliceDue kind inst = true → s.die.canTest kind inst = true →
    (kind = 0 → s.die.bankIdle inst = true) → Completes (.selftestSlice kind inst true false) s (fun u =>
      u.units.map.contains (kind, inst) = true ∧ u.unit kind inst = .unusable ∧
      (Tbl.get {} u.units.counts kind).failed = satInc 0xFFFF (Tbl.get {} s.die.units.counts kind).failed))

/-- FLR, CONVENTIONAL_RESET, VF_ENABLE_WRITE, D3HOT_ENTRY, RETURN_TO_D0, FERR_WRITE, MSIX_ENABLE_WRITE, VECTOR_MASK_WRITE. -/
def Obligations.FunctionsAreReset : Prop := ∀ (s : State) (n : Nat), s.die.awake = true →
  (n ≠ 0 → s.die.fnPresent n = true → Completes (.flr n) s (fun t => (t.fn n).cc = 0 ∧ (t.fn n).d3 = false ∧ (t.fn n).vecs = []
    ∧ ((s.die.fn n).st = .ready → (t.fn n).st = .teardown) ∧ ((s.die.fn n).st = .fenced → (t.fn n).st = .fenced))) ∧
  (s.die.hasHostLink = true → Completes (.flr 0) s (fun t => (t.fn 0).cc = 0 ∧ t.link.vfEnable = false ∧ t.link.numVfs = 0)) ∧
  (s.die.hasHostLink = true → Completes .conventionalReset s (fun t => t.link.vfEnable = false ∧ t.link.numVfs = 0 ∧ (t.fn 0).cc = 0)) ∧
  (∀ k, s.die.hasHostLink = true → k ≤ 2047 → Completes (.vfEnableWrite true k) s (fun t => t.link.vfEnable = true ∧ t.link.numVfs = k)
    ∧ Completes (.vfEnableWrite false k) s (fun t => t.link.vfEnable = false ∧ t.link.numVfs = k)) ∧
  (s.die.fnPresent n = true → (s.die.fn n).d3 = false → Completes (.d3hotEntry n) s (fun t => (t.fn n).d3 = true ∧
    ((s.die.fn n).rdy = true → (t.fn n).shst = 2) ∧ ((s.die.fn n).rdy = true → (s.die.fn n).st = .ready → (t.fn n).st = .teardown))) ∧
  ((s.die.fn n).d3 = true → Completes (.returnToD0 n) s (fun t =>
    (t.fn n).d3 = false ∧ (t.fn n).cc = 0 ∧ (t.fn n).msixEn = false)) ∧
  (∀ v : Word, s.die.fnPresent n = true → Completes (.ferrWrite n v) s (fun t => (t.fn n).ferr.getLsbD 7 = (s.die.fn n).ferr.getLsbD 7
    ∧ ∀ i, i < 9 → i ≠ 7 → (t.fn n).ferr.getLsbD i = ((s.die.fn n).ferr.getLsbD i && !v.getLsbD i))) ∧
  (s.die.fnPresent n = true → Completes (.msixEnableWrite n false) s (fun t => (t.fn n).msixEn = false
    ∧ ∀ v, ((t.fn n).vec v).count = 0 ∧ ((t.fn n).vec v).due = none)
    ∧ Completes (.msixEnableWrite n true) s (fun t => (t.fn n).msixEn = true ∧ (t.fn n).vecs = (s.die.fn n).vecs)) ∧
  (∀ v m, s.die.fnPresent n = true → v < (s.die.tenant n).vectors → Completes (.vectorMaskWrite n (some v) m) s (fun t =>
    ((t.fn n).vec v).mask = m)) ∧
  (∀ m, s.die.fnPresent n = true → Completes (.vectorMaskWrite n none m) s (fun t => (t.fn n).funcMask = m))

/-- CC_EN_SET, FUNCTION_READY, CC_EN_CLEAR, TEARDOWN_COMPLETE, TEARDOWN_LATE, CC_SHN_NORMAL, CC_SHN_ABRUPT. -/
def Obligations.FunctionsStartAndEnd : Prop := ∀ (s : State) (n : Nat) (cc : Word), s.die.awake = true →
  (s.die.fnPresent n = true → (s.die.fn n).d3 = false → cc.getLsbD 0 = true → (ccCss cc = 0 ∨ ccCss cc = 6) →
    ((s.die.fn n).st = .off ∨ (s.die.fn n).st = .fenced) → (s.die.fn n).cc.getLsbD 0 = false → (s.die.tenant n).alive = true →
    Completes (.ccEnSet n cc) s (fun t => (t.fn n).st = .enabling ∧ (t.fn n).cc = cc &&& 0x00FFFFF1#32 ∧ (t.fn n).ferr.getLsbD 7 = false)) ∧
  (s.die.fnPresent n = true → (s.die.fn n).d3 = false → cc.getLsbD 0 = true → (s.die.fn n).st = .teardown →
    Completes (.ccEnSet n cc) s (fun t => (t.fn n).st = .teardown ∧ (t.fn n).reenable = true)) ∧
  ((s.die.fn n).st = .enabling → s.die.life.phase = .ready → Completes (.functionReady n) s (fun t => (t.fn n).st = .ready ∧ (t.fn n).rdy = true
    ∧ ((t.fn n).sq 0).size = bitsOf (s.die.fn n).aqa 0 12 + 1 ∧ ((t.fn n).cq 0).size = bitsOf (s.die.fn n).aqa 16 12 + 1)) ∧
  (s.die.fnPresent n = true → (s.die.fn n).d3 = false → cc.getLsbD 0 = false → (s.die.fn n).st = .ready →
    Completes (.ccEnClear n cc) s (fun t => (t.fn n).st = .teardown ∧ (t.fn n).rdy = false ∧ (t.fn n).sqs = [])) ∧
  ((s.die.fn n).st = .teardown → (s.die.fn n).reenable = false → Completes (.teardownComplete n) s (fun t => (t.fn n).st = .off ∧ (t.fn n).mbx = {})) ∧
  ((s.die.fn n).st = .teardown → (s.die.fn n).reenable = true → (ccCss (s.die.fn n).cc = 0 ∨ ccCss (s.die.fn n).cc = 6) → (s.die.tenant n).alive = true →
    Completes (.teardownComplete n) s (fun t => (t.fn n).st = .enabling ∧ (t.fn n).mbx = {} ∧ (t.fn n).reenable = false)) ∧
  ((s.die.fn n).st = .teardown → s.die.qe.hold = false → (s.die.fn n).since + 2000000 ≤ s.die.now →
    Completes (.teardownLate n) s (fun t => (t.fn n).st = .fenced ∧ (t.fn n).cfs = true)) ∧
  ((s.die.fn n).st = .ready → Completes (.ccShnNormal n) s (fun t => (t.fn n).fetchStopped = true ∧ (t.fn n).aers = []
    ∧ ((t.fn n).shst = 1 ∨ (t.fn n).shst = 2))) ∧
  ((s.die.fn n).st = .ready → Completes (.ccShnAbrupt n) s (fun t => (t.fn n).fetchStopped = true ∧ (t.fn n).shst = 2 ∧ (t.fn n).aers = []))

/-- REGISTER_WRITE, OUT_OF_BAR_REQUEST, GATED_REGISTER_ACCESS. -/
def Obligations.RegistersTakeWrites : Prop := ∀ (s : State) (n : Nat) (v : Word64) (w : Word), s.die.awake = true →
  (s.die.fnPresent n = true → (s.die.fn n).d3 = false →
    Completes (.registerWrite n 0 0x24 4 v) s (fun t => (t.fn n).aqa = v.truncate 32 &&& 0x0FFF0FFF#32 ∧ (t.fn n).asq = (s.die.fn n).asq
      ∧ (t.fn n).mbx = (s.die.fn n).mbx ∧ ∀ m, m ≠ n → t.fn m = s.die.fn m)) ∧
  (∀ off, off < 4096 → s.die.fnPresent n = true → (s.die.fn n).d3 = false → (s.die.fn n).mbx.req.wf = true →
    Completes (.registerWrite n 0 (0x81000 + off) 1 v) s (fun t => Memory.read (t.fn n).mbx.req off = v.truncate 8
      ∧ (∀ a, a ≠ off → Memory.read (t.fn n).mbx.req a = Memory.read (s.die.fn n).mbx.req a) ∧ (t.fn n).mbx.req.wf = true
      ∧ (t.fn n).mbx.resp = (s.die.fn n).mbx.resp ∧ (t.fn n).cc = (s.die.fn n).cc)) ∧
  (∀ bar off size, off % 4 ≠ 0 → ¬ (bar = 0 ∧ 0x81000 ≤ off ∧ off < 0x82000) → ¬ (bar = 0 ∧ 0x1000 ≤ off ∧ off < 0x80000) →
    Completes (.registerWrite n bar off size v) s (fun t => t = s.die)) ∧
  (∀ y, y < 32512 → s.die.fnPresent n = true → (s.die.fn n).d3 = false →
    exec (.registerWrite n 0 (0x1000 + 16 * y) 4 v) s = exec (.sqTailDoorbell n y (v.truncate 32) true) s ∧
    exec (.registerWrite n 0 (0x1008 + 16 * y) 4 v) s = exec (.cqHeadDoorbell n y (v.truncate 32) true) s) ∧
  (∀ a b, s.die.hasHostLink = true → Completes (.outOfBarRequest n a b) s (fun t => t.out = .unsupportedRequest n a :: s.die.out ∧ t.funcs = s.die.funcs)) ∧
  (∀ off, s.die.fnPresent n = true → off % 4 = 0 → Completes (.gatedRegisterAccess n off false w true) s (fun t =>
    t.out = .readValue n off (s.die.readDword n off) :: s.die.out ∧ t.funcs = s.die.funcs)) ∧
  (∀ off, s.die.fnPresent n = true → off % 4 = 0 → Completes (.gatedRegisterAccess n off true w true) s (fun t => t = s.die.writeBar0 n off w)) ∧
  (∀ off, s.die.fnPresent n = true → off % 4 = 0 → Completes (.gatedRegisterAccess n off false w false) s (fun t =>
    (t.fn n).ferr.getLsbD 0 = true ∧ (t.fn n).ferrAddr = off ∧ t.out.head? = some (.readValue n off 0xFFFFFFFF#32)))

/-- HOST_READ_FAILURE, POISONED_TLP_RECEIVED, SQ_FETCH_FAIL: the FERR bit of the function and the fate of its commands. A tag that is itself
a waiting Asynchronous Event Request is left out, since the event of the FERR bit may end it. -/
def Obligations.HostErrorsAreRecorded : Prop := ∀ (s : State) (t n q : Nat) (e : SqEntry), s.die.awake = true →
  let x := s.die.tag t
  (∀ st, x.entry = some e → (x.st = .bound ∨ x.st = .admitted ∨ x.st = .pull ∨ x.st = .media) → (s.die.fn x.fn).aers.contains t = false → st < 8 →
    Completes (.hostReadFailure t st) s (fun d => d.ends t stDataTransfer ∧ (d.fn x.fn).ferr.getLsbD 1 = true
      ∧ (d.fn x.fn).aer.uncorrectable.contains (.readFailed st) = true)) ∧
  (∀ st, x.entry = some e → (x.st = .bound ∨ x.st = .admitted ∨ x.st = .pull ∨ x.st = .media) → Config.listStatuses.contains st = true →
    Completes (.hostReadFailure t st) s (fun d => d.ends t (0x0, st))) ∧
  (x.entry = some e → (x.st = .pull ∨ x.st = .admitted) → (s.die.fn x.fn).aers.contains t = false →
    Completes (.poisonedTlpReceived t) s (fun d => d.ends t stDataTransfer ∧ (d.fn x.fn).ferr.getLsbD 2 = true
      ∧ (d.fn x.fn).aer.advisory.contains .poisonedTlp = true)) ∧
  ((s.die.fn n).st = .ready → ((s.die.fn n).sq q).size ≠ 0 → Completes (.sqFetchFail n q) s (fun d =>
    (d.fn n).cfs = true ∧ (d.fn n).fetchStopped = true ∧ (d.fn n).ferr.getLsbD 6 = true))

/-- UCIE_TRAINING, LANE_ERROR, DL_DOWN, FLIT_CRC_ERROR, L1_REQUEST, L2_REQUEST, GATED_ISLAND_WAKE. -/
def Obligations.HostLinkMoves : Prop := ∀ (s : State) (u : UcieEnv), s.die.awake = true →
  (∀ m l r, s.die.hasHostLink = true → s.die.life.refclkLost = [] → s.die.life.fencedIslands = [] → u.degraded = [] → u.repaired = [] → u.hostMask = 0xFF#8 →
    (∀ i, i < 8 → u.rates[i]? = some (some r)) → r ≤ 5 →
    let up := fun (t : Die) => t.link.st = .l0 ∧ t.link.mask = 0xFF#8 ∧ t.link.rate = r ∧ t.funcs = s.die.funcs ∧ t.out = .activeMask 0 0xFF#8 :: s.die.out
    Completes (.ucieTraining u) s up ∧ Completes (.laneError m l u) s up) ∧
  (s.die.hasHostLink = true → s.die.life.refclkLost = [] → s.die.life.fencedIslands = [] → u.degraded = [] → u.repaired = [] → u.hostMask ≠ 0xFF#8 →
    (∀ i, i < 8 → ∃ r, u.rates[i]? = some (some r)) → Completes (.ucieTraining u) s (fun t => t.link.st = .down ∧ t.link.mask = 0xFF#8)) ∧
  (∀ c, s.die.hasHostLink = true → s.die.link.st ≠ .down → Completes (.dlDown c) s (fun t => t.link.st = .down ∧ t.link.vfEnable = false ∧ (t.fn 0).cc = 0)) ∧
  (s.die.hasHostLink = true → s.die.link.crcSecond = s.die.now / 1000000 → s.die.link.crcInSecond < 1000 → Completes .flitCrcError s (fun t =>
    t.link.crcInSecond = s.die.link.crcInSecond + 1 ∧ t.lb = s.die.lb)) ∧
  (s.die.hasHostLink = true → s.die.link.st = .l0 → Completes (.l1Request false) s (fun t => t.link.st = .l1)
    ∧ Completes (.l1Request true) s (fun t => t.link.st = .l0)) ∧
  (s.die.hasHostLink = true → (s.die.link.st = .l0 ∨ s.die.link.st = .l1) → s.die.allD3 = true → Completes .l2Request s (fun t => t.link.st = .l2)) ∧
  (∀ i, s.die.life.fencedIslands.contains i = false → s.die.noModules.contains i = false → Completes (.gatedIslandWake i) s (fun t => t.life.gated.contains i = false))

/-- SQ_TAIL_DOORBELL, CQ_HEAD_DOORBELL, QE_VMOD_WRITE, QE_NDEF_WRITE (clamped: the model's choice, log entry 26), MODERATION_TIMER_DUE. -/
def Obligations.VectorsAreModerated : Prop := ∀ (s : State) (n y v : Nat) (w : Word), s.die.awake = true →
  (bitsOf w 0 16 < ((s.die.fn n).sq y).size → Completes (.sqTailDoorbell n y w true) s (fun t => ((t.fn n).sq y).tail = bitsOf w 0 16
    ∧ ((t.fn n).sq y).head = ((s.die.fn n).sq y).head)) ∧
  (bitsOf w 0 16 < ((s.die.fn n).cq y).size → Completes (.cqHeadDoorbell n y w true) s (fun t => ((t.fn n).cq y).head = bitsOf w 0 16
    ∧ ((t.fn n).cq y).tail = ((s.die.fn n).cq y).tail)) ∧
  (s.die.fnPresent n = true → v < (s.die.tenant n).vectors → Completes (.qeVmodWrite n v w) s (fun t => let x := ((t.fn n).vec v).vmod
    bitsOf x 0 8 = max 1 (bitsOf w 0 8) ∧ bitsOf x 8 10 = min 1000 (bitsOf w 8 10) ∧ bitsOf x 18 3 = bitsOf w 18 3 ∧ bitsOf x 21 11 = 0)) ∧
  ((s.die.tenant n).vectors ≤ v → Completes (.qeVmodWrite n v w) s (fun t => t = s.die)) ∧
  (s.die.fnPresent n = true → Completes (.qeNdefWrite n w) s (fun t => bitsOf (t.fn n).ndef 0 8 = max 1 (bitsOf w 0 8) ∧ bitsOf (t.fn n).ndef 8 10 = min 1000 (bitsOf w 8 10))) ∧
  (∀ due, ((s.die.fn n).vec v).due = some due → due ≤ s.die.now → (s.die.fn n).msixEn = true → (s.die.fn n).d3 = false →
    (s.die.fn n).funcMask = false → ((s.die.fn n).vec v).mask = false → Completes (.moderationTimerDue n v) s (fun t =>
      ((t.fn n).vec v).count = 0 ∧ ((t.fn n).vec v).due = none
        ∧ t.out = .msix n v ((s.die.fn n).vec v).addr ((s.die.fn n).vec v).data :: s.die.out))

/-- EVENT_OCCURRENCE, EVENT_CLAIM, EOI, EVC_SRC_CFG_WRITE, EVC_GCTRL_WRITE, EVC_RQ_HEAD_WRITE. -/
def Obligations.EventsReachHandlers : Prop := ∀ (s : State) (n c : Nat) (p : Word64) (w : Word), s.die.awake = true →
  (n < 0xF00 → (s.die.src n).isRecord = false → (s.die.src n).st = .idle → Completes (.eventOccurrence n p) s (fun t =>
    (t.src n).st = .pending ∧ (t.src n).count = 1 ∧ (t.src n).payload = p)) ∧
  (n < 0xF00 → (s.die.src n).isRecord = true → (s.die.src n).ovf = 0 → s.die.mc.fill < Config.recordQueue → 0 < s.die.mc.fill →
    Completes (.eventOccurrence n p) s (fun t => t.mc.tail = (s.die.mc.tail + 1) % Config.recordQueue ∧ t.mc.fill = s.die.mc.fill + 1
      ∧ ∃ r, (s.die.mc.tail, r) ∈ t.mc.recs ∧ r.src = n ∧ r.payload = p.toNat)) ∧
  (s.die.claimable (s.die.src n) = true → s.die.coreFor (s.die.src n) = some c → s.die.goesFirst c n = false →
    Completes (.eventClaim n) s (fun t => (t.src n).st = .active ∧ (t.src n).count = 0 ∧ (t.src n).core = c
      ∧ t.handler c = some (n, (s.die.src n).prio))) ∧
  (∀ pr r, n ≠ 0 → Tbl.get [] s.die.mc.run c = (n, pr) :: r → (s.die.src n).st = .active → Completes (.eoi c n) s (fun t =>
    (t.src n).st = .idle ∧ Tbl.get [] t.mc.run c = r)) ∧
  (n < 4096 → Completes (.evcSrcCfgWrite n w) s (fun t => (t.src n).cfg = srcCfg w ∧ bitsOf (t.src n).cfg 7 1 = 0 ∧ bitsOf (t.src n).cfg 25 7 = 0
    ∧ (t.src n).targets = fun i => decide (i < 17) && w.getLsbD (8 + i))) ∧
  Completes (.evcGctrlWrite w) s (fun t => t.mc = { s.die.mc with gen := w.getLsbD 0 }) ∧
  Completes (.evcRqHeadWrite w) s (fun t => t.mc.head = bitsOf w 0 13)

/-- POWER_ON_RESET, COLD_RST_N_RISE, START_WATCHDOG_EXPIRY, DEVICE_RESTART, SUPPLY_LOSS, COLD_RST_N_FALL, PF_N_FALL, RAIL_OUT_OF_WINDOW, PF_N_RISE. -/
def Obligations.ResetsStartTheDie : Prop := ∀ (s : State) (e : BootEnv) (k : DockEnv),
  let l := s.die.life
  let waits := fun (t : Die) => t.life.phase = .waitPf ∧ t.life.startTime = s.die.now ∧ t.link.st = .down ∧ ∀ n, (t.fn n).st = .off
  (l.aonPower = false → l.coldRstN = true → s.die.aon.pfN = false → Completes (.powerOnReset e) s (fun t => waits t ∧ t.life.aonPower = true
    ∧ t.life.manager = (l.pinRole && !l.partPW) ∧ t.life.quayId = l.pinQuay ∧ t.aon.zero = s.die.now)) ∧
  (l.coldRstN = false → l.aonPower = true → s.die.aon.pfN = false → Completes (.coldRstNRise e) s (fun t => waits t ∧ t.life.coldRstN = true
    ∧ t.life.manager = (l.pinRole && !l.partPW) ∧ t.aon.zero = s.die.now)) ∧
  (l.phase = .starting → l.startTime + 60000000 ≤ s.die.now → s.die.aon.pfN = false → Completes (.startWatchdogExpiry e) s (fun t => waits t
    ∧ t.life.manager = l.manager ∧ t.aon.zero = s.die.aon.zero)) ∧
  (l.restart = true → l.phase = .parked → l.coldRstN = true → s.die.aon.pfN = false → Completes (.deviceRestart e) s (fun t => waits t
    ∧ t.life.manager = l.manager ∧ t.life.restart = false)) ∧
  Completes .supplyLoss s (fun t => t.life.phase = .off ∧ t.life.aonPower = false ∧ t.lb.ring = [] ∧ t.lb.lost = true ∧ t.link.st = .down) ∧
  (s.die.settledP0 = true → l.coldRstN = true → Completes (.coldRstNFall k) s (fun t => t.life.phase = .parked ∧ t.life.coldRstN = false ∧ t.link.st = .down)) ∧
  (s.die.settledP0 = true → Completes (.pfNFall k) s (fun t => t.life.phase = .parked ∧ t.aon.pfN = false ∧ t.link.st = .down)) ∧
  (∀ r, s.die.settledP0 = true → (r ≠ .vucie ∨ l.manager = true) → Completes (.railOutOfWindow r k) s (fun t => t.life.phase = .parked
    ∧ t.life.railsOut.contains r = true)) ∧
  (s.die.settledP0 = true → l.manager = false → Completes (.railOutOfWindow .vucie k) s (fun t => t = s.die)) ∧
  Completes (.pfNRise false e) s (fun t => t = { s.die with aon := { s.die.aon with pfN := true } }) ∧
  (l.phase = .waitPf → e.bootStoreOk = false → Completes (.pfNRise true e) s (fun t => t.life.phase = .romHold ∧ t.life.alert = true))

/-- PF_N_RISE at a start: R513 from step 2 to step 15. -/
def Obligations.ColdStartReachesReady : Prop := ∀ (s : State) (e : BootEnv),
  s.die.life.phase = .waitPf → s.die.life.manager = true → s.die.life.partPW = false → s.die.life.bootSel = false → s.die.units.map = [] →
  s.die.units.st = [] →
  s.die.fw.act.st = 0 → s.die.fw.valid (fun _ => true) s.die.fw.act.run = true → (∀ i ∈ List.range 64, (s.die.sensor i).faulty = false) → s.die.bp.ports = [] → s.die.lb.lost = false →
  e.smooth = true → Completes (.pfNRise true e) s (fun t => t.life.phase = .ready ∧ t.life.stopMark = .none ∧ t.aon.pfN = true)

/-- POWER_STATE_SET, IDLE_TIMER_P1, IDLE_TIMER_P2, WAKE_SOURCE. -/
def Obligations.PowerStatesAreEntered : Prop := ∀ (s : State) (q : KReq),
  let a := s.die.aon
  (s.die.takes q 0x0507 false 16 [(0, 16)] = true → powerBad q = none → q.get 0 1 = 0 → Completes (.powerStateSet q) s (fun t => t.answered q.fn kOk
    ∧ t.aon = { a with auto := q.get 1 1, t1 := q.get 2 2, t2 := q.get 4 4, alarm := q.get 8 8 })) ∧
  (s.die.takes q 0x0507 false 16 [(0, 16)] = true → powerBad q = none → q.get 0 1 ≠ 0 → a.pstate = 0 → a.entering = false → a.committed = false →
    (s.die.accepted q 0x0507).powerRefusal (q.get 0 1) 0x0507 = none → Completes (.powerStateSet q) s (fun t => t.answered q.fn kOk
      ∧ t.aon.entering = true ∧ t.aon.target = q.get 0 1 ∧ t.aon.pstate = 0)) ∧
  (∀ since, s.die.life.phase = .ready → a.entering = false → a.committed = false → a.pstate = 0 → 1 ≤ a.auto → s.die.powerRefusal 1 0 = none →
    a.idleFrom = some since → since + 1000 * a.t1 ≤ s.die.now → Completes .idleTimerP1 s (fun t => t = s.die.beginEntry 1)) ∧
  (∀ since, s.die.life.phase = .ready → a.entering = false → a.committed = false → a.pstate = 1 → 2 ≤ a.auto → s.die.powerRefusal 2 0 = none →
    a.idleFrom = some since → since + 1000 * a.t2 ≤ s.die.now → Completes .idleTimerP2 s (fun t => t = s.die.beginEntry 2)) ∧
  (∀ c b ch bs, s.die.awake = true → a.entering = false → a.committed = false → a.pstate = 1 → wakesFrom c 1 = true → Completes (.wakeSource c b ch bs) s (fun t =>
    t.aon.pstate = 0 ∧ t.aon.wake = c ∧ t.aon.wakeTime = a.time - a.zero ∧ t.life.gated = s.die.noModules ∧ t.te = s.die.te)) ∧
  (∀ c b ch bs, s.die.awake = true → a.entering = true → wakesFrom c a.target = true → Completes (.wakeSource c b ch bs) s (fun t =>
    t.aon.entering = false ∧ t.aon.pstate = 0 ∧ t.aon.wake = a.wake)) ∧
  (∀ c b ch bs, s.die.awake = true → a.entering = false → a.committed = true → a.latched = none → wakesFrom c a.target = true →
    Completes (.wakeSource c b ch bs) s (fun t => t = { s.die with aon := { a with latched := some c } }))

/-- PACE_SAMPLE, VCORE_ADJUST (the step is a free value, log entry 42), AVS_ABSENT, OSC_TRIM, CLOCK_LOST, CRYSTAL_STABLE, LADDER_IDLE_RESET, HELD_WRITES_RELEASE. -/
def Obligations.ClocksAndVoltageFollow : Prop := ∀ (s : State) (n i : Nat) (ps : List Nat), s.die.awake = true →
  (ps.length = 64 → (∀ p ∈ ps, p < 65536) → Completes (.paceSample ps) s (fun t => t.aon.paceMax = ps.foldl max 0
    ∧ t.aon.paceMon = ps.findIdx (fun x => x == ps.foldl max 0) ∧ t.aon.vcore = s.die.aon.vcore)) ∧
  (s.die.aon.fixed = false → s.die.sch.profile ≠ 3 → 500 < s.die.aon.paceMax → s.die.aon.vcore < 850 → Completes (.vcoreAdjust n) s (fun t =>
    s.die.aon.vcore < t.aon.vcore ∧ t.aon.vcore ≤ s.die.aon.vcore + 10 ∧ t.aon.vcore ≤ 850 ∧ t.out = .avs t.aon.vcore :: s.die.out)) ∧
  (s.die.aon.fixed = true → Completes (.vcoreAdjust n) s (fun t => t.aon.vcore = s.die.aon.vcore ∧ t.out = s.die.out)) ∧
  Completes .avsAbsent s (fun t => t.aon.fixed = true ∧ t.aon.vcore = s.die.aon.vcore) ∧
  Completes .oscTrim s (fun t => t = { s.die with aon := { s.die.aon with trims := s.die.aon.trims + 1 } }) ∧
  Completes .clockLost s (fun t => t.aon = { s.die.aon with crystal := false }) ∧
  Completes .crystalStable s (fun t => t = { s.die with aon := { s.die.aon with crystal := true } }) ∧
  ((s.die.rung n i).step ≠ 0 → (s.die.rung n i).last + 3600000000 ≤ s.die.now → Completes (.ladderIdleReset n i) s (fun t =>
    t.rung n i = {} ∧ t.ladderStep n i false = ((ladderSteps n)[0]?).getD 1 ∧ t.lb = s.die.lb)) ∧
  (s.die.unsettled + Config.limitUnit ≤ s.die.rescueLimit → Completes .heldWritesRelease s (fun t => t = { s.die with qe := { s.die.qe with writeHold := false } }))

/-- SENSOR_SAMPLE, SENSOR_EXCLUDE, SENSOR_OVERRIDE, THROTTLE_STEP_TIMER, BREAKWATER_SAMPLE, BREAKWATER_TEST, BREAKWATER_TEST_PERIODIC, BREAKWATER_TEST_END. -/
def Obligations.SensorsAndBreakwater : Prop := ∀ (s : State) (q : KReq),
  let a := s.die.aon
  (∀ v k, s.die.awake = true → -400 ≤ v → v < 900 → a.sensors = [] → a.th = .normal → Completes (.sensorSample (List.replicate 64 (some v)) k) s (fun t =>
    t.aon.th = .normal ∧ t.aon.composite = (v / 10).toNat ∧ t.lb = s.die.lb ∧ ∀ i, i < 64 → (t.sensor i).reading = v ∧ (t.sensor i).faulty = false)) ∧
  (s.die.takes q 0x050A false 2 [(0, 2)] = true → q.get 0 1 < 64 → q.get 1 1 = 0 → Completes (.sensorExclude q) s (fun t => t.answered q.fn kOk
    ∧ (t.sensor (q.get 0 1)).excluded = false)) ∧
  (s.die.takes q 0x0D03 false 6 [(0, 1), (2, 4)] = true → s.die.testLock = false → q.get 0 1 < 64 → 1 ≤ q.get 4 2 → q.get 4 2 ≤ 60 → q.get 2 2 < 32768 →
    Completes (.sensorOverride q) s (fun t => t.answered q.fn kOk ∧ (t.sensor (q.get 0 1)).override = some ((q.get 2 2 : Int), s.die.now + q.get 4 2 * 1000000))) ∧
  (s.die.awake = true → a.stepAt + 100000 ≤ s.die.now → Completes .throttleStepTimer s (fun t => t.aon.stepAt = s.die.now ∧ t.aon.step = if a.th = .throttle then min 4 (a.step + 1) else a.step - 1)) ∧
  (∀ mV, s.die.awake = true → a.verdict = .healthy → a.bwTest = false →
    let c := if a.cap = 0 then a.cRated / 2 else a.cap
    4 ≤ limitUnits c mV a.vMin a.eta → s.die.unsettled ≤ limitUnits c mV a.vMin a.eta * Config.limitUnit → Completes (.breakwaterSample mV) s (fun t =>
      t.aon.volt = mV % 65536 ∧ t.aon.limit = limitUnits c mV a.vMin a.eta ∧ t.aon.energy = a.energyAt mV % 2 ^ 32 ∧ t.aon.verdict = .healthy
        ∧ t.lb = s.die.lb ∧ t.qe = s.die.qe)) ∧
  (s.die.takes q opBreakwaterTest false 16 [(0, 7), (8, 8)] = true → a.bwTest = false → Completes (.breakwaterTest q) s (fun t =>
    t.stillRuns q.fn opBreakwaterTest ∧ t.aon.bwTest = true ∧ t.aon.chgEn = false ∧ t.aon.testFn = some q.fn)) ∧
  (s.die.life.phase = .ready → a.bwTest = false → a.pstate = 0 → a.testAt + 86400000000 ≤ s.die.now → Completes .breakwaterTestPeriodic s (fun t =>
    t.aon.bwTest = true ∧ t.aon.chgEn = false ∧ t.aon.v0 = a.volt ∧ t.aon.testFn = none)) ∧
  (∀ us v1 c, s.die.awake = true → a.bwTest = true → us ≤ 20000 → 100 * v1 ≤ 97 * a.v0 → a.cRated ≤ 5 * c → c < 2 ^ 24 → Completes (.breakwaterTestEnd us v1 c) s (fun t =>
    t.aon.bwTest = false ∧ t.aon.chgEn = true ∧ t.aon.cap = c ∧ t.aon.capAt = s.die.now))

/-- HANDSHAKE_STALL, CORE_WATCHDOG, REFCLK_LOSS, I3C_DYNAMIC_ADDRESS_ASSIGN, JTAG_INSTRUCTION. -/
def Obligations.StallsAndWatchdogs : Prop := ∀ (s : State) (dk : DockEnv) (n : Nat),
  (∀ sub, s.die.awake = true → 1 ≤ sub → sub ≤ 14 → n < 4096 → s.die.ladderStep 0 (stallInst sub n) false = 2 →
    Completes (.handshakeStall sub n true dk) s (fun t => (t.rung 0 (stallInst sub n)).step = 2 ∧ (t.rung 0 (stallInst sub n)).last = s.die.now
      ∧ t.units = s.die.units ∧ t.qe = s.die.qe ∧ t.life.phase = s.die.life.phase)) ∧
  (s.die.awake = true → n < 17 → s.die.unit 3 n = .inService → s.die.fw.live = false → s.die.ladderStep 5 n false = 2 →
    Completes (.coreWatchdog n dk) s (fun t => t.handler n = none
      ∧ ∀ h ∈ Tbl.get [] s.die.mc.run n, (t.src h.1).st = .pending ∧ (t.src h.1).redeliver = true ∧ 1 ≤ (t.src h.1).count)) ∧
  (∀ u, s.die.awake = true → n < 4 → s.die.life.refclkLost.contains n = false → Completes (.refclkLoss n u) s (fun t => t.life.refclkLost.contains n = true)) ∧
  Completes (.i3cDynamicAddressAssign n) s (fun t => t = { s.die with life := { s.die.life with i3cAddr := some (n % 128) } }) ∧
  Completes (.jtagInstruction true n) s (fun t => t = { s.die with life := { s.die.life with jtagScan := true } }) ∧
  (s.die.jtagLock = true → Completes (.jtagInstruction false n) s (fun t => t = { s.die with life := { s.die.life with jtagScan := false } }))

/-- KANEX_TIMEOUT, KANEX_STOP_TIMEOUT, ABANDON, UNKNOWN_COMMAND, EVENT_INJECT. -/
def Obligations.MailboxesTimeOut : Prop := ∀ (s : State) (n : Nat),
  let m := (s.die.fn n).mbx
  (s.die.awake = true → m.st = .running → s.die.qe.hold = false → m.classFrom + classLimit (kClass m.opcode) ≤ s.die.now →
    Completes (.kanexTimeout n) s (fun t => (t.fn n).mbx.st = .done ∧ (t.fn n).mbx.stopping = true
      ∧ ∃ r, (t.fn n).mbx.resp = some r ∧ r.status = kTimeout ∧ r.synth = true ∧ r.opcode = m.opcode ∧ r.seq = m.seq)) ∧
  (s.die.awake = true → m.stopping = true → m.classFrom + 1000000 ≤ s.die.now → Completes (.kanexStopTimeout n) s (fun t =>
    (t.fn n).mbx.stopping = false ∧ (t.fn n).mbx.resp = m.resp)) ∧
  (∀ q, s.die.awake = true → s.die.mbxPresent n = true → s.die.mbxUnavailable n = false → m.st = .running → m.seq = q % 65536 → kClass m.opcode = 2 →
    m.answers = [] → (s.die.fw.live = false ∨ m.opcode ≠ 0x0904) → Completes (.abandon n q) s (fun t => t.answered n kAbandoned)) ∧
  (∀ q, s.die.awake = true → s.die.mbxPresent n = true → s.die.mbxUnavailable n = false → m.st = .running → m.seq ≠ q % 65536 →
    Completes (.abandon n q) s (fun t => t = s.die.mbxEvent n 2 false ∧ (t.fn n).mbx = { m with event := m.event ||| 4#3 })) ∧
  (∀ q op, catRow op = none → s.die.takesFrame q op true = true → Completes (.unknownCommand q op) s (fun t => t.answered q.fn kUnknown ∧ t.sameButAnswer s.die)) ∧
  (∀ q, s.die.takes q 0x0D02 false 16 [(0, 7), (8, 8)] = true → s.die.testLock = false → eventInjectBad q = none → (injectCfg q).getLsbD 2 = false →
    (s.die.src (q.get 0 2)).st = .idle → Completes (.eventInject q) s (fun t => t.answered q.fn kOk ∧ (t.src (q.get 0 2)).st = .pending
      ∧ (t.src (q.get 0 2)).count = q.get 2 1 ∧ (t.src (q.get 0 2)).payload = BitVec.ofNat 64 (q.get 8 8) ∧ t.aon = s.die.aon))

/-- UPD_BEGIN, UPD_BLOCK, UPD_VERIFY, UPD_ACTIVATE, ACTIVATION_HOLD_EXPIRY, UPD_CONFIRM, CONFIRMATION_WINDOW_END, UPD_DISCARD. -/
def Obligations.FirmwareIsUpdated : Prop := ∀ (s : State) (q : KReq),
  let f := s.die.fw
  let free := s.die.updateLock = false ∧ s.die.lowEnergy = false
  let k := q.get 0 1 - 1
  (∀ hdr, let p := q.withHeader hdr; let g := f.target (p.get 0 1);
    s.die.takes p 0x0901 false 264 [(0, 1), (2, 4), (8, 256)] = true → updBeginBad p = none → free → (match f.session with | some x => x.2 | none => false) = false →
    (f.slot g).inUse = false → Completes (.updBegin q hdr) s (fun t => t.appliedWith s.die q.fn (le 4 (t.fw.slot g).nextBlock)
      ∧ t.fw.session = some (g, false) ∧ (t.fw.slot g).st = .incomplete ∧ (t.fw.slot g).image = ImgHeader.ofBytes ((p.payload.drop 8).take 256)
      ∧ t.fw.window = if p.get 2 4 = 0xFFFFFFFF then 600 else p.get 2 4)) ∧
  (∀ i ok, s.die.takes q 0x0902 false 5 [(0, 5)] = true → s.die.updBlockBad q = none → free → f.session = some (i, false) → i < 2 → q.dlen = 65536 * q.get 4 1 →
    (∀ j, j < q.get 4 1 → ok[j]? = some true) → Completes (.updBlock q (some ok)) s (fun t => t.applied s.die q.fn
      ∧ ∀ j, j < q.get 4 1 → (t.fw.slot i).blocks.contains (q.get 0 4 + j) = true)) ∧
  (∀ i, s.die.takes q 0x0902 false 5 [(0, 5)] = true → s.die.updBlockBad q = none → free → f.session = some (i, false) → q.dlen = 65536 * q.get 4 1 →
    Completes (.updBlock q none) s (fun t => t.answered q.fn kBadParameter ∧ (t.fn q.fn).mbx.resp.map (·.detail) = some 24 ∧ (t.fn q.fn).ferr.getLsbD 1 = true ∧ t.fw = s.die.fw)) ∧
  (∀ v, s.die.takes q 0x0903 false 1 [(0, 1)] = true → 1 ≤ q.get 0 1 → q.get 0 1 ≤ 2 →
    ((f.slot k).st = .complete ∨ (f.slot k).st = .verified ∨ (f.slot k).st = .failed) → v.badBlocks.all (fun b => decide ((f.slot k).image.nblocks ≤ b)) = true →
    f.imageGood (f.slot k).image v = true → f.act.svnFloor ≤ (f.slot k).image.svn → Completes (.updVerify q v) s (fun t => t.applied s.die q.fn
      ∧ (t.fw.slot k).st = .verified ∧ (t.fw.slot k).parts = manifestOf v.manifest (f.slot k).image.nparts)) ∧
  (∀ i x e, s.die.takes q 0x0904 false 2 [(0, 2)] = true → q.get 0 1 = 1 → q.get 1 1 ≤ 2 → free → s.die.activationMoving = false → f.onTrial = false →
    f.chosen (q.get 1 1) = some i → Completes (.updActivate q x e) s (fun t => t.applied s.die q.fn ∧ t.fw.act.st = 1 ∧ t.fw.act.new = some i
      ∧ t.fw.act.run = f.act.run ∧ t.fw.session = none)) ∧
  (∀ i e, s.die.takes q 0x0904 false 2 [(0, 2)] = true → q.get 0 1 = 0 → q.get 1 1 ≤ 2 → free → s.die.activationMoving = false → f.onTrial = false →
    f.chosen (q.get 1 1) = some i → s.die.liveAllowed i = true → Completes (.updActivate q false e) s (fun t => t.applied s.die q.fn ∧ t.fw.act.st = 2
      ∧ (t.fw.slot i).st = .trial ∧ t.qe.hold = false ∧ t.fw.live = false)) ∧
  (∀ i x e, s.die.takes q 0x0904 false 2 [(0, 2)] = true → q.get 0 1 = 2 → q.get 1 1 ≤ 2 → free → s.die.activationMoving = false → f.onTrial = false →
    f.chosen (q.get 1 1) = some i → s.die.aon.pfN = false → Completes (.updActivate q x e) s (fun t => t.life.phase = .waitPf
      ∧ t.fw.act.st = 1 ∧ t.fw.act.new = some i)) ∧
  (s.die.awake = true → f.live = true → f.holdAt + 100000 ≤ s.die.now → Completes .activationHoldExpiry s (fun t => t.fw.live = false ∧ t.qe.hold = false
    ∧ t.fw.act.st = 0 ∧ t.fw.act.new = none)) ∧
  (s.die.takes q 0x0905 false 0 [] = true → s.die.updateLock = false → f.act.st = 2 → Completes (.updConfirm q) s (fun t => t.applied s.die q.fn ∧ t.fw = f.confirm)) ∧
  (s.die.awake = true → f.act.st = 2 → f.window ≠ 0 → f.discarded = false → f.windowErr = false → s.die.aon.pstate = 0 →
    f.windowFrom + f.window * 1000000 ≤ s.die.now → Completes .confirmationWindowEnd s (fun t => t.fw = f.confirm ∧ t.fw.act.st = 0
      ∧ t.fw.act.run = f.act.new.getD (1 - f.act.run))) ∧
  (s.die.takes q 0x0907 false 1 [(0, 1)] = true → s.die.updateLock = false → 1 ≤ q.get 0 1 → q.get 0 1 ≤ 2 → (f.slot k).st ≠ .running →
    Completes (.updDiscard q) s (fun t => t.applied s.die q.fn ∧ ((f.slot k).st ≠ .trial → t.fw.slot k = {})
      ∧ ((f.slot k).st = .trial → t.fw.discarded = true ∧ t.fw.act.trials = 0)))

/-- FIRMWARE_IMAGE_DOWNLOAD, FIRMWARE_COMMIT_VERIFY, FIRMWARE_COMMIT_NEXT_START, FIRMWARE_COMMIT_SLOT, FIRMWARE_COMMIT_LIVE. -/
def Obligations.FirmwareCommandsComplete : Prop := ∀ (s : State) (t i : Nat) (e : SqEntry) (v : VerifyFacts),
  let f := s.die.fw
  let ready := s.die.adminTag t 0x10 e ∧ s.die.updateLock = false ∧ s.die.commitSlot e = .ok i ∧ i < 2 ∧ (f.slot i).inUse = false ∧ (f.verify i v).2 = kOk
  let calm := s.die.lowEnergy = false ∧ s.die.activationMoving = false ∧ f.onTrial = false
  let may := ({ s.die with fw := (f.verify i v).1 } : Die).liveAllowed i
  (∀ last h, s.die.adminTag t 0x11 e → s.die.downloadRefused (4 * e.cdw11.toNat) (4 * (e.cdw10.toNat + 1)) last = none →
    Completes (.firmwareImageDownload t last h []) s (fun d => d.ends t stOk ∧ ∃ k, d.fw.session = some (k, true))) ∧
  (ready → bitsOf e.cdw10 3 3 = 0 → Completes (.firmwareCommitVerify t v) s (fun d => d.ends t stOk ∧ (d.fw.slot i).st = .complete ∧ d.fw.session = none)) ∧
  (ready → calm → bitsOf e.cdw10 3 3 = 1 → Completes (.firmwareCommitNextStart t v) s (fun d => d.ends t stOk ∧ d.fw.act.st = 1 ∧ d.fw.act.new = some i)) ∧
  (ready → calm → bitsOf e.cdw10 3 3 = 2 → Completes (.firmwareCommitSlot t v) s (fun d => d.ends t stOk ∧ d.fw.act.st = 1 ∧ d.fw.act.new = some i)) ∧
  (ready → calm → bitsOf e.cdw10 3 3 = 3 → may = true → Completes (.firmwareCommitLive t v false) s (fun d =>
    d.ends t stOk ∧ d.fw.act.st = 2 ∧ (d.fw.slot i).st = .trial ∧ d.qe.hold = false)) ∧
  (∀ x, ready → calm → bitsOf e.cdw10 3 3 = 3 → may = false → Completes (.firmwareCommitLive t v x) s (fun d =>
    d.ends t stFwConvReset ∧ d.fw.act.st = 1 ∧ d.fw.act.new = some i))

/-- TRAINING_ATTEMPT, TS1_RECEIVED, TS2_RECEIVED, CREDIT_INIT, TRAINING_STEP_TIMEOUT, RETRAIN_TIMEOUT, RETRAIN_REQ, SKP_RECEIVED,
EIOS_RECEIVED, WAKE_ORDERED_SET_RECEIVED. -/
def Obligations.BerthLinksTrain : Prop := ∀ (s : State) (p : Nat), s.die.awake = true →
  let x := s.die.port p
  (x.st = .training → x.step = 0 → Completes (.trainingAttempt p false true) s (fun t => (t.port p).st = .training ∧ (t.port p).step = 5
    ∧ (t.port p).attempts = satInc 255 x.attempts ∧ (t.port p).nonce = s.die.freeVal % 2 ^ 32 ∧ t.out = .lane p [blockBits false ((t.port p).setBytes p .ts1)] :: s.die.out)) ∧
  (∀ ts : Ts, p < Config.ports → (readTs ts).ok = true → x.inTraining = true → x.step ≤ 6 → (readTs ts).src = true → (readTs ts).portId = p → (readTs ts).nonce = x.nonce →
    (readTs ts).inverted = false → (readTs ts).rxinv = false → x.okTs1 = 15 → Completes (.ts1Received p ts) s (fun t => (t.port p).step = 7
      ∧ t.out = .lane p [blockBits false ((t.port p).setBytes p .ts2)] :: s.die.out)) ∧
  (∀ ts : Ts, (readTs ts).ok = true → x.inTraining = true → x.waking = false → x.step = 7 → x.ts2 = 15 → Completes (.ts2Received p ts) s (fun t =>
    (t.port p).step = (if (readTs ts).rate32 && !(x.retrain && !x.rate32) then 8 else 9) ∧ (t.port p).st = x.st)) ∧
  (∀ ts : Ts, (readTs ts).ok = true → x.inTraining = true → x.waking = false → x.step = 9 → x.ts2 = 15 → Completes (.ts2Received p ts) s (fun t =>
    (t.port p).step = 10 ∧ (t.port p).asked lmgtCredit = true ∧ t.out = .lane p (flitBlocks lfsrSeed (x.lmgtFlit lmgtCredit 0)) :: s.die.out)) ∧
  (∀ a b, a ≠ 0 → b ≠ 0 → x.asked lmgtCredit = true → x.step = 10 → x.st = .training → Completes (.creditInit p a b) s (fun t => (t.port p).st = .identifying
    ∧ (t.port p).lpwr = .l0 ∧ (t.port p).step = 0)) ∧
  (∀ a b, a ≠ 0 → b ≠ 0 → x.asked lmgtCredit = true → x.step = 10 → x.st ≠ .training → x.retrain = true → Completes (.creditInit p a b) s (fun t => (t.port p).st = x.st
    ∧ (t.port p).lpwr = .l0 ∧ (t.port p).retrain = false)) ∧
  (x.st = .training → x.step = 7 → x.stepAt + 50 ≤ s.die.now → x.failed < 2 → Completes (.trainingStepTimeout p 7) s (fun t =>
    (t.port p).failed = x.failed + 1 ∧ (t.port p).step = 0 ∧ (t.port p).st = .training)) ∧
  (x.st = .training → x.step = 5 → x.boundFrom + 100000 ≤ s.die.now → Completes (.trainingStepTimeout p 5) s (fun t =>
    (t.port p).st = .fault ∧ (t.port p).cause = causeOpenRx)) ∧
  (x.inTraining = true → x.step = 8 → 1 ≤ x.eqFails → Completes (.trainingStepTimeout p 8) s (fun t =>
    (t.port p).step = 9 ∧ (t.port p).rate32 = false ∧ (t.port p).st = x.st ∧ t.out = .lane p [blockBits false ((t.port p).setBytes p .ts2)] :: s.die.out)) ∧
  (x.linked = true → x.retrain = true → x.retrainAt + 2000 ≤ s.die.now → x.losses.length < 3 → Completes (.retrainTimeout p) s (fun t =>
    (t.port p).retrain = true ∧ (t.port p).retrainAt = s.die.now ∧ (t.port p).step = 5)) ∧
  (x.linked = true → (x.retrains = 0 ∨ x.retrainAt + 10000 ≤ s.die.now) → Completes (.retrainReq p) s (fun t =>
    (t.port p).retrain = true ∧ (t.port p).retrains = (x.retrains + 1) % 2 ^ 32 ∧ (t.port p).st = x.st)) ∧
  Completes (.skpReceived p) s (fun t => t = s.die) ∧ Completes (.eiosReceived p) s (fun t => t = s.die) ∧
  ((x.lpwr = .ls ∨ x.lpwr = .ld) → Completes (.wakeOrderedSetReceived p) s (fun t =>
    (t.port p).offLane = ({ x with lpwr := .l0, waking := x.lpwr == .ld } : Port).offLane ∧ (t.port p).txLfsr = lfsrSeed ∧ (t.port p).rxLfsr = lfsrSeed
      ∧ (t.port p).txIdle = false ∧ (x.lpwr = .ls → t.out = .lane p [blockBits false (x.setBytes p .wake)] :: s.die.out)))

/-- FLIT_CRC_DISCARD, NOP_RECEIVED, NAK_REPEAT, BERTH_LINK_SILENCE, BERTH_ERROR_RATE, PWR_ACK, PWR_NAK, DOCK_ECHO, RELEASE_DONE, LINK_IDLE_LS, LINK_IDLE_LD, LMGT_REPEAT. -/
def Obligations.BerthLinksCarryFlits : Prop := ∀ (s : State) (p : Nat), s.die.awake = true →
  let x := s.die.port p
  (∀ h, x.linked = true → x.lpwr = .l0 → x.retrain = false → x.nak = false → Completes (.flitCrcDiscard p h) s (fun t => (t.port p).offLane = ({ x with
    crcerr := (x.crcerr + 1) % 2 ^ 32, nak := true, nakAt := s.die.now, replays := (x.replays + 1) % 2 ^ 32 } : Port).offLane ∧ t.lastSent p x.txLfsr (x.nopFlit true))) ∧
  (∀ h : FlitHdr, x.linked = true → x.lpwr = .l0 → x.retrain = false → hdrBad h = false → h.nak = false → x.unacked = [] → x.wdata = [] → x.cmds = [] →
    Completes (.nopReceived p h) s (fun t => (t.port p).offLane = ({ x.credited h.crs h.crl with waking := false } : Port).offLane ∧ t.out = s.die.out)) ∧
  (x.nak = true → x.flowing = true → x.nakAt + 4 ≤ s.die.now → Completes (.nakRepeat p) s (fun t =>
    (t.port p).offLane = ({ x with nakAt := s.die.now } : Port).offLane ∧ t.lastSent p x.txLfsr (x.nopFlit true))) ∧
  (x.linked = true → x.lpwr = .l0 → x.retrain = false → x.heardAt + 200 ≤ s.die.now → x.losses = [] → Completes (.berthLinkSilence p) s (fun t =>
    (t.port p).retrain = true ∧ (t.port p).losses = [s.die.now] ∧ (t.port p).st = x.st)) ∧
  (x.linked = true → x.rateRetrain = false → Completes (.berthErrorRate p) s (fun t => (t.port p).rateRetrain = true ∧ (t.port p).retrain = true
    ∧ (t.port p).rate32 = x.rate32 ∧ (t.port p).st = x.st)) ∧
  (x.linked = true → x.rateRetrain = true → s.die.now < x.rateAt + 20000000 → Completes (.berthErrorRate p) s (fun t => (t.port p).rate32 = false
    ∧ (t.port p).retrain = true ∧ (t.port p).st = x.st)) ∧
  (∀ τ, x.lmgt = [(lmgtPwrReq + 256, τ)] → x.unacked = [] → x.wdata = [] → x.cmds = [] → Completes (.pwrAck p) s (fun t => (t.port p).lpwr = .ls ∧ (t.port p).lmgt = []
    ∧ (t.port p).txIdle = true ∧ t.out = .lane p [blockBits false (x.setBytes p .eios)] :: s.die.out)) ∧
  (∀ τ, x.lmgt = [(lmgtPwrReq + 512, τ)] → x.unacked = [] → x.wdata = [] → x.cmds = [] → Completes (.pwrAck p) s (fun t => (t.port p).lpwr = .ld ∧ (t.port p).lmgt = [])) ∧
  (x.asked lmgtPwrReq = true → Completes (.pwrNak p) s (fun t => (t.port p).offLane = (x.answered lmgtPwrReq).offLane ∧ t.out = s.die.out)) ∧
  (x.asked lmgtDock = true → Completes (.dockEcho p) s (fun t => (t.port p).offLane = (x.answered lmgtDock).offLane ∧ t.out = s.die.out)) ∧
  (x.asked lmgtRelease = true → x.st = .quarantine → Completes (.releaseDone p) s (fun t => (t.port p).offLane = ({ x.answered lmgtRelease with pwrEn := false, rxOpen := true } : Port).offLane
    ∧ (t.port p).txIdle = true)) ∧
  (x.flowing = true → x.quiet = true → x.busyAt + 2 ≤ s.die.now → Completes (.linkIdleLs p) s (fun t =>
    (t.port p).lmgt = [(lmgtPwrReq + 256, s.die.now)] ∧ t.lastSent p x.txLfsr (x.lmgtFlit lmgtPwrReq 1))) ∧
  (x.linked = true → x.lpwr = .ls → x.outst = [] → x.quiet = true → x.lsAt + 1000 ≤ s.die.now → Completes (.linkIdleLd p) s (fun t =>
    (t.port p).lmgt = [(lmgtPwrReq + 512, s.die.now)] ∧ (t.port p).lpwr = .l0)) ∧
  (∀ c τ, x.lmgt = [(c, τ)] → x.flowing = true → τ + 10 ≤ s.die.now → Completes (.lmgtRepeat p) s (fun t => t.lastSent p x.txLfsr (x.lmgtFlit (c % 256) (c / 256))
    ∧ (t.port p).offLane = ({ x with lmgt := [(c, s.die.now)] } : Port).offLane))

/-- SLOT_IBI, SLOT_POLL, PRESENCE_STABLE, POWER_GOOD, POWER_GOOD_TIMEOUT, OVERCURRENT, SHORT_DETECTED, SLOT_CONTROLLER_SILENT, REJOIN_WINDOW_END, DRAIN_COMPLETE. -/
def Obligations.SlotsArePowered : Prop := ∀ (s : State) (p c : Nat), s.die.awake = true →
  let x := s.die.port p
  (∀ a b : Byte, c < 128 → Completes (.slotIbi c a b 0) s (fun t => ∀ i, i < 8 → (t.port (8 * c + i)).slotPresent = a.getLsbD i
    ∧ (t.port (8 * c + i)).slotGood = b.getLsbD i ∧ (t.port (8 * c + i)).slotOc = false ∧ (t.port (8 * c + i)).st = (s.die.port (8 * c + i)).st)) ∧
  (∀ a b : Byte, c < 128 → Completes (.slotPoll c a b 0) s (fun t => ∀ i, i < 8 → (t.port (8 * c + i)).slotPresent = a.getLsbD i
    ∧ (t.port (8 * c + i)).slotGood = b.getLsbD i ∧ (t.port (8 * c + i)).slotOc = false ∧ (t.port (8 * c + i)).st = (s.die.port (8 * c + i)).st)) ∧
  (p < Config.ports → x.slotPresent = true → x.presAt + 50000 ≤ s.die.now → x.st = .absent → x.enabled = true → Completes (.presenceStable p true) s (fun t =>
    (t.port p).st = .powering ∧ (t.port p).pwrEn = true ∧ (t.port p).attempts = 0)) ∧
  (p < Config.ports → x.slotPresent = false → x.presAt + 50000 ≤ s.die.now → x.st ≠ .absent → Completes (.presenceStable p false) s (fun t =>
    (t.port p).st = .absent ∧ (t.port p).pwrEn = false)) ∧
  (x.st = .powering → Completes (.powerGood p) s (fun t => (t.port p).st = .training ∧ (t.port p).step = 0 ∧ (t.port p).failed = 0)) ∧
  (x.st = .powering → Completes (.powerGoodTimeout p) s (fun t => (t.port p).st = .fault ∧ (t.port p).cause = causePowerGood ∧ (t.port p).pwrEn = false)) ∧
  (x.st ≠ .absent → Completes (.overcurrent p) s (fun t => (t.port p).st = .fault ∧ (t.port p).cause = causeOvercurrent ∧ (t.port p).slotOc = true)) ∧
  (∀ tx, (x.st = .powering ∨ x.st = .training ∨ x.linked = true) → Completes (.shortDetected p tx) s (fun t => (t.port p).st = .fault ∧ (t.port p).cause = if tx then causeShortTx else causeShortRx)) ∧
  (c < 128 → s.die.bp.silent.contains c = false → Completes (.slotControllerSilent c) s (fun t =>
    t.bp.silent.contains c = true ∧ ∀ i, i < 8 → (t.port (8 * c + i)).st = .fault ∧
      ((s.die.port (8 * c + i)).st ≠ .fault → (t.port (8 * c + i)).cause = causeSideband))) ∧
  (∀ m, Tbl.get none s.die.se.missing p = some m → m.windowEnd ≤ s.die.now → Completes (.rejoinWindowEnd p) s (fun t =>
    Tbl.get none t.se.missing p = none ∧ t.bp = s.die.bp)) ∧
  (x.st = .draining → s.die.rusHeld p = [] → Completes (.drainComplete p) s (fun t =>
    (t.port p).st = .released ∧ (t.port p).member = false ∧ (t.port p).attn = true ∧ Tbl.get 0 t.se.mgen p = Tbl.get 0 s.die.se.mgen p + 1))

/-- EVT_TEMP_WARN, EVT_TEMP_CRIT, EVT_TEMP_OK, EVT_POWER_WARN, EVT_BRIDGE_ERROR, BRIDGE_RESET_DONE, NAND_OP_TIMEOUT, RSP_RECEIVED, RDATA_RECEIVED, DIE_DISPATCH. -/
def Obligations.BerthsReport : Prop := ∀ (s : State) (p i : Nat), s.die.awake = true →
  let x := s.die.port p
  (∀ v : Evt, x.takesNext v.hdr → x.nothingToSend → Completes (.evtTempWarn p i v) s (fun t => (t.port p).offLane = ({ x.accepted v.hdr with tempWarn := true } : Port).offLane)) ∧
  (∀ v : Evt, x.takesNext v.hdr → x.nothingToSend → Completes (.evtTempCrit p i v) s (fun t => (t.port p).offLane = ({ x.accepted v.hdr with tempCrit := true } : Port).offLane)) ∧
  (∀ v : Evt, x.takesNext v.hdr → x.nothingToSend → Completes (.evtTempOk p i v) s (fun t => (t.port p).offLane = ({ x.accepted v.hdr with tempWarn := false, tempCrit := false } : Port).offLane)) ∧
  (∀ v : Evt, x.takesNext v.hdr → x.nothingToSend → Completes (.evtPowerWarn p i v) s (fun t => (t.port p).offLane = (x.accepted v.hdr).offLane)) ∧
  (∀ v : Evt, x.takesNext v.hdr → x.nothingToSend → Completes (.evtBridgeError p i v) s (fun t => (t.port p).offLane = ({ x.accepted v.hdr with
    lmgt := (x.answered lmgtBridge).lmgt ++ [(lmgtBridge, s.die.now)] } : Port).offLane
    ∧ t.lastSent p (lfsrAfter x.txLfsr 256) ((x.accepted v.hdr).lmgtFlit lmgtBridge 0))) ∧
  (x.asked lmgtBridge = true → x.lpwr = .l0 → Completes (.bridgeResetDone p) s (fun t => (t.port p).outst = [] ∧ (t.port p).crShort = 0 ∧ (t.port p).crLong = 0
    ∧ (t.port p).asked lmgtBridge = false ∧ (t.port p).asked lmgtCredit = true ∧ (t.port p).st = x.st ∧ (t.port p).lpwr = .l0)) ∧
  (∀ o b, x.outst.find? (fun y => y.otag == i) = some o → o.port = p → o.op = opRead → o.issued + 2000 ≤ s.die.now →
    (s.die.dsch (dieKey p o.die)).resetAt = 0 → (s.die.dsch (dieKey p o.die)).ladder = 0 → Completes (.nandOpTimeout p i b) s (fun t =>
      (t.dsch (dieKey p o.die)).ladder = 1 ∧ (t.dsch (dieKey p o.die)).polled = some i)) ∧
  (∀ o r un, x.takesNext r.hdr → x.cmds = [] → r.status = 0 →
    x.outst.find? (fun y => y.otag == r.otag) = some o → o.what = .control → o.op = opSuspend → (s.die.dsch (dieKey o.port o.die)).running.isSome = true →
    (s.die.port o.port).passport.isSome = true →
    Completes (.rspReceived p ⟨r, un⟩) s (fun t => (t.dsch (dieKey o.port o.die)).suspended = true ∧ (t.port p).rxSeq = (x.rxSeq + 1) % 256
      ∧ (t.port p).outst = x.outst.filter (fun y => y.otag != r.otag))) ∧
  (∀ h c o n q j, x.takesNext h → c.offset = 8 → x.rdata = some (c.otag, c.plane, c.cw, 8) →
    x.outst.find? (fun y => y.otag == c.otag) = some o → o.dataFits c = true → o.what = .recon n q → s.die.job n = some j → j.stage = .recon →
    Completes (.rdataReceived p h c) s (fun t =>
      t.job n = some { j with srcs := j.srcs.map (fun u => if u.pos == q then { u with left := u.left - 1 } else u) } ∧ (t.port p).rdata = none)) ∧
  (∀ h c o js k n j, x.takesNext h → c.offset = 8 → x.rdata = some (c.otag, c.plane, c.cw, 8) →
    x.outst.find? (fun y => y.otag == c.otag) = some o → o.dataFits c = true → o.what = .readSec js → js.filter (fun y => y.1 == c.plane * 4 + c.cw) = [(k, n)] →
    s.die.job n = some j → j.stage = .wait → Completes (.rdataReceived p h c) s (fun t =>
      t.job n = some { j with left := j.left - 1, stage := if j.left ≤ 1 then .arrived else .wait } ∧ (t.port p).rdata = none)) ∧
  (∀ o pass, let d := s.die.reconNext.eraseSlices (dieKey p i) false; let fs := (d.featuresFor o).length;
    s.die.life.gated.contains (p / 32) = false → s.die.portServes p = true → x.canSend = true → x.passport = some pass → x.dfence.getLsbD i = false →
    (s.die.dsch (dieKey p i)).tunnel = false → s.die.missesBehind pass p i = none → (d.dsch (dieKey p i)).running = none → d.outstAt p i = [] →
    (d.dsch (dieKey p i)).choose (d.waitingAt p i) = some o → Completes (.dieDispatch p i) s (fun t => t = d.dispatchOp o ∧
      (fs < (d.port o.port).crShort → (d.port o.port).unacked.length + fs < 64 → d.depthFor o.port o.die (fs + 1) = true → (d.reserveFor o).isSome = true →
        t.sch.queued = d.sch.queued.erase o))) ∧
  (s.die.life.gated.contains (p / 32) = true → s.die.life.fencedIslands.contains (p / 32) = false → Completes (.dieDispatch p i) s (fun t =>
    t.life.gated.contains (p / 32) = false ∧ t.sch = s.die.sch))

/-- SQ_ENTRY_FETCH, COMMAND_ADMIT, ZONE_GATE_OPEN, COMPLETION_POST, INTERNAL_TIMEOUT, FAIL_FAST_DEADLINE. -/
def Obligations.CommandsLiveUnderTags : Prop := ∀ (s : State) (t n q : Nat) (e : SqEntry), s.die.awake = true →
  let x := s.die.tag t
  let c := (s.die.fn x.fn).cq ((s.die.fn x.fn).sq x.sq).cq
  (s.die.qe.hold = false → s.die.qe.stopped = false → t < Config.tags → x.st = .free → s.die.fetchDue n q = true → Completes (.sqEntryFetch n q t e) s (fun d =>
    (d.tag t).entry = some e ∧ (d.tag t).fn = n ∧ (d.tag t).sq = q ∧ (d.tag t).gen = x.gen ∧ ((d.tag t).st = .bound ∨ (d.tag t).st = .posting)
      ∧ ((d.fn n).sq q).head = (((s.die.fn n).sq q).head + 1) % ((s.die.fn n).sq q).size)) ∧
  (x.entry = some e → x.st = .bound → s.die.qe.hold = false → s.die.qe.stopped = false → s.die.admitHeld x e = false → Completes (.commandAdmit t) s (fun d =>
    d.tag t = { x with st := .admitted, ranges := if x.ioOpc = 0x08 then [(e.slba, e.nlb)] else x.ranges } ∧ d.sch.admitted = s.die.sch.admitted + 1
      ∧ d.tenants = if x.sq = 0 then s.die.tenants else (s.die.updTenant x.fn (fun y => y.charge (s.die.chargeOf e))).tenants)) ∧
  (x.entry = some e → x.live = true → x.sq ≠ 0 → x.forwarded = false → x.gated = false → e.opc = 0x79 → s.die.gateShut e x.order = false →
    s.die.earlierDone e false x.order = true → Completes (.zoneGateOpen t) s (fun d => d.tag t = { x with gateOpen := true })) ∧
  (x.entry = some e → x.st = .posting → s.die.life.manager = true → c.size ≠ 0 → (c.tail + 1) % c.size ≠ c.head → s.die.abortWaits x e = false →
    Completes (.completionPost t) s (fun d => (d.tag t).st = .free ∧ (d.tag t).gen = x.gen + 1 ∧ (d.tag t).entry = none
      ∧ ((d.fn x.fn).cq ((s.die.fn x.fn).sq x.sq).cq).tail = (c.tail + 1) % c.size
      ∧ .cqe x.fn ((s.die.fn x.fn).sq x.sq).cq x.sq e.cid c.tail x.dw0 (s.die.reportOf x e) ((s.die.fn x.fn).sq x.sq).head c.phase x.sct x.sc
          (entersErrorLog (x.sct, x.sc)) (dnr (x.sq == 0) (x.sct, x.sc)) ∈ d.out)) ∧
  (x.entry = some e → x.live = true → x.fetched + Config.ceilingUs ≤ s.die.now → x.adminOpc ≠ 0x0C → Completes (.internalTimeout t) s (fun d => d.ends t stInternalTimeout)) ∧
  (∀ dl, x.entry = some e → ffDeadline x e = some dl → dl < s.die.now → x.st = .bound → s.die.qe.hold = false → Completes (.failFastDeadline t) s (fun d => d.ends t stDeadline))

/-- READ, VERIFY, FLUSH, REPORT_ZONES, IO_MANAGEMENT_RECEIVE, IO_MANAGEMENT_SEND, SET_ZONE_DESCRIPTOR_EXTENSION. -/
def Obligations.ReadsComplete : Prop := ∀ (s : State) (t : Nat) (e : SqEntry),
  let x := s.die.tag t
  let n := s.die.ns e.ns
  let inTime := (match ffDeadline x e with | some dl => decide (s.die.now ≤ dl) | none => true) = true
  (s.die.ioTag t 0x02 e → s.die.se.jobs = [] → x.bad = [] → x.work = 0 → inTime → s.die.pointerBad x e (e.nlb * n.lbaBytes) = none → (∀ y ∈ n.sectorsOf e.slba e.nlb, n.locate y = .zeros) → Completes (.read t) s (fun d => d.ends t stOk
    ∧ (∀ l, e.slba ≤ l → l < e.slba + e.nlb → (if s.die.life.manager then .dataOut x.fn t l 0 (n.hostMeta e l 0) false (s.die.fn x.fn).relaxed
      else .wireData s.die.life.quayId t x.gen l 0 0 false) ∈ d.out) ∧ d.nss = s.die.nss ∧ d.se.jobs = [])) ∧
  (∀ st, s.die.ioTag t 0x02 e → s.die.se.jobs = [] → x.work = 0 → ffDeadline x e = none → s.die.pointerBad x e (e.nlb * n.lbaBytes) = some st →
    (∀ y ∈ n.sectorsOf e.slba e.nlb, n.locate y = .zeros) → Completes (.read t) s (fun d => d.ends t st ∧ d.nss = s.die.nss)) ∧
  (s.die.ioTag t 0x0C e → s.die.se.jobs = [] → x.bad = [] → x.work = 0 → inTime → (∀ y ∈ n.sectorsOf e.slba e.nlb, n.locate y = .zeros) → Completes (.verify t) s (fun d => d.ends t stOk
    ∧ d.out = s.die.out ∧ d.nss = s.die.nss)) ∧
  (s.die.ioTag t 0x00 e → (∀ u ∈ s.die.qe.tags, u.2.fn = x.fn → u.2.order < x.order → u.2.st = .free) → Completes (.flush t) s (fun d => d = s.die.finish t stOk)) ∧
  (s.die.ioTag t 0x7A e → s.die.pointerBad x e e.zoneBuf = none → Completes (.reportZones t) s (fun d => d.ends t stOk ∧ d.nss = s.die.nss ∧ ∃ l, d.out = .logPage x.fn t 0x7A l :: s.die.out)) ∧
  (s.die.ioTag t 0x12 e → s.die.pointerBad x e (4 * (e.cdw11.toNat + 1)) = none → Completes (.ioManagementReceive t) s (fun d => d.ends t stOk ∧ d.nss = s.die.nss ∧ ∃ l, d.out = .logPage x.fn t 0x12 l :: s.die.out)) ∧
  (∀ ps, s.die.ioTag t 0x1D e → s.die.pointerBad x e (2 * (bitsOf e.cdw10 16 16 + 1)) = none → (∀ p ∈ ps.take (bitsOf e.cdw10 16 16 + 1), p % 8192 < n.handles ∧ n.rgset.getLsbD (p / 8192) = true) →
    Completes (.ioManagementSend t ps) s (fun d => d.ends t stOk ∧ d.tenants = s.die.tenants)) ∧
  (s.die.ioTag t 0x79 e → e.zsa = 0x10 → Completes (.setZoneDescriptorExtension t) s (fun d => d.ends t stInvalidField ∧ d.nss = s.die.nss))

/-- WRITE, ZONE_APPEND, WRITE_DATA_PULLED, RANGE_LOCK_GRANT, WRITE_ZEROES, DATASET_MANAGEMENT, CONVENTIONAL_DRAIN, HEEL_SETTLE. -/
def Obligations.WritesTakeTheirSteps : Prop := ∀ (s : State) (t : Nat) (e : SqEntry),
  let x := s.die.tag t
  let n := s.die.ns e.ns
  let add := heelAdded n e (x.wlba % n.zoneLbas) (s.die.noCrumbs e.ns (n.sectorsOf e.slba e.nlb))
  let whole := ∀ c ∈ s.die.dc.chans, c.2.flips = []
  (∀ d1 ts, s.die.ioTag t 0x01 e → s.die.roNow e = none → s.die.rescueHolds add = false → s.die.pointerBad x e (e.nlb * n.lbaBytes) = none →
    s.die.takeTrays 1 x.fn 5 (some (t, x.gen)) (s.die.writeTrays x e) = some (d1, ts) →
    Completes (.write t) s (fun d => d = d1.hostWake.updTag t (fun y => { y with st := .pull, trays := ts }))) ∧
  (∀ d1 ts, s.die.ioTag t 0x7D e → s.die.roNow e = none → s.die.rescueHolds add = false → s.die.pointerBad x e (e.nlb * n.lbaBytes) = none →
    s.die.takeTrays 1 x.fn 5 (some (t, x.gen)) (s.die.writeTrays x e) = some (d1, ts) →
    Completes (.zoneAppend t) s (fun d => d = d1.hostWake.updTag t (fun y => { y with st := .pull, trays := ts }))) ∧
  (∀ k data hm un, s.die.awake = true → x.entry = some e → x.st = .pull → x.forwarded = false → s.die.qe.hold = false → n.isZoned = false → n.lbasPerSector = 1 →
    s.die.roNow e = none → s.die.writeSlot n.owner = some k → s.die.countersLeft k e.nlb = true → Completes (.writeDataPulled ⟨t, un⟩ data hm) s (fun d =>
      (d.tag t).st = .staged ∧ (d.tag t).ranges = [n.lockRange true e.slba e.nlb] ∧ (d.tag t).staged.length = e.nlb ∧ (d.tag t).trays = []
        ∧ (d.slot k).next = (s.die.slot k).next + e.nlb ∧ (d.ns e.ns).map = n.map)) ∧
  (∀ un, s.die.awake = true → x.entry = some e → x.st = .staged → x.ranges ≠ [] → s.die.lockRoom x.ranges = true → s.die.lockAhead e.ns x.order x.ranges = false →
    s.die.qe.hold = false → s.die.roNow e = none → whole →
    Completes (.rangeLockGrant ⟨t, un⟩) s (fun d => (d.tag t).ranges = [] ∧ (d.ends t stOk ∨ ((d.tag t).st = .committed
      ∧ ∀ r ∈ x.ranges, ({ tag := t, ns := e.ns, first := r.1, count := r.2 } : LockEntry) ∈ d.qe.locks)))) ∧
  (s.die.ioTag t 0x08 e → x.work = 0 → Completes (.writeZeroes t) s (fun d => d = s.die.updTag t (fun y => { y with ranges := [(e.slba, e.nlb)], work := 1 }))) ∧
  (∀ rs : List (Nat × Nat), let us := (rs.take (bitsOf e.cdw10 0 8 + 1)).filter (fun (r : Nat × Nat) => r.2 != 0);
    s.die.ioTag t 0x09 e → x.work = 0 → s.die.pointerBad x e (16 * (bitsOf e.cdw10 0 8 + 1)) = none → (∀ r ∈ us, r.1 + r.2 ≤ n.nsze) → s.die.checkAna n = none → Completes (.datasetManagement t rs) s (fun d =>
      d.nss = s.die.nss ∧ if us = [] then d.ends t stOk else (d.tag t).ranges = us ∧ (d.tag t).st = .admitted)) ∧
  (∀ m l dst g d1, s.die.awake = true → whole → ((s.die.ns m).entry l).typ = .staged → ((s.die.ns m).entry l).vmask ≠ 0 →
    dst = (s.die.ns m).drainDest l → s.die.rotate m dst = some (g, d1) → (d1.needRu g dst.1 .drain).isSome = true →
    Completes (.conventionalDrain m l) s (fun d => ((d.ns m).entry l).typ = .inflight ∧ ((d.ns m).entry l).vmask = ((s.die.ns m).entry l).vmask)) ∧
  (∀ m z, s.die.awake = true → whole → (s.die.zone m z).st = .zsc → (s.die.zone m z).closedAt + 1000000 ≤ s.die.now → (s.die.ns m).hasHeel z = true →
    (s.die.needRu ((s.die.zone m z).group.getD 0) (s.die.zone m z).heelRuh .heel).isSome = true → Completes (.heelSettle m z) s (fun d =>
      (d.zone m z).settled = true ∧ (d.zone m z).heelMask = 0 ∧ (d.zone m z).wp = (s.die.zone m z).wp
        ∧ ((d.ns m).entry ((s.die.ns m).wpLoaf z)).typ = .inflight
        ∧ ((d.ns m).entry ((s.die.ns m).wpLoaf z)).vmask = ((s.die.ns m).entry ((s.die.ns m).wpLoaf z)).vmask ||| (s.die.zone m z).heelMask))

/-- ZONE_OPEN, ZONE_CLOSE, ZONE_FINISH, ZONE_RESET, ZONE_OFFLINE. -/
def Obligations.ZoneActionsMoveZones : Prop := ∀ (s : State) (t : Nat) (e : SqEntry),
  let z := (s.die.ns e.ns).zoneOf e.slba
  let y := s.die.zone e.ns z
  let due := fun (a : Nat) => s.die.ioTag t 0x79 e ∧ e.zsa = a ∧ (s.die.tag t).gateOpen = true ∧ e.selectAll = false
  (∀ r, due 3 → y.st = .zsc → s.die.openCheck e.ns z false = .ok r → Completes (.zoneOpen t) s (fun d => d.ends t stOk ∧ (d.zone e.ns z).st = .zseo ∧ (d.zone e.ns z).wp = y.wp)) ∧
  (due 1 → (y.st = .zsio ∨ y.st = .zseo) → Completes (.zoneClose t) s (fun d => d.ends t stOk ∧ (d.zone e.ns z).st = (if y.wp = 0 then .zse else .zsc)
    ∧ (s.die.writeThrough = false → (d.zone e.ns z).heelMask = y.heelMask))) ∧
  (due 2 → (y.st = .zse ∨ y.st = .zsio ∨ y.st = .zseo ∨ y.st = .zsc) → Completes (.zoneFinish t) s (fun d => d.ends t stOk ∧ (d.zone e.ns z).st = .zsf
    ∧ (d.zone e.ns z).wp = (s.die.ns e.ns).zoneLbas)) ∧
  (due 4 → (y.st = .zsio ∨ y.st = .zseo ∨ y.st = .zsc ∨ y.st = .zsf) → Completes (.zoneReset t) s (fun d => d.ends t stOk ∧ (d.zone e.ns z).st = .zse
    ∧ (d.zone e.ns z).wp = 0 ∧ (d.zone e.ns z).heelMask = 0 ∧ ∀ l, z * (s.die.ns e.ns).zoneLbas / 16 ≤ l → l < (z + 1) * (s.die.ns e.ns).zoneLbas / 16 →
      ((d.ns e.ns).entry l).typ = .unmapped)) ∧
  (due 5 → y.st = .zsro → Completes (.zoneOffline t) s (fun d => d.ends t stOk ∧ (d.zone e.ns z).st = .zso))

/-- DECODE_DONE, CIPHER_SECTOR_DONE, GC_PASS, REBUILD_RU, MEDIA_PATROL, RETENTION_REFRESH_DUE, FOLD_SCAN. -/
def Obligations.MediaIsKept : Prop := ∀ (s : State) (i k : Nat), s.die.awake = true →
  (∀ j b, s.die.job i = some j → j.stage = .arrived → j.step = 1 → b ≤ 96 → Completes (.decodeDone i (.converged b)) s (fun t =>
    t.job i = some { j with stage := .cipher } ∧ t.rc = s.die.rc ∧ t.qe = s.die.qe)) ∧
  (∀ j b, s.die.job i = some j → j.stage = .cipher → s.die.tagVerifies j.ns j.sec = true → s.die.selfOk j.ns j.sect j.sec = true →
    s.die.qe.hold = false → s.die.stopsHere j.tag = none → Completes (.cipherSectorDone i k .agreeTagOk b) s (fun t => t.job i = none ∧ (t.tag j.tag).work = (s.die.tag j.tag).work - 1
      ∧ (t.tag j.tag).bad = (s.die.tag j.tag).bad ∧ t.nss = s.die.nss
      ∧ ∀ e, (s.die.tag j.tag).entry = some e → e.opc = 0x02 → s.die.life.manager = true → ∀ l ∈ lbasIn (s.die.ns e.ns) e j.sect,
        let p := lbaData (s.die.ns e.ns) l (s.die.decryptSector j.ns j.sec)
        .dataOut (s.die.tag j.tag).fn j.tag l p.1 ((s.die.ns e.ns).hostMeta e l p.2) false (s.die.fn (s.die.tag j.tag).fn).relaxed ∈ t.out)) ∧
  (∀ u un, (s.die.group k).formed = true → s.die.rc.rus = [(i, u)] → u.st = .closed → u.group = k → u.rebuild = [] → s.die.validCount i = 0 → s.die.rc.rewrite = [] →
    s.die.rc.refresh = [] → s.die.rc.owner = [] → s.die.rc.crumbSlots = [] → s.die.rc.owed = [] → Completes (.gcPass ⟨k, un⟩) s (fun t => (t.ru i).st = .collecting ∧ (t.ru i).stage = 1
      ∧ (t.ru i).mark = s.die.journalMark)) ∧
  (∀ m un, s.die.se.rebuild.contains (i, k) = true → s.die.reconWaits i = false → (s.die.ru i).st = .closed → (s.die.ru i).rebuild = [] → s.die.rebuildNext = some i →
    m ∈ (s.die.ru i).members → m.port = k → s.die.validCount i * 4 < s.die.ruSectors i →
    Completes (.rebuildRu i ⟨k, un⟩) s (fun t => t.ru i = { s.die.ru i with st := .collecting, stage := 0 } ∧ t.se = s.die.se)) ∧
  (∀ un, s.die.se.rebuild.contains (i, k) = true → s.die.rebuildNeeds i k = false → Completes (.rebuildRu i ⟨k, un⟩) s (fun t =>
    t.se.rebuild = s.die.se.rebuild.filter (fun e => e != (i, k)) ∧ t.rc = s.die.rc)) ∧
  (∀ p dn bl pu cw n ag un, (s.die.port p).st = .online → cw < 48 → s.die.ruOfBlock (blockKey p dn bl) = some (i, k) →
    ((s.die.ru i).st = .closed ∨ (s.die.ru i).st = .opened) → (s.die.ru i).passed.contains (pu * 64 + k) = true → s.die.se.scrub.st ≠ 1 → n ≤ 96 →
    Completes (.mediaPatrol p dn bl pu ⟨cw, un⟩ (.converged n, ag)) s (fun t => t = s.die.countPage p dn bl
      ∧ (t.block (blockKey p dn bl)).reads = (s.die.block (blockKey p dn bl)).reads + 1)) ∧
  (∀ p dn bl, (s.die.ruOfBlock (blockKey p dn bl)).isSome = true → (s.die.block (blockKey p dn bl)).prog + s.die.retention p ≤ s.die.now → Completes (.retentionRefreshDue p dn bl) s (fun t =>
    Tbl.has t.rc.refresh (blockKey p dn bl) = true ∧ t.nss = s.die.nss)) ∧
  (∀ un, (s.die.ns i).alive = true → (∀ v ∈ (s.die.ns i).foldAt, v.1 = k → v.2 + s.die.gcProf.foldPeriod * 1000000 ≤ s.die.now) → ((s.die.ns i).crumbs.any (fun c => c.1 / 16 == k && c.2.st != .free)) = true → 2 ≤ ((s.die.ns i).entry k).heat →
    Completes (.foldScan i ⟨k, un⟩) s (fun t => (t.ns i).entry k = { (s.die.ns i).entry k with heat := ((s.die.ns i).entry k).heat - 1 } ∧ (t.ns i).crumbs = (s.die.ns i).crumbs))

/-- JOURNAL_SEGMENT_WRITE, JOURNAL_SEGMENT_DURABLE, CHECKPOINT_CYCLE_START, CHECKPOINT_CYCLE_COMPLETE, ACCOUNTING_WINDOW, SCRUB_END, LOG_SEGMENT_TIMER,
BOOT_IMAGE_WRITE, OPSEC_PERSIST. -/
def Obligations.JournalAndLogArePersisted : Prop := ∀ (s : State) (n : Nat), s.die.awake = true →
  let e := s.die.te
  (e.buf ≠ [] → e.bufAt + 200 ≤ s.die.now → Completes .journalSegmentWrite s (fun t => t.te.seg = e.seg + 1 ∧ t.te.buf = e.buf.drop (segmentRecs e.buf).length
    ∧ t.te.writing = e.writing ++ [{ seq := e.seg, recs := segmentRecs e.buf, crc := Config.segmentCrc e.seg, berths := s.die.mirrors }] ∧ t.te.retained = e.retained + 65536)) ∧
  (∀ w, e.writing.find? (fun x => x.seq == n) = some w → s.die.mirrors.length = 3 → Completes (.journalSegmentDurable n) s (fun t =>
    t.te.writing = e.writing.filter (fun x => x.seq != n) ∧ t.te.durable = e.durable + recsOf w.recs
      ∧ (∀ r ∈ w.recs, ∀ k b, .nonce k b ∈ r.what → b + 1 ≤ (t.slot k).durable)
      ∧ ((∀ u ∈ s.die.qe.tags, u.2.st ≠ .committed) → t.te.buf = e.buf))) ∧
  (e.ckpt = false → e.ckptEnd + 600000000 ≤ s.die.now → Completes .checkpointCycleStart s (fun t => t.te = { e with ckpt := true, sinceStart := 0, cycle := e.dirty.map (fun p => (p, s.die.mirrors)), dirty := [] })) ∧
  (e.ckpt = true → s.die.mirrors.length = 3 → Completes .checkpointCycleComplete s (fun t => t.te.ckpt = false ∧ t.te.ckptEnd = s.die.now ∧ t.te.retained = e.sinceStart ∧ t.te.cycle = [])) ∧
  Completes .accountingWindow s (fun t => t.sch.window = s.die.sch.window + 1 ∧ t.sch.admitted = 0 ∧ t.sch.limit = s.die.admissionLimit
    ∧ t.sch.profile = s.die.sch.profileNext ∧ ∀ f, (s.die.tenant f).alive = true → (t.tenant f).force.cls = (s.die.tenant f).cls
      ∧ (t.tenant f).force.share = (s.die.tenant f).share ∧ (t.tenant f).force.rd = (s.die.tenant f).rd ∧ (t.tenant f).alive = true) ∧
  (n ≤ 2 → s.die.se.scrub.st = 1 → Completes (.scrubEnd n) s (fun t => t.se.scrub.st = 2 ∧ t.se.scrub.result = n ∧ t.se.scrubDone = t.se.scrub
    ∧ t.se.scrub.id = s.die.se.scrub.id)) ∧
  (s.die.lb.seg ≠ [] → s.die.lb.segAt + 1000000 ≤ s.die.now → Completes .logSegmentTimer s (fun t => t.lb.seg = [] ∧ t.lb.ring = s.die.lb.ring
    ∧ ∃ x, t.lb.sys.head? = some x ∧ x.2.2 = s.die.lb.seg)) ∧
  (s.die.imageOwed = true → Completes .bootImageWrite s (fun t => t.lb.image = s.die.lb.imageOf ∧ t.lb.imageAt = some s.die.now ∧ t.lb.ring = s.die.lb.ring)) ∧
  Completes .opsecPersist s (fun t => t.lb = { s.die.lb with opsecSaved := max s.die.lb.opsecSaved s.die.opsec })

/-- DRAM_WRITE_DRAIN, MERGE_BUFFER_TIMEOUT, DRAM_PATROL, REFRESH_WINDOW, GRANULE_COPY_DONE, CHANNEL_FAILURE. -/
def Obligations.DramChannelsWork : Prop := ∀ (s : State) (c l w : Nat), s.die.awake = true →
  let x := s.die.chan c
  (x.draining = true ∨ (x.rq = [] ∧ (match x.readAt with | some a => decide (a + 1 ≤ s.die.now) | none => true) = true) → Completes (.dramWriteDrain c) s (fun t =>
    (t.chan c).wq = x.wq.drop (if 48 ≤ x.wq.length then x.wq.length - 16 else 1) ∧ (t.chan c).merge = x.merge ∧ (t.chan c).st = x.st)) ∧
  (∀ m a, x.merge.find? (fun y => y.1 == l) = some (l, m, a) → a + 2 ≤ s.die.now → x.wq.length < 64 → Completes (.mergeBufferTimeout c l) s (fun t =>
    (t.chan c).wq = x.wq ++ [(l, m)] ∧ (t.chan c).merge.any (fun m => m.1 == l) = false)) ∧
  (x.st = .active → l < x.lines → w < 8 → x.rq = [] → (s.die.dc.byteAt c l w).isSome = true → x.marked (l * 8 + w) = false → (∀ f ∈ x.flips, f.1 ≠ l * 8 + w) →
    Completes (.dramPatrol c l w .clean) s (fun t => t = if l + 1 = x.lines ∧ w = 7 then s.die.updChan c (fun y => { y with patrolAt := s.die.now }) else s.die)
      ∧ Completes (.dramPatrol c l w .corrected) s (fun t => (t.chan c).ce = satInc 0xFFFFFFFF x.ce ∧ (t.chan c).ue = x.ue ∧ (t.chan c).pbits = x.pbits)) ∧
  Completes .refreshWindow s (fun t => ∀ i, (t.chan i).acts = [] ∧ (t.chan i).wq = (s.die.chan i).wq) ∧
  (∀ g k d h, s.die.dc.granules.find? (fun e => e.1 == g) = some (g, c, k) → x.st = .vacating → s.die.dc.roomiest = some d → d ≠ c →
    s.die.dc.freeSlot d = some h → Completes (.granuleCopyDone g []) s (fun t => Tbl.get (0, 0) t.dc.granules g = (d, h) ∧ (t.chan d).st = (s.die.chan d).st)) ∧
  (x.st = .active → Completes (.channelFailure c) s (fun t => (t.chan c).st = .failed ∧ (t.chan c).wq = [] ∧ (t.chan c).merge = []))

/-- TRAY_ALLOC, TRAY_SHARE, TRAY_FREE. -/
def Obligations.TraysAreShared : Prop := ∀ (s : State) (u i z n : Nat), s.die.awake = true → 1 ≤ u → u ≤ 14 → s.die.tp.fenced.contains (unitKeyOf u i) = false →
  let x := s.die.tp.tray z n
  (∀ b use, sizeFor b = some z → s.die.mayTake z (s.die.tp.useOf use i) i = true → s.die.trayHead z = some n →
    Completes (.trayAlloc u i b use (s.die.linkWord z n)) s (fun t =>
      t.tp.tray z n = { st := .held, mask := BitVec.ofNat 14 (2 ^ (u - 1)), inst := i, use := s.die.tp.useOf use i } ∧ t.lb = s.die.lb)) ∧
  (∀ b use w, sizeFor b = some z → s.die.mayTake z (s.die.tp.useOf use i) i = true → s.die.trayHead z = some n → w ≠ s.die.linkWord z n →
    Completes (.trayAlloc u i b use w) s (fun t => (t.tp.tray z n).st = .quarantined)) ∧
  (∀ v, x.heldBy u = true → 1 ≤ v → v ≤ 14 → Completes (.trayShare u i z n v) s (fun t => (t.tp.tray z n).heldBy v = true ∧ (t.tp.tray z n).heldBy u = true
    ∧ (t.tp.tray z n).use = x.use)) ∧
  (x.heldBy u = true → x.mask ≠ BitVec.ofNat 14 (2 ^ (u - 1)) → Completes (.trayFree u i z n) s (fun t =>
    (t.tp.tray z n).mask = x.mask &&& ~~~ BitVec.ofNat 14 (2 ^ (u - 1)) ∧ (t.tp.tray z n).st = .held)) ∧
  (x.heldBy u = true → x.mask = BitVec.ofNat 14 (2 ^ (u - 1)) → s.die.bankLost (s.die.tp.bankOf z n) = false → Completes (.trayFree u i z n) s (fun t =>
    t.tp.tray z n = {} ∧ (Tbl.get [] t.tp.heads z).head? = some n))

/-- DRAM_VACATE, DRAM_CANCEL, DRAM_REJOIN, PROOF_SIZE_SET, DRAM_INJECT. -/
def Obligations.DramCommandsAct : Prop := ∀ (s : State) (q : KReq),
  let c := q.get 0 1
  let alone := ∀ i, i < 12 → i ≠ c → (s.die.chan i).st ≠ .vacating ∧ (s.die.chan i).st ≠ .rejoining
  (s.die.takes q 0x0C02 false 1 [(0, 1)] = true → c < 12 → (s.die.chan c).st = .active → alone → s.die.dc.used c = 0 → Completes (.dramVacate q) s (fun t =>
    t.answered q.fn kOk ∧ (t.chan c).st = .vacated ∧ t.life.alert = true)) ∧
  (s.die.takes q 0x0C02 false 1 [(0, 1)] = true → c < 12 → (s.die.chan c).st = .active → alone → 0 < s.die.dc.used c →
    s.die.dc.used c ≤ sumBy (fun i => if i != c && (s.die.chan i).st == .active then s.die.dc.freeOn i else 0) (List.range 12) → Completes (.dramVacate q) s (fun t =>
      t.stillRuns q.fn 0x0C02 ∧ (t.chan c).st = .vacating ∧ (t.fn q.fn).mbx.progTotal = s.die.dc.used c)) ∧
  (s.die.takes q 0x0C03 false 1 [(0, 1)] = true → c < 12 → (s.die.chan c).st = .vacating → Completes (.dramCancel q) s (fun t => t.answered q.fn kOk
    ∧ (t.chan c).st = .active ∧ t.dc.granules = s.die.dc.granules)) ∧
  (∀ f, s.die.takes q 0x0C04 false 1 [(0, 1)] = true → c < 12 → (s.die.chan c).st = .vacated → chanGood f = true → f.trainOk = true → Completes (.dramRejoin q f) s (fun t =>
    (t.answered q.fn kOk ∨ t.stillRuns q.fn 0x0C04) ∧ (t.chan c).st = .active ∧ (t.chan c).cap0 = f.cap0 ∧ (t.chan c).cap1 = f.cap1 ∧ (t.chan c).pbits = [])) ∧
  (s.die.takes q 0x0C05 false 2 [(0, 2)] = true → 8 ≤ q.get 0 2 → q.get 0 2 ≤ 128 → dramNeed s.die.needUser s.die.rawBytes (q.get 0 2) ≤ s.die.fittedDram →
    Completes (.proofSizeSet q) s (fun t => t.answered q.fn kOk ∧ t.dc = { s.die.dc with proofNext := q.get 0 2 })) ∧
  (s.die.takes q 0x0D01 false 24 [(0, 24)] = true → injectBad q = none → s.die.testLock = false → q.get 23 1 ≠ 0 → (s.die.chan c).inject = none →
    Completes (.dramInject q) s (fun t => t.answered q.fn kOk ∧ ∃ i, (t.chan c).inject = some i ∧ i.count = q.get 23 1 ∧ i.line = q.get 2 5))

/-- BERTH_PREPARE, BERTH_CANCEL, BERTH_RELEASE, BERTH_ADMIT, BERTH_CLEAR_FAULT, PORT_ENABLE_SET, BERTH_TUNNEL. -/
def Obligations.BerthCommandsAct : Prop := ∀ (s : State) (q : KReq),
  let d := s.die
  let p := q.get 0 2
  let x := d.port p
  p < Config.ports →
  (d.takes q 0x0B02 false 2 [(0, 2)] = true → x.st = .online → (d.drainNeeds p).length ≤ d.drainRoom p → Completes (.berthPrepare q) s (fun t =>
    t.answered q.fn kOk ∧ (t.port p).st = .draining ∧ ∀ r, r ∈ d.rusOf p → (r, p) ∈ t.se.rebuild)) ∧
  (d.takes q 0x0B04 false 2 [(0, 2)] = true → x.st = .draining → Completes (.berthCancel q) s (fun t =>
    t.answered q.fn kOk ∧ (t.port p).st = .online ∧ ∀ r, (r, p) ∉ t.se.rebuild)) ∧
  (d.takes q 0x0B03 false 2 [(0, 2)] = true → x.st = .online → d.rusHeld p = [] → d.qe.tags = [] → d.openRusWith (fun u => u.members.any (fun m => m.port == p)) = [] →
    x.outst = [] → d.sch.queued = [] → (∀ g, (d.group g).formed = false) → Completes (.berthRelease q) s (fun t =>
      t.answered q.fn kOk ∧ (t.port p).st = .released ∧ (t.port p).asked lmgtRelease = true)) ∧
  (d.takes q 0x0B05 false 3 [(0, 3)] = true → (x.st = .quarantine ∧ q.get 2 1 ≤ 1 ∨ x.st = .released ∧ q.get 2 1 = 0) → Completes (.berthAdmit q) s (fun t =>
    t.answered q.fn kOk ∧ (t.port p).st = .powering ∧ (t.port p).pwrEn = true ∧ (t.port p).eraseSys = (q.get 2 1 == 1))) ∧
  (d.takes q 0x0B06 false 2 [(0, 2)] = true → x.st = .fault → Completes (.berthClearFault q) s (fun t =>
    t.answered q.fn kOk ∧ (t.port p).cause = 0 ∧ (t.port p).st = (if x.enabled then .powering else .present))) ∧
  (d.takes q 0x0B09 false 3 [(0, 3)] = true → q.get 2 1 ≤ 1 → Completes (.portEnableSet q) s (fun t =>
    t.answered q.fn kOk ∧ (t.port p).enabled = (q.get 2 1 == 1))) ∧
  (∀ pp returned, d.takes q 0x0B07 false 8 [(0, 3), (4, 2), (8, q.get 4 2)] = true → tunnelBad q = none → x.passport = some pp → d.portServes p = true →
    x.dfence.getLsbD (q.get 2 1) = false → q.get 2 1 < pp.dies → d.outstAt p (q.get 2 1) = [] → (d.dsch (dieKey p (q.get 2 1))).tunnel = false →
    (d.dsch (dieKey p (q.get 2 1))).tunnelRsp = none → x.canSend = true → Completes (.berthTunnel q returned) s (fun t => t.stillRuns q.fn 0x0B07 ∧
      (t.dsch (dieKey p (q.get 2 1))).tunnel = true ∧ ∃ o ∈ (t.port p).outst ++ (t.port p).cmds, o.op = opTunnel ∧ o.die = q.get 2 1
        ∧ o.what = .tunnel ((q.payload.drop 8).take (q.get 4 2)))) ∧
  (∀ pp returned, (d.updMbx q.fn (fun m => { m with st := .idle })).takes q 0x0B07 false 8 [(0, 3), (4, 2), (8, q.get 4 2)] = true →
    (d.fn q.fn).mbx.st = .running → (d.fn q.fn).mbx.held = true → (d.fn q.fn).mbx.cmd = some q → (d.fn q.fn).mbx.opcode = 0x0B07 → (d.fn q.fn).mbx.answers = [] →
    tunnelBad q = none → x.passport = some pp → d.portServes p = true → x.dfence.getLsbD (q.get 2 1) = false → q.get 2 1 < pp.dies →
    (d.dsch (dieKey p (q.get 2 1))).tunnelRsp = some 0 → Completes (.berthTunnel q returned) s (fun t => (t.dsch (dieKey p (q.get 2 1))).tunnelRsp = none ∧
      (let n := tunnelReads (tunnelCycles q (q.get 4 2)); t.answeredWith q.fn kOk (le 2 n ++ le 2 0 ++ padTo n (if x.sysData.isEmpty then returned else x.sysData)))))

/-- WORKER_ADMIT, JOIN_COMPLETE, WORKER_RETIRE, BERTH_ADOPT, HIER_PROFILE_SET, WORKER_UPSTREAM_LOSS. -/
def Obligations.WorkersComeAndGo : Prop := ∀ (s : State) (q : KReq),
  let d := s.die
  let w := q.get 0 1
  (d.takes q 0x0A02 false 1 [(0, 1)] = true → w < 16 → (d.qpos w).st = .offered → (d.qpos w).recDsn = 0 → Completes (.workerAdmit q) s (fun t =>
    t.stillRuns q.fn 0x0A02 ∧ (t.qpos w).st = .joining ∧ (t.qpos w).recDsn = (d.qpos w).dsn)) ∧
  (∀ i, d.awake = true → d.life.manager = true → i < 16 → (d.qpos i).st = .joining → d.qe.hold = false → Completes (.joinComplete i) s (fun t =>
    (t.qpos i).st = .serving ∧ (t.qpos i).fwVer = d.fw.runVer)) ∧
  (d.takes q 0x0A03 false 1 [(0, 1)] = true → d.life.manager = true → w < 16 → (d.qpos w).st = .serving →
    (w % 4 = 0 → ∀ i ∈ [w + 1, w + 2, w + 3], (d.qpos i).st = .retired ∨ (d.qpos i).st = .absent ∨ (d.qpos i).st = .lost) → Completes (.workerRetire q) s (fun t =>
    t.stillRuns q.fn 0x0A03 ∧ (t.qpos w).st = .leaving)) ∧
  (d.takes q 0x0A04 false 1 [(0, 1)] = true → d.life.manager = true → w < 16 → (d.qpos w).st = .adopting → ∀ img, Completes (.berthAdopt (q, img)) s (fun t =>
    t.stillRuns q.fn 0x0A04 ∧ .wireMgmt w (.kanexCommand 0x0A04 (some q)) ∈ t.out ∧ t.rc = d.rc)) ∧
  (d.takes q 0x0A04 false 1 [(0, 1)] = true → d.life.manager = false → w < 16 → (d.qpos d.life.quayId).st = .adopting → ∀ img, Completes (.berthAdopt (q, img)) s (fun t =>
    t.answered q.fn kOk ∧ (t.qpos d.life.quayId).st = .absent ∧ ∀ r ∈ img.reserved, (t.slot r.1).durable ≥ r.2)) ∧
  (d.takes q 0x0A05 false 4 [(0, 1), (2, 2)] = true → hierProfileBad q = none → Completes (.hierProfileSet q) s (fun t =>
    t.applied d q.fn ∧ t.sch.profileNext = w ∧ t.ql.hierProfile = some (w, q.get 2 2))) ∧
  (∀ e, d.settledP0 = true → d.life.manager = false → Completes (.workerUpstreamLoss e) s (fun t => t.life.phase = .parked)) ∧
  (∀ e, d.awake = true → d.aon.pstate = 3 → d.aon.entering = false → d.aon.committed = false → d.life.manager = false →
    Completes (.workerUpstreamLoss e) s (fun t => t.life.phase = .parked ∧ t.ql.upstream = false ∧ t.nss = d.nss))

/-- QUAY_LINK_TRAINING, QUAY_LINK_LOST, QUAY_TIME_LOCK_LOST, QUAY_LINK_SILENCE, QUAY_LANE_NARROW, QUAY_FLIT_CRC_DISCARD, QUAY_CMD, QUAY_DATA, QUAY_CPL, QUAY_MGMT,
QUAY_KEY, QUAY_TIME. -/
def Obligations.QuayLinksCarry : Prop := ∀ (s : State) (i t : Nat), s.die.awake = true →
  let d := s.die
  let p := d.qpos i
  let x := d.tag t
  let m := d.life.manager
  (∀ id lanes fast, m = true → i < 16 → d.reachable i = true → lanes = 8 ∨ lanes = 4 ∨ lanes = 2 → d.life.refclkLost = [] → id.dsn ≠ Config.dsn → id.dsn ≠ 0 → identCause (portOf i) i id = 0 →
    Completes (.quayLinkTraining (portOf i) i id lanes fast) s (fun y => (y.qpos i).lanes = lanes ∧ (y.qpos i).dsn = id.dsn ∧ (y.qpos i).st = p.afterLink id.dsn)) ∧
  (∀ id lanes fast c, m = true → i < 16 → d.reachable i = true → lanes = 8 ∨ lanes = 4 ∨ lanes = 2 → d.life.refclkLost = [] → id.dsn ≠ Config.dsn → id.dsn ≠ 0 → identCause (portOf i) i id = c → c ≠ 0 →
    Completes (.quayLinkTraining (portOf i) i id lanes fast) s (fun y => (y.qpos i).lanes = 0 ∧ (y.qpos i).st = .refused ∧ (y.qpos i).cause = c)) ∧
  (∀ port id lanes fast, m = false → i = d.life.quayId → id.dsn ≠ Config.dsn → id.dsn ≠ 0 → id.certOk = true → Completes (.quayLinkTraining port i id lanes fast) s (fun y =>
    y.ql.upstream = true ∧ y.ql.mgrDsn = id.sysid ∧ y.ql.pos = d.ql.pos)) ∧
  (m = true → i < 16 → i % 4 ≠ 0 → p.st = .serving → p.recDsn ≠ 0 → p.cause ≠ 6 → d.qe.tags = [] → (∀ n, (d.fn n).aers = []) → d.fw.live = false →
    Completes (.quayLinkLost i) s (fun y => (y.qpos i).st = .lost ∧ (y.qpos i).cause = 5 ∧ (y.qpos i).lanes = 0)) ∧
  (d.hasLink i = true → p.times = [] → Completes (.quayTimeLockLost i) s (fun y => y.qpos i = { p with retrains := satInc 0xFFFF p.retrains, times := [d.now] })) ∧
  (d.hasLink i = true → p.times = [] → Completes (.quayLinkSilence i) s (fun y => y.qpos i = { p with retrains := satInc 0xFFFF p.retrains, times := [d.now] }
    ∧ (y.rung 4 i).step = 1)) ∧
  (∀ n, n < p.lanes → n = 4 ∨ n = 2 → p.times = [] → Completes (.quayLaneNarrow i n) s (fun y => (y.qpos i).lanes = n ∧ (y.qpos i).st = p.st
    ∧ (y.qpos i).retrains = satInc 0xFFFF p.retrains)) ∧
  Completes (.quayFlitCrcDiscard i) s (fun y => y = { d with ql := { d.ql with crc := (d.ql.crc + 1) % 2 ^ 32 } }) ∧
  (∀ g fn cls e s0 dl dlv, m = false → t < Config.tags → (d.ns e.ns).alive = true → x.st = .free → rwOpcodes.contains e.opc = false →
    Completes (.quayCmd ⟨t, g⟩ ⟨fn, cls⟩ e s0 dl dlv) s (fun y => (y.tag t).st = .admitted ∧ (y.tag t).gen = g ∧ (y.tag t).fn = fn ∧ (y.tag t).stamp.cls = cls ∧ (y.tag t).entry = some e ∧ (y.tag t).stamp.s0 = s0
      ∧ (y.tag t).stamp.deadline = dl)) ∧
  (∀ e off data hm, m = true → x.entry = some e → x.forwarded = true → x.live = true → e.opc = 0x02 → off + data.length ≤ e.nlb → (d.qe.hold = false ∨ x.st = .ret) → d.stopsHere t = none →
    Completes (.quayData ⟨t, x.gen⟩ off data hm false) s (fun y => (y.tag t).st = .ret
      ∧ ∀ k, k < data.length → .dataOut x.fn t (e.slba + off + k) (data.getD k 0) ((d.ns e.ns).hostMeta e (e.slba + off + k) (hm.getD k 0)) false (d.fn x.fn).relaxed ∈ y.out)) ∧
  (∀ g off data hm b, x.gen ≠ g → Completes (.quayData ⟨t, g⟩ off data hm b) s (fun y => y = { d with qe := { d.qe with stale := d.qe.stale + 1 } })) ∧
  (∀ c : QuayCplMsg, m = true → x.forwarded = true → x.live = true → x.st ≠ .posting → x.target = none → d.qe.hold = false → d.stopsHere t = none → Completes (.quayCpl ⟨t, x.gen⟩ c) s (fun y =>
    y.ends t (c.sct, c.sc) ∧ (y.tag t).dw0 = c.dw0 ∧ (y.tag t).errLba = c.errLba)) ∧
  (∀ g (c : QuayCplMsg), x.gen ≠ g → Completes (.quayCpl ⟨t, g⟩ c) s (fun y => y = { d with qe := { d.qe with stale := d.qe.stale + 1 } })) ∧
  (∀ w, m = false → Completes (.quayMgmt i (.weights w)) s (fun y => y.sch = { d.sch with wNext := some w } ∧ y.tenants = d.tenants)) ∧
  (∀ cap ps g used keys, m = true → i < 16 → Completes (.quayMgmt i (.summary cap ps g used keys)) s (fun y =>
    y.qpos i = { p with userCap := cap, pstate := ps % 4, formed := g, keys := keys })) ∧
  (∀ f k key, m = false → k < 4096 → (d.slot k).st = .empty → Completes (.quayKey f k (.slot key 1)) s (fun y => (y.slot k).st = .write ∧ (y.slot k).key = key
    ∧ (y.slot k).epoch = (d.slot k).epoch + 1)) ∧
  (∀ us, m = false → Completes (.quayTime us) s (fun y => y.ql.timeOffset = (us : Int) - ((d.aon.time - d.aon.zero : Nat) : Int)))

/-- R371. The function's mailbox is present and neither torn down nor fenced (R368); every catalogue command's meaning is Die.kanex with what it adds,
and the commands of kanexReads say it for exec. -/
def Obligations.MailboxRunsOneCommand : Prop := ∀ (s : State) (n : Nat),
  let m := (s.die.fn n).mbx
  let rejected := s.die.updMbx n (fun x => { x with event := x.event ||| 4#3 })
  s.die.awake = true → n < Config.functions → s.die.mbxPresent n = true → s.die.mbxUnavailable n = false → m.st = .running →
  (∀ (q : KReq) (c : KCmd), q.fn = n → m.held = false ∨ m.cmd ≠ some q → s.die.kanex q c = rejected) ∧
  (∀ (q : KReq), ∀ p ∈ kanexReads, q.fn = n → m.held = false ∨ m.cmd ≠ some q → Completes (p.2.2 q) s (fun t => t = rejected)) ∧
  (∀ seq, m.seq ≠ seq % 65536 → Completes (.abandon n seq) s (fun t => t = rejected)) ∧
  { (rejected.fn n).mbx with event := m.event } = m

/-- R381: the SUBMIT is accepted: the die is ready, the mailbox present and neither torn down nor fenced, nothing runs and no response
of the same SEQ and OPCODE stands (R371, R372). -/
def Obligations.StoppingMailboxIsBusy : Prop := ∀ (s : State) (n : Nat),
  let m := (s.die.fn n).mbx
  (s.die.life.phase = .ready → n < Config.functions → s.die.mbxPresent n = true → s.die.mbxUnavailable n = false → m.st ≠ .running → s.die.mbxStopping n = true →
    ∀ (q : KReq), ∀ p ∈ kanexReads, q.fn = n → s.die.standing q p.1 = false → Completes (p.2.2 q) s (fun t =>
      (t.fn n).mbx.st = .done ∧ ∃ r, (t.fn n).mbx.resp = some r ∧ r.status = kBusy ∧ r.synth = true)) ∧
  (m.classFrom + 1000000 ≤ s.die.now → s.die.mbxStopping n = false)

/-- R108. -/
def Obligations.BoundQueueIsNotDeleted : Prop := ∀ (s : State) (t : Nat) (e : SqEntry) (k : Nat) (q : Sq),
  let f := s.die.fn (s.die.tag t).fn
  s.die.adminTag t 0x04 e → e.qid ≠ 0 → (f.cq e.qid).size ≠ 0 → (k, q) ∈ f.sqs → q.size ≠ 0 → q.cq = e.qid →
    Completes (.deleteIoCq t) s (fun u => u.ends t (1, 0x0C) ∧ u.funcs = s.die.funcs)

/-- R100. -/
def Obligations.AbortLimitIsSixteen : Prop := ∀ (s : State) (t : Nat) (e : SqEntry),
  let x := s.die.tag t
  let older := (s.die.qe.tags.filter (fun u => u.1 != t && u.2.st != .free && u.2.fn == x.fn && u.2.adminOpc == 0x08 && decide (u.2.order < x.order))).length
  s.die.adminTag t 0x08 e → x.target = none →
  (16 ≤ older → Completes (.abort t) s (fun u => u.ends t (1, 0x03) ∧ u = s.die.finish t (1, 0x03))) ∧
  (older < 16 → Completes (.abort t) s (fun u => ¬ u.ends t (1, 0x03)))

/-- Checks 3 and 5 of R383, for any command c that the shared operation Die.kanex gets: what a refusal leaves unchanged. -/
def Obligations.ChecksChangeOnlyTheAnswer : Prop := ∀ (d : Die) (q : KReq) (c : KCmd),
  let bulk := c.op == 0x0403 || c.op == 0x0902 || (catRow c.op).isNone
  let reached := d.life.phase == .ready && decide (q.fn < Config.functions) && d.mbxPresent q.fn && !d.mbxUnavailable q.fn
    && (d.fn q.fn).mbx.st != .running && !d.standing q c.op && !d.mbxStopping q.fn && !d.qe.hold && (d.tenant q.fn).alive && q.dbSeq == q.seq
  reached = true →
  (∀ o, kHeaderBad q bulk = some o → (d.kanex q c).answered q.fn kBadParameter ∧ (d.kanex q c).sameButAnswer d
    ∧ ∃ r, ((d.kanex q c).fn q.fn).mbx.resp = some r ∧ r.detail = o) ∧
  (kHeaderBad q bulk = none → (catRow c.op).isSome = true → (kPriv c.op = 0 ∧ q.fn ≠ 0 ∨ kForeign q (kPriv c.op) = true) →
    (∃ r, ((d.kanex q c).fn q.fn).mbx.resp = some r ∧ r.status = kNotPermitted) ∧
    (d.kanex q c).tenants = d.tenants ∧ (d.kanex q c).nss = d.nss ∧ (d.kanex q c).cl = d.cl ∧ (d.kanex q c).mc = d.mc ∧ (d.kanex q c).rc = d.rc
      ∧ (d.kanex q c).te = d.te ∧ (d.kanex q c).sch = d.sch ∧ (d.kanex q c).qe = d.qe)

/-- Frames of POLICY_SET, PROFILE_SET, POWER_CAP_SET, PATROL_SET, REJOIN_WINDOW_SET, TRAY_SPLIT_SET. -/
def Obligations.SettingsKeepTheRest : Prop := ∀ (s : State) (q : KReq) (t : State),
  let d := s.die
  let same := fun (e : Die) => t.die.sameButAnswer e ∧ t.pending = s.pending
  (d.takes q 0x0104 false 4 [(0, 4)] = true → q.get 0 4 < 8 → exec (.policySet q) s = .next t →
    same { d with mc := { d.mc with policy := t.die.mc.policy, policyForce := t.die.mc.policyForce } }) ∧
  (d.takes q 0x0502 false 1 [(0, 1)] = true → exec (.profileSet q) s = .next t → same { d with sch := { d.sch with profileNext := t.die.sch.profileNext } }) ∧
  (d.takes q 0x0503 false 2 [(0, 2)] = true → exec (.powerCapSet q) s = .next t → same { d with sch := { d.sch with leanCap := t.die.sch.leanCap } }) ∧
  (d.takes q 0x0705 false 2 [(0, 2)] = true → exec (.patrolSet q) s = .next t → same { d with rc := { d.rc with patrolDays := t.die.rc.patrolDays } }) ∧
  (d.takes q 0x0B0A false 2 [(0, 2)] = true → exec (.rejoinWindowSet q) s = .next t → same { d with se := { d.se with rejoin := t.die.se.rejoin } }) ∧
  (d.takes q 0x0C06 false 5 [(0, 5)] = true → exec (.traySplitSet q) s = .next t → same { d with tp := { d.tp with splitNext := t.die.tp.splitNext } })

/-- Frames of SKP_RECEIVED, EIOS_RECEIVED, WAKE_ORDERED_SET_RECEIVED, FLIT_CRC_DISCARD, NAK_REPEAT, PWR_ACK, PWR_NAK, DOCK_ECHO, LMGT_REPEAT. -/
def Obligations.BerthFlitsKeepTheRest : Prop := ∀ (s t : State) (p : Nat) (h : FlitHdr) (i : Instr),
  i ∈ [.skpReceived p, .eiosReceived p, .wakeOrderedSetReceived p, .flitCrcDiscard p h, .nakRepeat p, .pwrAck p, .pwrNak p, .dockEcho p, .lmgtRepeat p] →
  exec i s = .next t → { t.die with bp := s.die.bp, out := s.die.out } = s.die ∧ (∀ n, n ≠ p → t.die.port n = s.die.port n) ∧ t.pending = s.pending

/-- The request area of a mailbox (R366), in the model's form of it (log entry 11). -/
def Obligations.MemoryReadsWhatWasWritten : Prop := ∀ (m : Memory) (a : Nat), m.wf = true →
  (∀ v, (Memory.write m a v).wf = true ∧ ∀ x, Memory.read (Memory.write m a v) x = if x = a then v else Memory.read m x) ∧
  (∀ l, (Memory.writeAll m a l).wf = true ∧ (∀ i, (h : i < l.length) → Memory.read (Memory.writeAll m a l) (a + i) = l[i]) ∧
    ∀ x, x < a ∨ a + l.length ≤ x → Memory.read (Memory.writeAll m a l) x = Memory.read m x)

/-- The canonical form is canonical (log entry 11). -/
def Obligations.EqualAreasAreEqualData : Prop := ∀ m n : Memory, m.wf = true → n.wf = true → (∀ x, Memory.read m x = Memory.read n x) → m = n

/-- The table of the block gives bits to no row. -/
def Obligations.NoWordSpellsACommand : Prop := ∀ (nbits w : Nat) (s : State), decodeTableWord nbits w = none ∧ s.withFetchWord nbits w = s

/-- The values at reset: R293, R366; the queue and the areas are the model's (log entries 1 and 11). -/
def Obligations.ResetMeetsTheInvariants : Prop :=
  let d := State.reset.die
  d.ownerAlive = true ∧ State.reset.pending = [] ∧ d.qe.tags = [] ∧
  (∀ n, (d.fn n).mbx.req.wf = true ∧ (d.fn n).mbx.st = .idle ∧ (d.fn n).mbx.resp = none ∧ ∀ a, Memory.read (d.fn n).mbx.req a = 0) ∧
  (∀ k, (d.slot k).st = .empty) ∧ (∀ n, n ≠ 0 → (d.tenant n).alive = false)

/-- R293: tenant 0 always exists and cannot be deleted. -/
def Obligations.OwnerIsNeverDeleted : Prop := ∀ s t : State, s.die.ownerAlive = true → step s = .next t → t.die.ownerAlive = true
end

