-- ==== Sys2Proof/Laws/Memory.lean ====
section
/-! SUPPORT. The canonical form of a byte-addressed area: a byte written keeps it, and so does a run of bytes. -/

namespace Sys2Proof.Machine

theorem Memory.wfFrom_mono {m : Memory} {lo hi : Nat} (h : lo ≤ hi) (w : Memory.wfFrom hi m = true) : Memory.wfFrom lo m = true := by
  cases m with
  | nil => rfl
  | cons e r =>
    obtain ⟨a, b⟩ := e
    simp only [Memory.wfFrom, Bool.and_eq_true, decide_eq_true_eq] at w ⊢
    exact ⟨⟨by omega, w.1.2⟩, w.2⟩

theorem Memory.wfFrom_cons {lo a : Nat} {b : Byte} {r : Memory} (h : lo ≤ a) (hb : b ≠ 0) (hr : Memory.wfFrom (a + 1) r = true) :
    Memory.wfFrom lo ((a, b) :: r) = true := by
  simp only [Memory.wfFrom, Bool.and_eq_true, decide_eq_true_eq, bne_iff_ne]
  exact ⟨⟨h, hb⟩, hr⟩

/-- One byte written above a bound keeps the form above it. -/
theorem Memory.write_wfFrom (v : Byte) : ∀ (m : Memory) (lo x : Nat), lo ≤ x → Memory.wfFrom lo m = true → Memory.wfFrom lo (Memory.write m x v) = true
  | [], lo, x, h, _ => by
    unfold Memory.write
    split
    · rfl
    · exact Memory.wfFrom_cons h ‹_› rfl
  | (a, b) :: r, lo, x, h, w => by
    simp only [Memory.wfFrom, Bool.and_eq_true, decide_eq_true_eq, bne_iff_ne] at w
    obtain ⟨⟨hlo, hb⟩, hr⟩ := w
    unfold Memory.write
    split
    · split
      · exact Memory.wfFrom_cons hlo hb hr
      · exact Memory.wfFrom_cons h ‹_› (Memory.wfFrom_cons (by omega) hb hr)
    · split
      · split
        · exact Memory.wfFrom_mono (by omega) hr
        · exact Memory.wfFrom_cons h ‹_› (by subst_vars; exact hr)
      · exact Memory.wfFrom_cons hlo hb (Memory.write_wfFrom v r (a + 1) x (by omega) hr)

/-- A byte written keeps the canonical form. -/
theorem Memory.write_keeps_wf {m : Memory} (x : Nat) (v : Byte) (w : m.wf = true) : (Memory.write m x v).wf = true :=
  Memory.write_wfFrom v m 0 x (Nat.zero_le x) w

/-- A run of bytes written keeps the canonical form. -/
theorem Memory.writeAll_keeps_wf : ∀ (l : List Byte) (m : Memory) (a : Nat), m.wf = true → (Memory.writeAll m a l).wf = true
  | [], _, _, w => w
  | b :: r, _, a, w => Memory.writeAll_keeps_wf r _ (a + 1) (Memory.write_keeps_wf a b w)

/-- The areas of the machine after reset have the canonical form. -/
theorem reset_areas_wf (n : Nat) : (State.reset.die.fn n).mbx.req.wf = true := by rfl

end Sys2Proof.Machine
end

