-- ==== Sys2Proof/Laws/Tbl.lean ====
section
/-! SUPPORT. Laws of the tables: what a table reads after an entry is written, changed or taken away. -/

namespace Sys2Proof

theorem Tbl.get_set_self {α : Type} (d v : α) (t : Tbl α) (k : Nat) : Tbl.get d (Tbl.set t k v) k = v := by
  induction t with
  | nil => simp [Tbl.set, Tbl.get]
  | cons e r ih => obtain ⟨a, b⟩ := e; by_cases h : k = a <;> simp [Tbl.set, Tbl.get, h, ih]

theorem Tbl.get_set_ne {α : Type} (d v : α) (t : Tbl α) {k j : Nat} (h : j ≠ k) : Tbl.get d (Tbl.set t k v) j = Tbl.get d t j := by
  induction t with
  | nil => simp [Tbl.set, Tbl.get, h]
  | cons e r ih =>
    obtain ⟨a, b⟩ := e
    by_cases hk : k = a
    · subst hk; simp [Tbl.set, Tbl.get, h]
    · by_cases hj : j = a <;> simp [Tbl.set, Tbl.get, hk, hj, ih]

/-- A table read after one entry was written. -/
theorem Tbl.get_set {α : Type} (d v : α) (t : Tbl α) (k j : Nat) : Tbl.get d (Tbl.set t k v) j = if j = k then v else Tbl.get d t j := by
  by_cases h : j = k
  · subst h; simp [Tbl.get_set_self]
  · simp [h, Tbl.get_set_ne d v t h]

/-- A table read after one entry was changed by a function. -/
theorem Tbl.get_upd {α : Type} (d : α) (t : Tbl α) (k j : Nat) (f : α → α) :
    Tbl.get d (Tbl.upd d t k f) j = if j = k then f (Tbl.get d t k) else Tbl.get d t j := by simp [Tbl.upd, Tbl.get_set]

@[simp] theorem Tbl.get_upd_self {α : Type} (d : α) (t : Tbl α) (k : Nat) (f : α → α) :
    Tbl.get d (Tbl.upd d t k f) k = f (Tbl.get d t k) := by simp [Tbl.get_upd]

theorem Tbl.get_upd_ne {α : Type} (d : α) (t : Tbl α) {k j : Nat} (f : α → α) (h : j ≠ k) :
    Tbl.get d (Tbl.upd d t k f) j = Tbl.get d t j := by simp [Tbl.get_upd, h]

/-- A table without its entry reads the default there and is unchanged elsewhere. -/
theorem Tbl.get_del {α : Type} (d : α) (t : Tbl α) (k j : Nat) : Tbl.get d (Tbl.del t k) j = if j = k then d else Tbl.get d t j := by
  induction t with
  | nil => simp [Tbl.del, Tbl.get]
  | cons e r ih =>
    obtain ⟨a, b⟩ := e
    simp only [Tbl.del] at ih
    by_cases ha : a = k
    · subst ha
      by_cases hj : j = a <;> simp_all [Tbl.del, Tbl.get]
    · by_cases hj : j = a <;> simp_all [Tbl.del, Tbl.get]

/-- A read of a table whose values are all changed, where the default is changed to the default. -/
theorem Tbl.get_mapVals {α β : Type} (f : Nat → α → β) (d : α) (e : β) (t : Tbl α) (k : Nat) (h : f k d = e) :
    Tbl.get e (Tbl.mapVals f t) k = f k (Tbl.get d t k) := by
  induction t with
  | nil => simp [Tbl.mapVals, Tbl.get, h]
  | cons x r ih =>
    obtain ⟨a, b⟩ := x
    simp only [Tbl.mapVals] at ih
    by_cases ha : k = a
    · subst ha; simp [Tbl.mapVals, Tbl.get]
    · simp [Tbl.mapVals, Tbl.get, ha, ih]

/-- What each step of a fold keeps, the fold keeps. -/
theorem foldl_keeps {α β : Type} (P : β → Prop) (f : β → α → β) (h : ∀ b a, P b → P (f b a)) :
    ∀ (l : List α) (b : β), P b → P (l.foldl f b)
  | [], _, hb => hb
  | a :: r, b, hb => foldl_keeps P f h r (f b a) (h b a hb)

/-- A part that no step of a fold changes, the fold does not change. -/
theorem foldl_same {α β γ : Type} (g : β → γ) (f : β → α → β) (h : ∀ b a, g (f b a) = g b) (l : List α) (b : β) :
    g (l.foldl f b) = g b :=
  foldl_keeps (fun x => g x = g b) f (fun x a hx => (h x a).trans hx) l b rfl

end Sys2Proof
end

