-- ==== Sys2Proof/Laws/State.lean ====
section
/-! SUPPORT. One lemma per field and update of the state, true by rfl, and what an updated table reads. -/

namespace Sys2Proof.Machine

set_option Elab.async false

/-! ## Die.updFn -/

@[simp] theorem Die.updFn_life (d : Die) (n : Nat) (f : Func → Func) : (d.updFn n f).life = d.life := rfl
@[simp] theorem Die.updFn_link (d : Die) (n : Nat) (f : Func → Func) : (d.updFn n f).link = d.link := rfl
@[simp] theorem Die.updFn_tenants (d : Die) (n : Nat) (f : Func → Func) : (d.updFn n f).tenants = d.tenants := rfl
@[simp] theorem Die.updFn_qe (d : Die) (n : Nat) (f : Func → Func) : (d.updFn n f).qe = d.qe := rfl
@[simp] theorem Die.updFn_sch (d : Die) (n : Nat) (f : Func → Func) : (d.updFn n f).sch = d.sch := rfl
@[simp] theorem Die.updFn_nss (d : Die) (n : Nat) (f : Func → Func) : (d.updFn n f).nss = d.nss := rfl
@[simp] theorem Die.updFn_te (d : Die) (n : Nat) (f : Func → Func) : (d.updFn n f).te = d.te := rfl
@[simp] theorem Die.updFn_rc (d : Die) (n : Nat) (f : Func → Func) : (d.updFn n f).rc = d.rc := rfl
@[simp] theorem Die.updFn_se (d : Die) (n : Nat) (f : Func → Func) : (d.updFn n f).se = d.se := rfl
@[simp] theorem Die.updFn_bp (d : Die) (n : Nat) (f : Func → Func) : (d.updFn n f).bp = d.bp := rfl
@[simp] theorem Die.updFn_cl (d : Die) (n : Nat) (f : Func → Func) : (d.updFn n f).cl = d.cl := rfl
@[simp] theorem Die.updFn_units (d : Die) (n : Nat) (f : Func → Func) : (d.updFn n f).units = d.units := rfl
@[simp] theorem Die.updFn_dc (d : Die) (n : Nat) (f : Func → Func) : (d.updFn n f).dc = d.dc := rfl
@[simp] theorem Die.updFn_tp (d : Die) (n : Nat) (f : Func → Func) : (d.updFn n f).tp = d.tp := rfl
@[simp] theorem Die.updFn_mc (d : Die) (n : Nat) (f : Func → Func) : (d.updFn n f).mc = d.mc := rfl
@[simp] theorem Die.updFn_lb (d : Die) (n : Nat) (f : Func → Func) : (d.updFn n f).lb = d.lb := rfl
@[simp] theorem Die.updFn_fw (d : Die) (n : Nat) (f : Func → Func) : (d.updFn n f).fw = d.fw := rfl
@[simp] theorem Die.updFn_aon (d : Die) (n : Nat) (f : Func → Func) : (d.updFn n f).aon = d.aon := rfl
@[simp] theorem Die.updFn_ql (d : Die) (n : Nat) (f : Func → Func) : (d.updFn n f).ql = d.ql := rfl
@[simp] theorem Die.updFn_out (d : Die) (n : Nat) (f : Func → Func) : (d.updFn n f).out = d.out := rfl
@[simp] theorem Die.updFn_free (d : Die) (n : Nat) (f : Func → Func) : (d.updFn n f).free = d.free := rfl

/-! ## Die.updTenant -/

@[simp] theorem Die.updTenant_life (d : Die) (n : Nat) (f : Tenant → Tenant) : (d.updTenant n f).life = d.life := rfl
@[simp] theorem Die.updTenant_link (d : Die) (n : Nat) (f : Tenant → Tenant) : (d.updTenant n f).link = d.link := rfl
@[simp] theorem Die.updTenant_funcs (d : Die) (n : Nat) (f : Tenant → Tenant) : (d.updTenant n f).funcs = d.funcs := rfl
@[simp] theorem Die.updTenant_qe (d : Die) (n : Nat) (f : Tenant → Tenant) : (d.updTenant n f).qe = d.qe := rfl
@[simp] theorem Die.updTenant_sch (d : Die) (n : Nat) (f : Tenant → Tenant) : (d.updTenant n f).sch = d.sch := rfl
@[simp] theorem Die.updTenant_nss (d : Die) (n : Nat) (f : Tenant → Tenant) : (d.updTenant n f).nss = d.nss := rfl
@[simp] theorem Die.updTenant_te (d : Die) (n : Nat) (f : Tenant → Tenant) : (d.updTenant n f).te = d.te := rfl
@[simp] theorem Die.updTenant_rc (d : Die) (n : Nat) (f : Tenant → Tenant) : (d.updTenant n f).rc = d.rc := rfl
@[simp] theorem Die.updTenant_se (d : Die) (n : Nat) (f : Tenant → Tenant) : (d.updTenant n f).se = d.se := rfl
@[simp] theorem Die.updTenant_bp (d : Die) (n : Nat) (f : Tenant → Tenant) : (d.updTenant n f).bp = d.bp := rfl
@[simp] theorem Die.updTenant_cl (d : Die) (n : Nat) (f : Tenant → Tenant) : (d.updTenant n f).cl = d.cl := rfl
@[simp] theorem Die.updTenant_units (d : Die) (n : Nat) (f : Tenant → Tenant) : (d.updTenant n f).units = d.units := rfl
@[simp] theorem Die.updTenant_dc (d : Die) (n : Nat) (f : Tenant → Tenant) : (d.updTenant n f).dc = d.dc := rfl
@[simp] theorem Die.updTenant_tp (d : Die) (n : Nat) (f : Tenant → Tenant) : (d.updTenant n f).tp = d.tp := rfl
@[simp] theorem Die.updTenant_mc (d : Die) (n : Nat) (f : Tenant → Tenant) : (d.updTenant n f).mc = d.mc := rfl
@[simp] theorem Die.updTenant_lb (d : Die) (n : Nat) (f : Tenant → Tenant) : (d.updTenant n f).lb = d.lb := rfl
@[simp] theorem Die.updTenant_fw (d : Die) (n : Nat) (f : Tenant → Tenant) : (d.updTenant n f).fw = d.fw := rfl
@[simp] theorem Die.updTenant_aon (d : Die) (n : Nat) (f : Tenant → Tenant) : (d.updTenant n f).aon = d.aon := rfl
@[simp] theorem Die.updTenant_ql (d : Die) (n : Nat) (f : Tenant → Tenant) : (d.updTenant n f).ql = d.ql := rfl
@[simp] theorem Die.updTenant_out (d : Die) (n : Nat) (f : Tenant → Tenant) : (d.updTenant n f).out = d.out := rfl
@[simp] theorem Die.updTenant_free (d : Die) (n : Nat) (f : Tenant → Tenant) : (d.updTenant n f).free = d.free := rfl

/-! ## Die.updTag -/

@[simp] theorem Die.updTag_life (d : Die) (n : Nat) (f : Tag → Tag) : (d.updTag n f).life = d.life := rfl
@[simp] theorem Die.updTag_link (d : Die) (n : Nat) (f : Tag → Tag) : (d.updTag n f).link = d.link := rfl
@[simp] theorem Die.updTag_funcs (d : Die) (n : Nat) (f : Tag → Tag) : (d.updTag n f).funcs = d.funcs := rfl
@[simp] theorem Die.updTag_tenants (d : Die) (n : Nat) (f : Tag → Tag) : (d.updTag n f).tenants = d.tenants := rfl
@[simp] theorem Die.updTag_sch (d : Die) (n : Nat) (f : Tag → Tag) : (d.updTag n f).sch = d.sch := rfl
@[simp] theorem Die.updTag_nss (d : Die) (n : Nat) (f : Tag → Tag) : (d.updTag n f).nss = d.nss := rfl
@[simp] theorem Die.updTag_te (d : Die) (n : Nat) (f : Tag → Tag) : (d.updTag n f).te = d.te := rfl
@[simp] theorem Die.updTag_rc (d : Die) (n : Nat) (f : Tag → Tag) : (d.updTag n f).rc = d.rc := rfl
@[simp] theorem Die.updTag_se (d : Die) (n : Nat) (f : Tag → Tag) : (d.updTag n f).se = d.se := rfl
@[simp] theorem Die.updTag_bp (d : Die) (n : Nat) (f : Tag → Tag) : (d.updTag n f).bp = d.bp := rfl
@[simp] theorem Die.updTag_cl (d : Die) (n : Nat) (f : Tag → Tag) : (d.updTag n f).cl = d.cl := rfl
@[simp] theorem Die.updTag_units (d : Die) (n : Nat) (f : Tag → Tag) : (d.updTag n f).units = d.units := rfl
@[simp] theorem Die.updTag_dc (d : Die) (n : Nat) (f : Tag → Tag) : (d.updTag n f).dc = d.dc := rfl
@[simp] theorem Die.updTag_tp (d : Die) (n : Nat) (f : Tag → Tag) : (d.updTag n f).tp = d.tp := rfl
@[simp] theorem Die.updTag_mc (d : Die) (n : Nat) (f : Tag → Tag) : (d.updTag n f).mc = d.mc := rfl
@[simp] theorem Die.updTag_lb (d : Die) (n : Nat) (f : Tag → Tag) : (d.updTag n f).lb = d.lb := rfl
@[simp] theorem Die.updTag_fw (d : Die) (n : Nat) (f : Tag → Tag) : (d.updTag n f).fw = d.fw := rfl
@[simp] theorem Die.updTag_aon (d : Die) (n : Nat) (f : Tag → Tag) : (d.updTag n f).aon = d.aon := rfl
@[simp] theorem Die.updTag_ql (d : Die) (n : Nat) (f : Tag → Tag) : (d.updTag n f).ql = d.ql := rfl
@[simp] theorem Die.updTag_out (d : Die) (n : Nat) (f : Tag → Tag) : (d.updTag n f).out = d.out := rfl
@[simp] theorem Die.updTag_free (d : Die) (n : Nat) (f : Tag → Tag) : (d.updTag n f).free = d.free := rfl

/-! ## Die.updNs -/

@[simp] theorem Die.updNs_life (d : Die) (n : Nat) (f : Ns → Ns) : (d.updNs n f).life = d.life := rfl
@[simp] theorem Die.updNs_link (d : Die) (n : Nat) (f : Ns → Ns) : (d.updNs n f).link = d.link := rfl
@[simp] theorem Die.updNs_funcs (d : Die) (n : Nat) (f : Ns → Ns) : (d.updNs n f).funcs = d.funcs := rfl
@[simp] theorem Die.updNs_tenants (d : Die) (n : Nat) (f : Ns → Ns) : (d.updNs n f).tenants = d.tenants := rfl
@[simp] theorem Die.updNs_qe (d : Die) (n : Nat) (f : Ns → Ns) : (d.updNs n f).qe = d.qe := rfl
@[simp] theorem Die.updNs_sch (d : Die) (n : Nat) (f : Ns → Ns) : (d.updNs n f).sch = d.sch := rfl
@[simp] theorem Die.updNs_te (d : Die) (n : Nat) (f : Ns → Ns) : (d.updNs n f).te = d.te := rfl
@[simp] theorem Die.updNs_rc (d : Die) (n : Nat) (f : Ns → Ns) : (d.updNs n f).rc = d.rc := rfl
@[simp] theorem Die.updNs_se (d : Die) (n : Nat) (f : Ns → Ns) : (d.updNs n f).se = d.se := rfl
@[simp] theorem Die.updNs_bp (d : Die) (n : Nat) (f : Ns → Ns) : (d.updNs n f).bp = d.bp := rfl
@[simp] theorem Die.updNs_cl (d : Die) (n : Nat) (f : Ns → Ns) : (d.updNs n f).cl = d.cl := rfl
@[simp] theorem Die.updNs_units (d : Die) (n : Nat) (f : Ns → Ns) : (d.updNs n f).units = d.units := rfl
@[simp] theorem Die.updNs_dc (d : Die) (n : Nat) (f : Ns → Ns) : (d.updNs n f).dc = d.dc := rfl
@[simp] theorem Die.updNs_tp (d : Die) (n : Nat) (f : Ns → Ns) : (d.updNs n f).tp = d.tp := rfl
@[simp] theorem Die.updNs_mc (d : Die) (n : Nat) (f : Ns → Ns) : (d.updNs n f).mc = d.mc := rfl
@[simp] theorem Die.updNs_lb (d : Die) (n : Nat) (f : Ns → Ns) : (d.updNs n f).lb = d.lb := rfl
@[simp] theorem Die.updNs_fw (d : Die) (n : Nat) (f : Ns → Ns) : (d.updNs n f).fw = d.fw := rfl
@[simp] theorem Die.updNs_aon (d : Die) (n : Nat) (f : Ns → Ns) : (d.updNs n f).aon = d.aon := rfl
@[simp] theorem Die.updNs_ql (d : Die) (n : Nat) (f : Ns → Ns) : (d.updNs n f).ql = d.ql := rfl
@[simp] theorem Die.updNs_out (d : Die) (n : Nat) (f : Ns → Ns) : (d.updNs n f).out = d.out := rfl
@[simp] theorem Die.updNs_free (d : Die) (n : Nat) (f : Ns → Ns) : (d.updNs n f).free = d.free := rfl

/-! ## Die.updZone -/

@[simp] theorem Die.updZone_life (d : Die) (n z : Nat) (f : Zone → Zone) : (d.updZone n z f).life = d.life := rfl
@[simp] theorem Die.updZone_link (d : Die) (n z : Nat) (f : Zone → Zone) : (d.updZone n z f).link = d.link := rfl
@[simp] theorem Die.updZone_funcs (d : Die) (n z : Nat) (f : Zone → Zone) : (d.updZone n z f).funcs = d.funcs := rfl
@[simp] theorem Die.updZone_tenants (d : Die) (n z : Nat) (f : Zone → Zone) : (d.updZone n z f).tenants = d.tenants := rfl
@[simp] theorem Die.updZone_qe (d : Die) (n z : Nat) (f : Zone → Zone) : (d.updZone n z f).qe = d.qe := rfl
@[simp] theorem Die.updZone_sch (d : Die) (n z : Nat) (f : Zone → Zone) : (d.updZone n z f).sch = d.sch := rfl
@[simp] theorem Die.updZone_te (d : Die) (n z : Nat) (f : Zone → Zone) : (d.updZone n z f).te = d.te := rfl
@[simp] theorem Die.updZone_rc (d : Die) (n z : Nat) (f : Zone → Zone) : (d.updZone n z f).rc = d.rc := rfl
@[simp] theorem Die.updZone_se (d : Die) (n z : Nat) (f : Zone → Zone) : (d.updZone n z f).se = d.se := rfl
@[simp] theorem Die.updZone_bp (d : Die) (n z : Nat) (f : Zone → Zone) : (d.updZone n z f).bp = d.bp := rfl
@[simp] theorem Die.updZone_cl (d : Die) (n z : Nat) (f : Zone → Zone) : (d.updZone n z f).cl = d.cl := rfl
@[simp] theorem Die.updZone_units (d : Die) (n z : Nat) (f : Zone → Zone) : (d.updZone n z f).units = d.units := rfl
@[simp] theorem Die.updZone_dc (d : Die) (n z : Nat) (f : Zone → Zone) : (d.updZone n z f).dc = d.dc := rfl
@[simp] theorem Die.updZone_tp (d : Die) (n z : Nat) (f : Zone → Zone) : (d.updZone n z f).tp = d.tp := rfl
@[simp] theorem Die.updZone_mc (d : Die) (n z : Nat) (f : Zone → Zone) : (d.updZone n z f).mc = d.mc := rfl
@[simp] theorem Die.updZone_lb (d : Die) (n z : Nat) (f : Zone → Zone) : (d.updZone n z f).lb = d.lb := rfl
@[simp] theorem Die.updZone_fw (d : Die) (n z : Nat) (f : Zone → Zone) : (d.updZone n z f).fw = d.fw := rfl
@[simp] theorem Die.updZone_aon (d : Die) (n z : Nat) (f : Zone → Zone) : (d.updZone n z f).aon = d.aon := rfl
@[simp] theorem Die.updZone_ql (d : Die) (n z : Nat) (f : Zone → Zone) : (d.updZone n z f).ql = d.ql := rfl
@[simp] theorem Die.updZone_out (d : Die) (n z : Nat) (f : Zone → Zone) : (d.updZone n z f).out = d.out := rfl
@[simp] theorem Die.updZone_free (d : Die) (n z : Nat) (f : Zone → Zone) : (d.updZone n z f).free = d.free := rfl

/-! ## Die.updPort -/

@[simp] theorem Die.updPort_life (d : Die) (n : Nat) (f : Port → Port) : (d.updPort n f).life = d.life := rfl
@[simp] theorem Die.updPort_link (d : Die) (n : Nat) (f : Port → Port) : (d.updPort n f).link = d.link := rfl
@[simp] theorem Die.updPort_funcs (d : Die) (n : Nat) (f : Port → Port) : (d.updPort n f).funcs = d.funcs := rfl
@[simp] theorem Die.updPort_tenants (d : Die) (n : Nat) (f : Port → Port) : (d.updPort n f).tenants = d.tenants := rfl
@[simp] theorem Die.updPort_qe (d : Die) (n : Nat) (f : Port → Port) : (d.updPort n f).qe = d.qe := rfl
@[simp] theorem Die.updPort_sch (d : Die) (n : Nat) (f : Port → Port) : (d.updPort n f).sch = d.sch := rfl
@[simp] theorem Die.updPort_nss (d : Die) (n : Nat) (f : Port → Port) : (d.updPort n f).nss = d.nss := rfl
@[simp] theorem Die.updPort_te (d : Die) (n : Nat) (f : Port → Port) : (d.updPort n f).te = d.te := rfl
@[simp] theorem Die.updPort_rc (d : Die) (n : Nat) (f : Port → Port) : (d.updPort n f).rc = d.rc := rfl
@[simp] theorem Die.updPort_se (d : Die) (n : Nat) (f : Port → Port) : (d.updPort n f).se = d.se := rfl
@[simp] theorem Die.updPort_cl (d : Die) (n : Nat) (f : Port → Port) : (d.updPort n f).cl = d.cl := rfl
@[simp] theorem Die.updPort_units (d : Die) (n : Nat) (f : Port → Port) : (d.updPort n f).units = d.units := rfl
@[simp] theorem Die.updPort_dc (d : Die) (n : Nat) (f : Port → Port) : (d.updPort n f).dc = d.dc := rfl
@[simp] theorem Die.updPort_tp (d : Die) (n : Nat) (f : Port → Port) : (d.updPort n f).tp = d.tp := rfl
@[simp] theorem Die.updPort_mc (d : Die) (n : Nat) (f : Port → Port) : (d.updPort n f).mc = d.mc := rfl
@[simp] theorem Die.updPort_lb (d : Die) (n : Nat) (f : Port → Port) : (d.updPort n f).lb = d.lb := rfl
@[simp] theorem Die.updPort_fw (d : Die) (n : Nat) (f : Port → Port) : (d.updPort n f).fw = d.fw := rfl
@[simp] theorem Die.updPort_aon (d : Die) (n : Nat) (f : Port → Port) : (d.updPort n f).aon = d.aon := rfl
@[simp] theorem Die.updPort_ql (d : Die) (n : Nat) (f : Port → Port) : (d.updPort n f).ql = d.ql := rfl
@[simp] theorem Die.updPort_out (d : Die) (n : Nat) (f : Port → Port) : (d.updPort n f).out = d.out := rfl
@[simp] theorem Die.updPort_free (d : Die) (n : Nat) (f : Port → Port) : (d.updPort n f).free = d.free := rfl

/-! ## Die.updChan -/

@[simp] theorem Die.updChan_life (d : Die) (n : Nat) (f : Chan → Chan) : (d.updChan n f).life = d.life := rfl
@[simp] theorem Die.updChan_link (d : Die) (n : Nat) (f : Chan → Chan) : (d.updChan n f).link = d.link := rfl
@[simp] theorem Die.updChan_funcs (d : Die) (n : Nat) (f : Chan → Chan) : (d.updChan n f).funcs = d.funcs := rfl
@[simp] theorem Die.updChan_tenants (d : Die) (n : Nat) (f : Chan → Chan) : (d.updChan n f).tenants = d.tenants := rfl
@[simp] theorem Die.updChan_qe (d : Die) (n : Nat) (f : Chan → Chan) : (d.updChan n f).qe = d.qe := rfl
@[simp] theorem Die.updChan_sch (d : Die) (n : Nat) (f : Chan → Chan) : (d.updChan n f).sch = d.sch := rfl
@[simp] theorem Die.updChan_nss (d : Die) (n : Nat) (f : Chan → Chan) : (d.updChan n f).nss = d.nss := rfl
@[simp] theorem Die.updChan_te (d : Die) (n : Nat) (f : Chan → Chan) : (d.updChan n f).te = d.te := rfl
@[simp] theorem Die.updChan_rc (d : Die) (n : Nat) (f : Chan → Chan) : (d.updChan n f).rc = d.rc := rfl
@[simp] theorem Die.updChan_se (d : Die) (n : Nat) (f : Chan → Chan) : (d.updChan n f).se = d.se := rfl
@[simp] theorem Die.updChan_bp (d : Die) (n : Nat) (f : Chan → Chan) : (d.updChan n f).bp = d.bp := rfl
@[simp] theorem Die.updChan_cl (d : Die) (n : Nat) (f : Chan → Chan) : (d.updChan n f).cl = d.cl := rfl
@[simp] theorem Die.updChan_units (d : Die) (n : Nat) (f : Chan → Chan) : (d.updChan n f).units = d.units := rfl
@[simp] theorem Die.updChan_tp (d : Die) (n : Nat) (f : Chan → Chan) : (d.updChan n f).tp = d.tp := rfl
@[simp] theorem Die.updChan_mc (d : Die) (n : Nat) (f : Chan → Chan) : (d.updChan n f).mc = d.mc := rfl
@[simp] theorem Die.updChan_lb (d : Die) (n : Nat) (f : Chan → Chan) : (d.updChan n f).lb = d.lb := rfl
@[simp] theorem Die.updChan_fw (d : Die) (n : Nat) (f : Chan → Chan) : (d.updChan n f).fw = d.fw := rfl
@[simp] theorem Die.updChan_aon (d : Die) (n : Nat) (f : Chan → Chan) : (d.updChan n f).aon = d.aon := rfl
@[simp] theorem Die.updChan_ql (d : Die) (n : Nat) (f : Chan → Chan) : (d.updChan n f).ql = d.ql := rfl
@[simp] theorem Die.updChan_out (d : Die) (n : Nat) (f : Chan → Chan) : (d.updChan n f).out = d.out := rfl
@[simp] theorem Die.updChan_free (d : Die) (n : Nat) (f : Chan → Chan) : (d.updChan n f).free = d.free := rfl

/-! ## Die.updSlot -/

@[simp] theorem Die.updSlot_life (d : Die) (n : Nat) (f : Slot → Slot) : (d.updSlot n f).life = d.life := rfl
@[simp] theorem Die.updSlot_link (d : Die) (n : Nat) (f : Slot → Slot) : (d.updSlot n f).link = d.link := rfl
@[simp] theorem Die.updSlot_funcs (d : Die) (n : Nat) (f : Slot → Slot) : (d.updSlot n f).funcs = d.funcs := rfl
@[simp] theorem Die.updSlot_tenants (d : Die) (n : Nat) (f : Slot → Slot) : (d.updSlot n f).tenants = d.tenants := rfl
@[simp] theorem Die.updSlot_qe (d : Die) (n : Nat) (f : Slot → Slot) : (d.updSlot n f).qe = d.qe := rfl
@[simp] theorem Die.updSlot_sch (d : Die) (n : Nat) (f : Slot → Slot) : (d.updSlot n f).sch = d.sch := rfl
@[simp] theorem Die.updSlot_nss (d : Die) (n : Nat) (f : Slot → Slot) : (d.updSlot n f).nss = d.nss := rfl
@[simp] theorem Die.updSlot_te (d : Die) (n : Nat) (f : Slot → Slot) : (d.updSlot n f).te = d.te := rfl
@[simp] theorem Die.updSlot_rc (d : Die) (n : Nat) (f : Slot → Slot) : (d.updSlot n f).rc = d.rc := rfl
@[simp] theorem Die.updSlot_se (d : Die) (n : Nat) (f : Slot → Slot) : (d.updSlot n f).se = d.se := rfl
@[simp] theorem Die.updSlot_bp (d : Die) (n : Nat) (f : Slot → Slot) : (d.updSlot n f).bp = d.bp := rfl
@[simp] theorem Die.updSlot_units (d : Die) (n : Nat) (f : Slot → Slot) : (d.updSlot n f).units = d.units := rfl
@[simp] theorem Die.updSlot_dc (d : Die) (n : Nat) (f : Slot → Slot) : (d.updSlot n f).dc = d.dc := rfl
@[simp] theorem Die.updSlot_tp (d : Die) (n : Nat) (f : Slot → Slot) : (d.updSlot n f).tp = d.tp := rfl
@[simp] theorem Die.updSlot_mc (d : Die) (n : Nat) (f : Slot → Slot) : (d.updSlot n f).mc = d.mc := rfl
@[simp] theorem Die.updSlot_lb (d : Die) (n : Nat) (f : Slot → Slot) : (d.updSlot n f).lb = d.lb := rfl
@[simp] theorem Die.updSlot_fw (d : Die) (n : Nat) (f : Slot → Slot) : (d.updSlot n f).fw = d.fw := rfl
@[simp] theorem Die.updSlot_aon (d : Die) (n : Nat) (f : Slot → Slot) : (d.updSlot n f).aon = d.aon := rfl
@[simp] theorem Die.updSlot_ql (d : Die) (n : Nat) (f : Slot → Slot) : (d.updSlot n f).ql = d.ql := rfl
@[simp] theorem Die.updSlot_out (d : Die) (n : Nat) (f : Slot → Slot) : (d.updSlot n f).out = d.out := rfl
@[simp] theorem Die.updSlot_free (d : Die) (n : Nat) (f : Slot → Slot) : (d.updSlot n f).free = d.free := rfl

/-! ## Die.updRu -/

@[simp] theorem Die.updRu_life (d : Die) (n : Nat) (f : Ru → Ru) : (d.updRu n f).life = d.life := rfl
@[simp] theorem Die.updRu_link (d : Die) (n : Nat) (f : Ru → Ru) : (d.updRu n f).link = d.link := rfl
@[simp] theorem Die.updRu_funcs (d : Die) (n : Nat) (f : Ru → Ru) : (d.updRu n f).funcs = d.funcs := rfl
@[simp] theorem Die.updRu_tenants (d : Die) (n : Nat) (f : Ru → Ru) : (d.updRu n f).tenants = d.tenants := rfl
@[simp] theorem Die.updRu_qe (d : Die) (n : Nat) (f : Ru → Ru) : (d.updRu n f).qe = d.qe := rfl
@[simp] theorem Die.updRu_sch (d : Die) (n : Nat) (f : Ru → Ru) : (d.updRu n f).sch = d.sch := rfl
@[simp] theorem Die.updRu_nss (d : Die) (n : Nat) (f : Ru → Ru) : (d.updRu n f).nss = d.nss := rfl
@[simp] theorem Die.updRu_te (d : Die) (n : Nat) (f : Ru → Ru) : (d.updRu n f).te = d.te := rfl
@[simp] theorem Die.updRu_se (d : Die) (n : Nat) (f : Ru → Ru) : (d.updRu n f).se = d.se := rfl
@[simp] theorem Die.updRu_bp (d : Die) (n : Nat) (f : Ru → Ru) : (d.updRu n f).bp = d.bp := rfl
@[simp] theorem Die.updRu_cl (d : Die) (n : Nat) (f : Ru → Ru) : (d.updRu n f).cl = d.cl := rfl
@[simp] theorem Die.updRu_units (d : Die) (n : Nat) (f : Ru → Ru) : (d.updRu n f).units = d.units := rfl
@[simp] theorem Die.updRu_dc (d : Die) (n : Nat) (f : Ru → Ru) : (d.updRu n f).dc = d.dc := rfl
@[simp] theorem Die.updRu_tp (d : Die) (n : Nat) (f : Ru → Ru) : (d.updRu n f).tp = d.tp := rfl
@[simp] theorem Die.updRu_mc (d : Die) (n : Nat) (f : Ru → Ru) : (d.updRu n f).mc = d.mc := rfl
@[simp] theorem Die.updRu_lb (d : Die) (n : Nat) (f : Ru → Ru) : (d.updRu n f).lb = d.lb := rfl
@[simp] theorem Die.updRu_fw (d : Die) (n : Nat) (f : Ru → Ru) : (d.updRu n f).fw = d.fw := rfl
@[simp] theorem Die.updRu_aon (d : Die) (n : Nat) (f : Ru → Ru) : (d.updRu n f).aon = d.aon := rfl
@[simp] theorem Die.updRu_ql (d : Die) (n : Nat) (f : Ru → Ru) : (d.updRu n f).ql = d.ql := rfl
@[simp] theorem Die.updRu_out (d : Die) (n : Nat) (f : Ru → Ru) : (d.updRu n f).out = d.out := rfl
@[simp] theorem Die.updRu_free (d : Die) (n : Nat) (f : Ru → Ru) : (d.updRu n f).free = d.free := rfl

/-! ## Die.updGroup -/

@[simp] theorem Die.updGroup_life (d : Die) (n : Nat) (f : Group → Group) : (d.updGroup n f).life = d.life := rfl
@[simp] theorem Die.updGroup_link (d : Die) (n : Nat) (f : Group → Group) : (d.updGroup n f).link = d.link := rfl
@[simp] theorem Die.updGroup_funcs (d : Die) (n : Nat) (f : Group → Group) : (d.updGroup n f).funcs = d.funcs := rfl
@[simp] theorem Die.updGroup_tenants (d : Die) (n : Nat) (f : Group → Group) : (d.updGroup n f).tenants = d.tenants := rfl
@[simp] theorem Die.updGroup_qe (d : Die) (n : Nat) (f : Group → Group) : (d.updGroup n f).qe = d.qe := rfl
@[simp] theorem Die.updGroup_sch (d : Die) (n : Nat) (f : Group → Group) : (d.updGroup n f).sch = d.sch := rfl
@[simp] theorem Die.updGroup_nss (d : Die) (n : Nat) (f : Group → Group) : (d.updGroup n f).nss = d.nss := rfl
@[simp] theorem Die.updGroup_te (d : Die) (n : Nat) (f : Group → Group) : (d.updGroup n f).te = d.te := rfl
@[simp] theorem Die.updGroup_se (d : Die) (n : Nat) (f : Group → Group) : (d.updGroup n f).se = d.se := rfl
@[simp] theorem Die.updGroup_bp (d : Die) (n : Nat) (f : Group → Group) : (d.updGroup n f).bp = d.bp := rfl
@[simp] theorem Die.updGroup_cl (d : Die) (n : Nat) (f : Group → Group) : (d.updGroup n f).cl = d.cl := rfl
@[simp] theorem Die.updGroup_units (d : Die) (n : Nat) (f : Group → Group) : (d.updGroup n f).units = d.units := rfl
@[simp] theorem Die.updGroup_dc (d : Die) (n : Nat) (f : Group → Group) : (d.updGroup n f).dc = d.dc := rfl
@[simp] theorem Die.updGroup_tp (d : Die) (n : Nat) (f : Group → Group) : (d.updGroup n f).tp = d.tp := rfl
@[simp] theorem Die.updGroup_mc (d : Die) (n : Nat) (f : Group → Group) : (d.updGroup n f).mc = d.mc := rfl
@[simp] theorem Die.updGroup_lb (d : Die) (n : Nat) (f : Group → Group) : (d.updGroup n f).lb = d.lb := rfl
@[simp] theorem Die.updGroup_fw (d : Die) (n : Nat) (f : Group → Group) : (d.updGroup n f).fw = d.fw := rfl
@[simp] theorem Die.updGroup_aon (d : Die) (n : Nat) (f : Group → Group) : (d.updGroup n f).aon = d.aon := rfl
@[simp] theorem Die.updGroup_ql (d : Die) (n : Nat) (f : Group → Group) : (d.updGroup n f).ql = d.ql := rfl
@[simp] theorem Die.updGroup_out (d : Die) (n : Nat) (f : Group → Group) : (d.updGroup n f).out = d.out := rfl
@[simp] theorem Die.updGroup_free (d : Die) (n : Nat) (f : Group → Group) : (d.updGroup n f).free = d.free := rfl

/-! ## Die.updBlock -/

@[simp] theorem Die.updBlock_life (d : Die) (n : Nat) (f : Block → Block) : (d.updBlock n f).life = d.life := rfl
@[simp] theorem Die.updBlock_link (d : Die) (n : Nat) (f : Block → Block) : (d.updBlock n f).link = d.link := rfl
@[simp] theorem Die.updBlock_funcs (d : Die) (n : Nat) (f : Block → Block) : (d.updBlock n f).funcs = d.funcs := rfl
@[simp] theorem Die.updBlock_tenants (d : Die) (n : Nat) (f : Block → Block) : (d.updBlock n f).tenants = d.tenants := rfl
@[simp] theorem Die.updBlock_qe (d : Die) (n : Nat) (f : Block → Block) : (d.updBlock n f).qe = d.qe := rfl
@[simp] theorem Die.updBlock_sch (d : Die) (n : Nat) (f : Block → Block) : (d.updBlock n f).sch = d.sch := rfl
@[simp] theorem Die.updBlock_nss (d : Die) (n : Nat) (f : Block → Block) : (d.updBlock n f).nss = d.nss := rfl
@[simp] theorem Die.updBlock_te (d : Die) (n : Nat) (f : Block → Block) : (d.updBlock n f).te = d.te := rfl
@[simp] theorem Die.updBlock_se (d : Die) (n : Nat) (f : Block → Block) : (d.updBlock n f).se = d.se := rfl
@[simp] theorem Die.updBlock_bp (d : Die) (n : Nat) (f : Block → Block) : (d.updBlock n f).bp = d.bp := rfl
@[simp] theorem Die.updBlock_cl (d : Die) (n : Nat) (f : Block → Block) : (d.updBlock n f).cl = d.cl := rfl
@[simp] theorem Die.updBlock_units (d : Die) (n : Nat) (f : Block → Block) : (d.updBlock n f).units = d.units := rfl
@[simp] theorem Die.updBlock_dc (d : Die) (n : Nat) (f : Block → Block) : (d.updBlock n f).dc = d.dc := rfl
@[simp] theorem Die.updBlock_tp (d : Die) (n : Nat) (f : Block → Block) : (d.updBlock n f).tp = d.tp := rfl
@[simp] theorem Die.updBlock_mc (d : Die) (n : Nat) (f : Block → Block) : (d.updBlock n f).mc = d.mc := rfl
@[simp] theorem Die.updBlock_lb (d : Die) (n : Nat) (f : Block → Block) : (d.updBlock n f).lb = d.lb := rfl
@[simp] theorem Die.updBlock_fw (d : Die) (n : Nat) (f : Block → Block) : (d.updBlock n f).fw = d.fw := rfl
@[simp] theorem Die.updBlock_aon (d : Die) (n : Nat) (f : Block → Block) : (d.updBlock n f).aon = d.aon := rfl
@[simp] theorem Die.updBlock_ql (d : Die) (n : Nat) (f : Block → Block) : (d.updBlock n f).ql = d.ql := rfl
@[simp] theorem Die.updBlock_out (d : Die) (n : Nat) (f : Block → Block) : (d.updBlock n f).out = d.out := rfl
@[simp] theorem Die.updBlock_free (d : Die) (n : Nat) (f : Block → Block) : (d.updBlock n f).free = d.free := rfl

/-! ## Die.updDsch -/

@[simp] theorem Die.updDsch_life (d : Die) (n : Nat) (f : DieSch → DieSch) : (d.updDsch n f).life = d.life := rfl
@[simp] theorem Die.updDsch_link (d : Die) (n : Nat) (f : DieSch → DieSch) : (d.updDsch n f).link = d.link := rfl
@[simp] theorem Die.updDsch_funcs (d : Die) (n : Nat) (f : DieSch → DieSch) : (d.updDsch n f).funcs = d.funcs := rfl
@[simp] theorem Die.updDsch_tenants (d : Die) (n : Nat) (f : DieSch → DieSch) : (d.updDsch n f).tenants = d.tenants := rfl
@[simp] theorem Die.updDsch_qe (d : Die) (n : Nat) (f : DieSch → DieSch) : (d.updDsch n f).qe = d.qe := rfl
@[simp] theorem Die.updDsch_nss (d : Die) (n : Nat) (f : DieSch → DieSch) : (d.updDsch n f).nss = d.nss := rfl
@[simp] theorem Die.updDsch_te (d : Die) (n : Nat) (f : DieSch → DieSch) : (d.updDsch n f).te = d.te := rfl
@[simp] theorem Die.updDsch_rc (d : Die) (n : Nat) (f : DieSch → DieSch) : (d.updDsch n f).rc = d.rc := rfl
@[simp] theorem Die.updDsch_se (d : Die) (n : Nat) (f : DieSch → DieSch) : (d.updDsch n f).se = d.se := rfl
@[simp] theorem Die.updDsch_bp (d : Die) (n : Nat) (f : DieSch → DieSch) : (d.updDsch n f).bp = d.bp := rfl
@[simp] theorem Die.updDsch_cl (d : Die) (n : Nat) (f : DieSch → DieSch) : (d.updDsch n f).cl = d.cl := rfl
@[simp] theorem Die.updDsch_units (d : Die) (n : Nat) (f : DieSch → DieSch) : (d.updDsch n f).units = d.units := rfl
@[simp] theorem Die.updDsch_dc (d : Die) (n : Nat) (f : DieSch → DieSch) : (d.updDsch n f).dc = d.dc := rfl
@[simp] theorem Die.updDsch_tp (d : Die) (n : Nat) (f : DieSch → DieSch) : (d.updDsch n f).tp = d.tp := rfl
@[simp] theorem Die.updDsch_mc (d : Die) (n : Nat) (f : DieSch → DieSch) : (d.updDsch n f).mc = d.mc := rfl
@[simp] theorem Die.updDsch_lb (d : Die) (n : Nat) (f : DieSch → DieSch) : (d.updDsch n f).lb = d.lb := rfl
@[simp] theorem Die.updDsch_fw (d : Die) (n : Nat) (f : DieSch → DieSch) : (d.updDsch n f).fw = d.fw := rfl
@[simp] theorem Die.updDsch_aon (d : Die) (n : Nat) (f : DieSch → DieSch) : (d.updDsch n f).aon = d.aon := rfl
@[simp] theorem Die.updDsch_ql (d : Die) (n : Nat) (f : DieSch → DieSch) : (d.updDsch n f).ql = d.ql := rfl
@[simp] theorem Die.updDsch_out (d : Die) (n : Nat) (f : DieSch → DieSch) : (d.updDsch n f).out = d.out := rfl
@[simp] theorem Die.updDsch_free (d : Die) (n : Nat) (f : DieSch → DieSch) : (d.updDsch n f).free = d.free := rfl

/-! ## Die.updSrc -/

@[simp] theorem Die.updSrc_life (d : Die) (n : Nat) (f : Src → Src) : (d.updSrc n f).life = d.life := rfl
@[simp] theorem Die.updSrc_link (d : Die) (n : Nat) (f : Src → Src) : (d.updSrc n f).link = d.link := rfl
@[simp] theorem Die.updSrc_funcs (d : Die) (n : Nat) (f : Src → Src) : (d.updSrc n f).funcs = d.funcs := rfl
@[simp] theorem Die.updSrc_tenants (d : Die) (n : Nat) (f : Src → Src) : (d.updSrc n f).tenants = d.tenants := rfl
@[simp] theorem Die.updSrc_qe (d : Die) (n : Nat) (f : Src → Src) : (d.updSrc n f).qe = d.qe := rfl
@[simp] theorem Die.updSrc_sch (d : Die) (n : Nat) (f : Src → Src) : (d.updSrc n f).sch = d.sch := rfl
@[simp] theorem Die.updSrc_nss (d : Die) (n : Nat) (f : Src → Src) : (d.updSrc n f).nss = d.nss := rfl
@[simp] theorem Die.updSrc_te (d : Die) (n : Nat) (f : Src → Src) : (d.updSrc n f).te = d.te := rfl
@[simp] theorem Die.updSrc_rc (d : Die) (n : Nat) (f : Src → Src) : (d.updSrc n f).rc = d.rc := rfl
@[simp] theorem Die.updSrc_se (d : Die) (n : Nat) (f : Src → Src) : (d.updSrc n f).se = d.se := rfl
@[simp] theorem Die.updSrc_bp (d : Die) (n : Nat) (f : Src → Src) : (d.updSrc n f).bp = d.bp := rfl
@[simp] theorem Die.updSrc_cl (d : Die) (n : Nat) (f : Src → Src) : (d.updSrc n f).cl = d.cl := rfl
@[simp] theorem Die.updSrc_units (d : Die) (n : Nat) (f : Src → Src) : (d.updSrc n f).units = d.units := rfl
@[simp] theorem Die.updSrc_dc (d : Die) (n : Nat) (f : Src → Src) : (d.updSrc n f).dc = d.dc := rfl
@[simp] theorem Die.updSrc_tp (d : Die) (n : Nat) (f : Src → Src) : (d.updSrc n f).tp = d.tp := rfl
@[simp] theorem Die.updSrc_lb (d : Die) (n : Nat) (f : Src → Src) : (d.updSrc n f).lb = d.lb := rfl
@[simp] theorem Die.updSrc_fw (d : Die) (n : Nat) (f : Src → Src) : (d.updSrc n f).fw = d.fw := rfl
@[simp] theorem Die.updSrc_aon (d : Die) (n : Nat) (f : Src → Src) : (d.updSrc n f).aon = d.aon := rfl
@[simp] theorem Die.updSrc_ql (d : Die) (n : Nat) (f : Src → Src) : (d.updSrc n f).ql = d.ql := rfl
@[simp] theorem Die.updSrc_out (d : Die) (n : Nat) (f : Src → Src) : (d.updSrc n f).out = d.out := rfl
@[simp] theorem Die.updSrc_free (d : Die) (n : Nat) (f : Src → Src) : (d.updSrc n f).free = d.free := rfl

/-! ## Die.updSensor -/

@[simp] theorem Die.updSensor_life (d : Die) (n : Nat) (f : Sensor → Sensor) : (d.updSensor n f).life = d.life := rfl
@[simp] theorem Die.updSensor_link (d : Die) (n : Nat) (f : Sensor → Sensor) : (d.updSensor n f).link = d.link := rfl
@[simp] theorem Die.updSensor_funcs (d : Die) (n : Nat) (f : Sensor → Sensor) : (d.updSensor n f).funcs = d.funcs := rfl
@[simp] theorem Die.updSensor_tenants (d : Die) (n : Nat) (f : Sensor → Sensor) : (d.updSensor n f).tenants = d.tenants := rfl
@[simp] theorem Die.updSensor_qe (d : Die) (n : Nat) (f : Sensor → Sensor) : (d.updSensor n f).qe = d.qe := rfl
@[simp] theorem Die.updSensor_sch (d : Die) (n : Nat) (f : Sensor → Sensor) : (d.updSensor n f).sch = d.sch := rfl
@[simp] theorem Die.updSensor_nss (d : Die) (n : Nat) (f : Sensor → Sensor) : (d.updSensor n f).nss = d.nss := rfl
@[simp] theorem Die.updSensor_te (d : Die) (n : Nat) (f : Sensor → Sensor) : (d.updSensor n f).te = d.te := rfl
@[simp] theorem Die.updSensor_rc (d : Die) (n : Nat) (f : Sensor → Sensor) : (d.updSensor n f).rc = d.rc := rfl
@[simp] theorem Die.updSensor_se (d : Die) (n : Nat) (f : Sensor → Sensor) : (d.updSensor n f).se = d.se := rfl
@[simp] theorem Die.updSensor_bp (d : Die) (n : Nat) (f : Sensor → Sensor) : (d.updSensor n f).bp = d.bp := rfl
@[simp] theorem Die.updSensor_cl (d : Die) (n : Nat) (f : Sensor → Sensor) : (d.updSensor n f).cl = d.cl := rfl
@[simp] theorem Die.updSensor_units (d : Die) (n : Nat) (f : Sensor → Sensor) : (d.updSensor n f).units = d.units := rfl
@[simp] theorem Die.updSensor_dc (d : Die) (n : Nat) (f : Sensor → Sensor) : (d.updSensor n f).dc = d.dc := rfl
@[simp] theorem Die.updSensor_tp (d : Die) (n : Nat) (f : Sensor → Sensor) : (d.updSensor n f).tp = d.tp := rfl
@[simp] theorem Die.updSensor_mc (d : Die) (n : Nat) (f : Sensor → Sensor) : (d.updSensor n f).mc = d.mc := rfl
@[simp] theorem Die.updSensor_lb (d : Die) (n : Nat) (f : Sensor → Sensor) : (d.updSensor n f).lb = d.lb := rfl
@[simp] theorem Die.updSensor_fw (d : Die) (n : Nat) (f : Sensor → Sensor) : (d.updSensor n f).fw = d.fw := rfl
@[simp] theorem Die.updSensor_ql (d : Die) (n : Nat) (f : Sensor → Sensor) : (d.updSensor n f).ql = d.ql := rfl
@[simp] theorem Die.updSensor_out (d : Die) (n : Nat) (f : Sensor → Sensor) : (d.updSensor n f).out = d.out := rfl
@[simp] theorem Die.updSensor_free (d : Die) (n : Nat) (f : Sensor → Sensor) : (d.updSensor n f).free = d.free := rfl

/-! ## Die.updQpos -/

@[simp] theorem Die.updQpos_life (d : Die) (n : Nat) (f : Pos → Pos) : (d.updQpos n f).life = d.life := rfl
@[simp] theorem Die.updQpos_link (d : Die) (n : Nat) (f : Pos → Pos) : (d.updQpos n f).link = d.link := rfl
@[simp] theorem Die.updQpos_funcs (d : Die) (n : Nat) (f : Pos → Pos) : (d.updQpos n f).funcs = d.funcs := rfl
@[simp] theorem Die.updQpos_tenants (d : Die) (n : Nat) (f : Pos → Pos) : (d.updQpos n f).tenants = d.tenants := rfl
@[simp] theorem Die.updQpos_qe (d : Die) (n : Nat) (f : Pos → Pos) : (d.updQpos n f).qe = d.qe := rfl
@[simp] theorem Die.updQpos_sch (d : Die) (n : Nat) (f : Pos → Pos) : (d.updQpos n f).sch = d.sch := rfl
@[simp] theorem Die.updQpos_nss (d : Die) (n : Nat) (f : Pos → Pos) : (d.updQpos n f).nss = d.nss := rfl
@[simp] theorem Die.updQpos_te (d : Die) (n : Nat) (f : Pos → Pos) : (d.updQpos n f).te = d.te := rfl
@[simp] theorem Die.updQpos_rc (d : Die) (n : Nat) (f : Pos → Pos) : (d.updQpos n f).rc = d.rc := rfl
@[simp] theorem Die.updQpos_se (d : Die) (n : Nat) (f : Pos → Pos) : (d.updQpos n f).se = d.se := rfl
@[simp] theorem Die.updQpos_bp (d : Die) (n : Nat) (f : Pos → Pos) : (d.updQpos n f).bp = d.bp := rfl
@[simp] theorem Die.updQpos_cl (d : Die) (n : Nat) (f : Pos → Pos) : (d.updQpos n f).cl = d.cl := rfl
@[simp] theorem Die.updQpos_units (d : Die) (n : Nat) (f : Pos → Pos) : (d.updQpos n f).units = d.units := rfl
@[simp] theorem Die.updQpos_dc (d : Die) (n : Nat) (f : Pos → Pos) : (d.updQpos n f).dc = d.dc := rfl
@[simp] theorem Die.updQpos_tp (d : Die) (n : Nat) (f : Pos → Pos) : (d.updQpos n f).tp = d.tp := rfl
@[simp] theorem Die.updQpos_mc (d : Die) (n : Nat) (f : Pos → Pos) : (d.updQpos n f).mc = d.mc := rfl
@[simp] theorem Die.updQpos_lb (d : Die) (n : Nat) (f : Pos → Pos) : (d.updQpos n f).lb = d.lb := rfl
@[simp] theorem Die.updQpos_fw (d : Die) (n : Nat) (f : Pos → Pos) : (d.updQpos n f).fw = d.fw := rfl
@[simp] theorem Die.updQpos_aon (d : Die) (n : Nat) (f : Pos → Pos) : (d.updQpos n f).aon = d.aon := rfl
@[simp] theorem Die.updQpos_out (d : Die) (n : Nat) (f : Pos → Pos) : (d.updQpos n f).out = d.out := rfl
@[simp] theorem Die.updQpos_free (d : Die) (n : Nat) (f : Pos → Pos) : (d.updQpos n f).free = d.free := rfl

/-! ## Die.updMbx -/

@[simp] theorem Die.updMbx_life (d : Die) (n : Nat) (f : Mbx → Mbx) : (d.updMbx n f).life = d.life := rfl
@[simp] theorem Die.updMbx_link (d : Die) (n : Nat) (f : Mbx → Mbx) : (d.updMbx n f).link = d.link := rfl
@[simp] theorem Die.updMbx_tenants (d : Die) (n : Nat) (f : Mbx → Mbx) : (d.updMbx n f).tenants = d.tenants := rfl
@[simp] theorem Die.updMbx_qe (d : Die) (n : Nat) (f : Mbx → Mbx) : (d.updMbx n f).qe = d.qe := rfl
@[simp] theorem Die.updMbx_sch (d : Die) (n : Nat) (f : Mbx → Mbx) : (d.updMbx n f).sch = d.sch := rfl
@[simp] theorem Die.updMbx_nss (d : Die) (n : Nat) (f : Mbx → Mbx) : (d.updMbx n f).nss = d.nss := rfl
@[simp] theorem Die.updMbx_te (d : Die) (n : Nat) (f : Mbx → Mbx) : (d.updMbx n f).te = d.te := rfl
@[simp] theorem Die.updMbx_rc (d : Die) (n : Nat) (f : Mbx → Mbx) : (d.updMbx n f).rc = d.rc := rfl
@[simp] theorem Die.updMbx_se (d : Die) (n : Nat) (f : Mbx → Mbx) : (d.updMbx n f).se = d.se := rfl
@[simp] theorem Die.updMbx_bp (d : Die) (n : Nat) (f : Mbx → Mbx) : (d.updMbx n f).bp = d.bp := rfl
@[simp] theorem Die.updMbx_cl (d : Die) (n : Nat) (f : Mbx → Mbx) : (d.updMbx n f).cl = d.cl := rfl
@[simp] theorem Die.updMbx_units (d : Die) (n : Nat) (f : Mbx → Mbx) : (d.updMbx n f).units = d.units := rfl
@[simp] theorem Die.updMbx_dc (d : Die) (n : Nat) (f : Mbx → Mbx) : (d.updMbx n f).dc = d.dc := rfl
@[simp] theorem Die.updMbx_tp (d : Die) (n : Nat) (f : Mbx → Mbx) : (d.updMbx n f).tp = d.tp := rfl
@[simp] theorem Die.updMbx_mc (d : Die) (n : Nat) (f : Mbx → Mbx) : (d.updMbx n f).mc = d.mc := rfl
@[simp] theorem Die.updMbx_lb (d : Die) (n : Nat) (f : Mbx → Mbx) : (d.updMbx n f).lb = d.lb := rfl
@[simp] theorem Die.updMbx_fw (d : Die) (n : Nat) (f : Mbx → Mbx) : (d.updMbx n f).fw = d.fw := rfl
@[simp] theorem Die.updMbx_aon (d : Die) (n : Nat) (f : Mbx → Mbx) : (d.updMbx n f).aon = d.aon := rfl
@[simp] theorem Die.updMbx_ql (d : Die) (n : Nat) (f : Mbx → Mbx) : (d.updMbx n f).ql = d.ql := rfl
@[simp] theorem Die.updMbx_out (d : Die) (n : Nat) (f : Mbx → Mbx) : (d.updMbx n f).out = d.out := rfl
@[simp] theorem Die.updMbx_free (d : Die) (n : Nat) (f : Mbx → Mbx) : (d.updMbx n f).free = d.free := rfl

/-! ## Die.drawn -/

@[simp] theorem Die.drawn_life (d : Die) : (d.drawn).life = d.life := rfl
@[simp] theorem Die.drawn_link (d : Die) : (d.drawn).link = d.link := rfl
@[simp] theorem Die.drawn_funcs (d : Die) : (d.drawn).funcs = d.funcs := rfl
@[simp] theorem Die.drawn_tenants (d : Die) : (d.drawn).tenants = d.tenants := rfl
@[simp] theorem Die.drawn_qe (d : Die) : (d.drawn).qe = d.qe := rfl
@[simp] theorem Die.drawn_sch (d : Die) : (d.drawn).sch = d.sch := rfl
@[simp] theorem Die.drawn_nss (d : Die) : (d.drawn).nss = d.nss := rfl
@[simp] theorem Die.drawn_te (d : Die) : (d.drawn).te = d.te := rfl
@[simp] theorem Die.drawn_rc (d : Die) : (d.drawn).rc = d.rc := rfl
@[simp] theorem Die.drawn_se (d : Die) : (d.drawn).se = d.se := rfl
@[simp] theorem Die.drawn_bp (d : Die) : (d.drawn).bp = d.bp := rfl
@[simp] theorem Die.drawn_cl (d : Die) : (d.drawn).cl = d.cl := rfl
@[simp] theorem Die.drawn_units (d : Die) : (d.drawn).units = d.units := rfl
@[simp] theorem Die.drawn_dc (d : Die) : (d.drawn).dc = d.dc := rfl
@[simp] theorem Die.drawn_tp (d : Die) : (d.drawn).tp = d.tp := rfl
@[simp] theorem Die.drawn_mc (d : Die) : (d.drawn).mc = d.mc := rfl
@[simp] theorem Die.drawn_lb (d : Die) : (d.drawn).lb = d.lb := rfl
@[simp] theorem Die.drawn_fw (d : Die) : (d.drawn).fw = d.fw := rfl
@[simp] theorem Die.drawn_aon (d : Die) : (d.drawn).aon = d.aon := rfl
@[simp] theorem Die.drawn_ql (d : Die) : (d.drawn).ql = d.ql := rfl
@[simp] theorem Die.drawn_out (d : Die) : (d.drawn).out = d.out := rfl

/-! ## Die.tick -/

@[simp] theorem Die.tick_life (d : Die) : (d.tick).life = d.life := rfl
@[simp] theorem Die.tick_link (d : Die) : (d.tick).link = d.link := rfl
@[simp] theorem Die.tick_funcs (d : Die) : (d.tick).funcs = d.funcs := rfl
@[simp] theorem Die.tick_tenants (d : Die) : (d.tick).tenants = d.tenants := rfl
@[simp] theorem Die.tick_qe (d : Die) : (d.tick).qe = d.qe := rfl
@[simp] theorem Die.tick_sch (d : Die) : (d.tick).sch = d.sch := rfl
@[simp] theorem Die.tick_nss (d : Die) : (d.tick).nss = d.nss := rfl
@[simp] theorem Die.tick_te (d : Die) : (d.tick).te = d.te := rfl
@[simp] theorem Die.tick_rc (d : Die) : (d.tick).rc = d.rc := rfl
@[simp] theorem Die.tick_se (d : Die) : (d.tick).se = d.se := rfl
@[simp] theorem Die.tick_bp (d : Die) : (d.tick).bp = d.bp := rfl
@[simp] theorem Die.tick_cl (d : Die) : (d.tick).cl = d.cl := rfl
@[simp] theorem Die.tick_units (d : Die) : (d.tick).units = d.units := rfl
@[simp] theorem Die.tick_dc (d : Die) : (d.tick).dc = d.dc := rfl
@[simp] theorem Die.tick_tp (d : Die) : (d.tick).tp = d.tp := rfl
@[simp] theorem Die.tick_mc (d : Die) : (d.tick).mc = d.mc := rfl
@[simp] theorem Die.tick_lb (d : Die) : (d.tick).lb = d.lb := rfl
@[simp] theorem Die.tick_fw (d : Die) : (d.tick).fw = d.fw := rfl
@[simp] theorem Die.tick_ql (d : Die) : (d.tick).ql = d.ql := rfl
@[simp] theorem Die.tick_out (d : Die) : (d.tick).out = d.out := rfl
@[simp] theorem Die.tick_free (d : Die) : (d.tick).free = d.free := rfl

/-! ## Die.emit -/

@[simp] theorem Die.emit_life (d : Die) (o : Out) (h : o.isTlp = false) : (d.emit o).life = d.life := by simp [Die.emit, h]
@[simp] theorem Die.emit_funcs (d : Die) (o : Out) : (d.emit o).funcs = d.funcs := by unfold Die.emit; cases o.isTlp <;> rfl
@[simp] theorem Die.emit_tenants (d : Die) (o : Out) : (d.emit o).tenants = d.tenants := by unfold Die.emit; cases o.isTlp <;> rfl
@[simp] theorem Die.emit_qe (d : Die) (o : Out) : (d.emit o).qe = d.qe := by unfold Die.emit; cases o.isTlp <;> rfl
@[simp] theorem Die.emit_sch (d : Die) (o : Out) : (d.emit o).sch = d.sch := by unfold Die.emit; cases o.isTlp <;> rfl
@[simp] theorem Die.emit_nss (d : Die) (o : Out) : (d.emit o).nss = d.nss := by unfold Die.emit; cases o.isTlp <;> rfl
@[simp] theorem Die.emit_te (d : Die) (o : Out) : (d.emit o).te = d.te := by unfold Die.emit; cases o.isTlp <;> rfl
@[simp] theorem Die.emit_rc (d : Die) (o : Out) : (d.emit o).rc = d.rc := by unfold Die.emit; cases o.isTlp <;> rfl
@[simp] theorem Die.emit_se (d : Die) (o : Out) : (d.emit o).se = d.se := by unfold Die.emit; cases o.isTlp <;> rfl
@[simp] theorem Die.emit_bp (d : Die) (o : Out) : (d.emit o).bp = d.bp := by unfold Die.emit; cases o.isTlp <;> rfl
@[simp] theorem Die.emit_cl (d : Die) (o : Out) : (d.emit o).cl = d.cl := by unfold Die.emit; cases o.isTlp <;> rfl
@[simp] theorem Die.emit_units (d : Die) (o : Out) : (d.emit o).units = d.units := by unfold Die.emit; cases o.isTlp <;> rfl
@[simp] theorem Die.emit_dc (d : Die) (o : Out) : (d.emit o).dc = d.dc := by unfold Die.emit; cases o.isTlp <;> rfl
@[simp] theorem Die.emit_tp (d : Die) (o : Out) : (d.emit o).tp = d.tp := by unfold Die.emit; cases o.isTlp <;> rfl
@[simp] theorem Die.emit_mc (d : Die) (o : Out) : (d.emit o).mc = d.mc := by unfold Die.emit; cases o.isTlp <;> rfl
@[simp] theorem Die.emit_lb (d : Die) (o : Out) : (d.emit o).lb = d.lb := by unfold Die.emit; cases o.isTlp <;> rfl
@[simp] theorem Die.emit_fw (d : Die) (o : Out) : (d.emit o).fw = d.fw := by unfold Die.emit; cases o.isTlp <;> rfl
@[simp] theorem Die.emit_aon (d : Die) (o : Out) : (d.emit o).aon = d.aon := by unfold Die.emit; cases o.isTlp <;> rfl
@[simp] theorem Die.emit_ql (d : Die) (o : Out) : (d.emit o).ql = d.ql := by unfold Die.emit; cases o.isTlp <;> rfl
@[simp] theorem Die.emit_free (d : Die) (o : Out) : (d.emit o).free = d.free := by unfold Die.emit; cases o.isTlp <;> rfl

/-! ## Die.finish -/

@[simp] theorem Die.finish_life (d : Die) (t : Nat) (st : Status) : (d.finish t st).life = d.life := rfl
@[simp] theorem Die.finish_link (d : Die) (t : Nat) (st : Status) : (d.finish t st).link = d.link := rfl
@[simp] theorem Die.finish_funcs (d : Die) (t : Nat) (st : Status) : (d.finish t st).funcs = d.funcs := rfl
@[simp] theorem Die.finish_tenants (d : Die) (t : Nat) (st : Status) : (d.finish t st).tenants = d.tenants := rfl
@[simp] theorem Die.finish_sch (d : Die) (t : Nat) (st : Status) : (d.finish t st).sch = d.sch := rfl
@[simp] theorem Die.finish_nss (d : Die) (t : Nat) (st : Status) : (d.finish t st).nss = d.nss := rfl
@[simp] theorem Die.finish_te (d : Die) (t : Nat) (st : Status) : (d.finish t st).te = d.te := rfl
@[simp] theorem Die.finish_rc (d : Die) (t : Nat) (st : Status) : (d.finish t st).rc = d.rc := rfl
@[simp] theorem Die.finish_se (d : Die) (t : Nat) (st : Status) : (d.finish t st).se = d.se := rfl
@[simp] theorem Die.finish_bp (d : Die) (t : Nat) (st : Status) : (d.finish t st).bp = d.bp := rfl
@[simp] theorem Die.finish_cl (d : Die) (t : Nat) (st : Status) : (d.finish t st).cl = d.cl := rfl
@[simp] theorem Die.finish_units (d : Die) (t : Nat) (st : Status) : (d.finish t st).units = d.units := rfl
@[simp] theorem Die.finish_dc (d : Die) (t : Nat) (st : Status) : (d.finish t st).dc = d.dc := rfl
@[simp] theorem Die.finish_tp (d : Die) (t : Nat) (st : Status) : (d.finish t st).tp = d.tp := rfl
@[simp] theorem Die.finish_mc (d : Die) (t : Nat) (st : Status) : (d.finish t st).mc = d.mc := rfl
@[simp] theorem Die.finish_lb (d : Die) (t : Nat) (st : Status) : (d.finish t st).lb = d.lb := rfl
@[simp] theorem Die.finish_fw (d : Die) (t : Nat) (st : Status) : (d.finish t st).fw = d.fw := rfl
@[simp] theorem Die.finish_aon (d : Die) (t : Nat) (st : Status) : (d.finish t st).aon = d.aon := rfl
@[simp] theorem Die.finish_ql (d : Die) (t : Nat) (st : Status) : (d.finish t st).ql = d.ql := rfl
@[simp] theorem Die.finish_out (d : Die) (t : Nat) (st : Status) : (d.finish t st).out = d.out := rfl
@[simp] theorem Die.finish_free (d : Die) (t : Nat) (st : Status) : (d.finish t st).free = d.free := rfl

/-! ## Die.finishDw0 -/

@[simp] theorem Die.finishDw0_life (d : Die) (t : Nat) (st : Status) (w : Word) : (d.finishDw0 t st w).life = d.life := rfl
@[simp] theorem Die.finishDw0_link (d : Die) (t : Nat) (st : Status) (w : Word) : (d.finishDw0 t st w).link = d.link := rfl
@[simp] theorem Die.finishDw0_funcs (d : Die) (t : Nat) (st : Status) (w : Word) : (d.finishDw0 t st w).funcs = d.funcs := rfl
@[simp] theorem Die.finishDw0_tenants (d : Die) (t : Nat) (st : Status) (w : Word) : (d.finishDw0 t st w).tenants = d.tenants := rfl
@[simp] theorem Die.finishDw0_sch (d : Die) (t : Nat) (st : Status) (w : Word) : (d.finishDw0 t st w).sch = d.sch := rfl
@[simp] theorem Die.finishDw0_nss (d : Die) (t : Nat) (st : Status) (w : Word) : (d.finishDw0 t st w).nss = d.nss := rfl
@[simp] theorem Die.finishDw0_te (d : Die) (t : Nat) (st : Status) (w : Word) : (d.finishDw0 t st w).te = d.te := rfl
@[simp] theorem Die.finishDw0_rc (d : Die) (t : Nat) (st : Status) (w : Word) : (d.finishDw0 t st w).rc = d.rc := rfl
@[simp] theorem Die.finishDw0_se (d : Die) (t : Nat) (st : Status) (w : Word) : (d.finishDw0 t st w).se = d.se := rfl
@[simp] theorem Die.finishDw0_bp (d : Die) (t : Nat) (st : Status) (w : Word) : (d.finishDw0 t st w).bp = d.bp := rfl
@[simp] theorem Die.finishDw0_cl (d : Die) (t : Nat) (st : Status) (w : Word) : (d.finishDw0 t st w).cl = d.cl := rfl
@[simp] theorem Die.finishDw0_units (d : Die) (t : Nat) (st : Status) (w : Word) : (d.finishDw0 t st w).units = d.units := rfl
@[simp] theorem Die.finishDw0_dc (d : Die) (t : Nat) (st : Status) (w : Word) : (d.finishDw0 t st w).dc = d.dc := rfl
@[simp] theorem Die.finishDw0_tp (d : Die) (t : Nat) (st : Status) (w : Word) : (d.finishDw0 t st w).tp = d.tp := rfl
@[simp] theorem Die.finishDw0_mc (d : Die) (t : Nat) (st : Status) (w : Word) : (d.finishDw0 t st w).mc = d.mc := rfl
@[simp] theorem Die.finishDw0_lb (d : Die) (t : Nat) (st : Status) (w : Word) : (d.finishDw0 t st w).lb = d.lb := rfl
@[simp] theorem Die.finishDw0_fw (d : Die) (t : Nat) (st : Status) (w : Word) : (d.finishDw0 t st w).fw = d.fw := rfl
@[simp] theorem Die.finishDw0_aon (d : Die) (t : Nat) (st : Status) (w : Word) : (d.finishDw0 t st w).aon = d.aon := rfl
@[simp] theorem Die.finishDw0_ql (d : Die) (t : Nat) (st : Status) (w : Word) : (d.finishDw0 t st w).ql = d.ql := rfl
@[simp] theorem Die.finishDw0_out (d : Die) (t : Nat) (st : Status) (w : Word) : (d.finishDw0 t st w).out = d.out := rfl
@[simp] theorem Die.finishDw0_free (d : Die) (t : Nat) (st : Status) (w : Word) : (d.finishDw0 t st w).free = d.free := rfl

/-! ## Die.freeTag -/

@[simp] theorem Die.freeTag_life (d : Die) (t : Nat) : (d.freeTag t).life = d.life := by
  unfold Die.freeTag; dsimp only; split <;> rfl
@[simp] theorem Die.freeTag_link (d : Die) (t : Nat) : (d.freeTag t).link = d.link := by
  unfold Die.freeTag; dsimp only; split <;> rfl
@[simp] theorem Die.freeTag_funcs (d : Die) (t : Nat) : (d.freeTag t).funcs = d.funcs := by
  unfold Die.freeTag; dsimp only; split <;> rfl
@[simp] theorem Die.freeTag_tenants (d : Die) (t : Nat) : (d.freeTag t).tenants = d.tenants := by
  unfold Die.freeTag; dsimp only; split <;> rfl
@[simp] theorem Die.freeTag_sch (d : Die) (t : Nat) : (d.freeTag t).sch = d.sch := by
  unfold Die.freeTag; dsimp only; split <;> rfl
@[simp] theorem Die.freeTag_nss (d : Die) (t : Nat) : (d.freeTag t).nss = d.nss := by
  unfold Die.freeTag; dsimp only; split <;> rfl
@[simp] theorem Die.freeTag_te (d : Die) (t : Nat) : (d.freeTag t).te = d.te := by
  unfold Die.freeTag; dsimp only; split <;> rfl
@[simp] theorem Die.freeTag_rc (d : Die) (t : Nat) : (d.freeTag t).rc = d.rc := by
  unfold Die.freeTag; dsimp only; split <;> rfl
@[simp] theorem Die.freeTag_se (d : Die) (t : Nat) : (d.freeTag t).se = d.se := by
  unfold Die.freeTag; dsimp only; split <;> rfl
@[simp] theorem Die.freeTag_bp (d : Die) (t : Nat) : (d.freeTag t).bp = d.bp := by
  unfold Die.freeTag; dsimp only; split <;> rfl
@[simp] theorem Die.freeTag_cl (d : Die) (t : Nat) : (d.freeTag t).cl = d.cl := by
  unfold Die.freeTag; dsimp only; split <;> rfl
@[simp] theorem Die.freeTag_units (d : Die) (t : Nat) : (d.freeTag t).units = d.units := by
  unfold Die.freeTag; dsimp only; split <;> rfl
@[simp] theorem Die.freeTag_dc (d : Die) (t : Nat) : (d.freeTag t).dc = d.dc := by
  unfold Die.freeTag; dsimp only; split <;> rfl
@[simp] theorem Die.freeTag_tp (d : Die) (t : Nat) : (d.freeTag t).tp = d.tp := by
  unfold Die.freeTag; dsimp only; split <;> rfl
@[simp] theorem Die.freeTag_mc (d : Die) (t : Nat) : (d.freeTag t).mc = d.mc := by
  unfold Die.freeTag; dsimp only; split <;> rfl
@[simp] theorem Die.freeTag_lb (d : Die) (t : Nat) : (d.freeTag t).lb = d.lb := by
  unfold Die.freeTag; dsimp only; split <;> rfl
/-- A tag that no activation waits for leaves the update state as it is (R115). -/
theorem Die.freeTag_fw (d : Die) (t : Nat) (h : d.fw.liveTag ≠ some t) : (d.freeTag t).fw = d.fw := by
  unfold Die.freeTag; dsimp only; split
  · exact absurd ‹_› h
  · rfl
@[simp] theorem Die.freeTag_aon (d : Die) (t : Nat) : (d.freeTag t).aon = d.aon := by
  unfold Die.freeTag; dsimp only; split <;> rfl
@[simp] theorem Die.freeTag_ql (d : Die) (t : Nat) : (d.freeTag t).ql = d.ql := by
  unfold Die.freeTag; dsimp only; split <;> rfl
@[simp] theorem Die.freeTag_out (d : Die) (t : Nat) : (d.freeTag t).out = d.out := by
  unfold Die.freeTag; dsimp only; split <;> rfl
@[simp] theorem Die.freeTag_free (d : Die) (t : Nat) : (d.freeTag t).free = d.free := by
  unfold Die.freeTag; dsimp only; split <;> rfl

/-! ## What an updated table reads -/

theorem Die.fn_updFn (d : Die) (n m : Nat) (f : Func → Func) : (d.updFn n f).fn m = if m = n then f (d.fn n) else d.fn m := Tbl.get_upd _ _ _ _ _
theorem Die.tenant_updTenant (d : Die) (n m : Nat) (f : Tenant → Tenant) :
    (d.updTenant n f).tenant m = if m = n then f (d.tenant n) else d.tenant m := Tbl.get_upd _ _ _ _ _
theorem Die.tag_updTag (d : Die) (n m : Nat) (f : Tag → Tag) : (d.updTag n f).tag m = if m = n then f (d.tag n) else d.tag m := Tbl.get_upd _ _ _ _ _
theorem Die.ns_updNs (d : Die) (n m : Nat) (f : Ns → Ns) : (d.updNs n f).ns m = if m = n then f (d.ns n) else d.ns m := Tbl.get_upd _ _ _ _ _
theorem Die.port_updPort (d : Die) (n m : Nat) (f : Port → Port) : (d.updPort n f).port m = if m = n then f (d.port n) else d.port m := Tbl.get_upd _ _ _ _ _
theorem Die.chan_updChan (d : Die) (n m : Nat) (f : Chan → Chan) : (d.updChan n f).chan m = if m = n then f (d.chan n) else d.chan m := Tbl.get_upd _ _ _ _ _
theorem Die.slot_updSlot (d : Die) (n m : Nat) (f : Slot → Slot) : (d.updSlot n f).slot m = if m = n then f (d.slot n) else d.slot m := Tbl.get_upd _ _ _ _ _
theorem Die.ru_updRu (d : Die) (n m : Nat) (f : Ru → Ru) : (d.updRu n f).ru m = if m = n then f (d.ru n) else d.ru m := Tbl.get_upd _ _ _ _ _
theorem Die.group_updGroup (d : Die) (n m : Nat) (f : Group → Group) :
    (d.updGroup n f).group m = if m = n then f (d.group n) else d.group m := Tbl.get_upd _ _ _ _ _
theorem Die.block_updBlock (d : Die) (n m : Nat) (f : Block → Block) :
    (d.updBlock n f).block m = if m = n then f (d.block n) else d.block m := Tbl.get_upd _ _ _ _ _
theorem Die.src_updSrc (d : Die) (n m : Nat) (f : Src → Src) : (d.updSrc n f).src m = if m = n then f (d.src n) else d.src m := Tbl.get_upd _ _ _ _ _
theorem Die.sensor_updSensor (d : Die) (n m : Nat) (f : Sensor → Sensor) :
    (d.updSensor n f).sensor m = if m = n then f (d.sensor n) else d.sensor m := Tbl.get_upd _ _ _ _ _
theorem Die.qpos_updQpos (d : Die) (n m : Nat) (f : Pos → Pos) : (d.updQpos n f).qpos m = if m = n then f (d.qpos n) else d.qpos m := Tbl.get_upd _ _ _ _ _
theorem Die.mbx_updMbx (d : Die) (n m : Nat) (f : Mbx → Mbx) :
    ((d.updMbx n f).fn m).mbx = if m = n then f (d.fn n).mbx else (d.fn m).mbx := by
  rw [Die.updMbx, Die.fn_updFn]; split <;> rfl

end Sys2Proof.Machine
end

