-- ==== Sys2Proof/Laws/Ops.lean ====
section
/-! SUPPORT. What each shared operation can do, said once: the die it gives is the old one but for the parts named. -/

namespace Sys2Proof.Machine

/-- A record changes the logbook alone (R470, R471). -/
theorem Die.record_only_lb (d : Die) (code sev inst : Nat) (p : List Byte) :
    d.record code sev inst p = { d with lb := (d.record code sev inst p).lb } := by
  unfold Die.record; dsimp only; split
  · rfl
  · split <;> rfl

/-- An output is appended, and a TLP wakes the link and the UCIe islands (R18, R45). -/
theorem Die.emit_eq (d : Die) (o : Out) : d.emit o = { d with out := o :: d.out, link := (d.emit o).link, life := (d.emit o).life } := by
  unfold Die.emit; cases o.isTlp <;> rfl

/-- An event posted changes the functions and the tags (R549). -/
theorem Die.post_only (d : Die) (n : Nat) (e : Aen) : d.post n e = { d with funcs := (d.post n e).funcs, qe := (d.post n e).qe } := by
  unfold Die.post; dsimp only; split
  · split <;> rfl
  · rfl

/-- A notice changes the functions and the tags. -/
theorem Die.notice_only (d : Die) (n i p b : Nat) :
    d.notice n i p b = { d with funcs := (d.notice n i p b).funcs, qe := (d.notice n i p b).qe } := by
  unfold Die.notice; split
  · exact Die.post_only _ _ _
  · rfl

/-- A change notice of a namespace changes the functions and the tags. -/
theorem Die.nsChanged_only (d : Die) (n m : Nat) :
    d.nsChanged n m = { d with funcs := (d.nsChanged n m).funcs, qe := (d.nsChanged n m).qe } := by
  unfold Die.nsChanged; rw [Die.notice_only]; rfl

/-- An error in FERR changes the functions, the tags and the stream of free values (R56). -/
theorem Die.ferr_only (d : Die) (n i : Nat) :
    d.ferr n i = { d with funcs := (d.ferr n i).funcs, qe := (d.ferr n i).qe, free := (d.ferr n i).free } := by
  unfold Die.ferr; dsimp only; split
  · rfl
  · rw [Die.post_only]; rfl

/-- A vector's message changes the function, the outputs, the link and the islands (R401, R45). -/
theorem Die.sendVec_only (d : Die) (n v : Nat) :
    d.sendVec n v = { d with funcs := (d.sendVec n v).funcs, out := (d.sendVec n v).out, link := (d.sendVec n v).link, life := (d.sendVec n v).life } := by
  unfold Die.sendVec; dsimp only; split
  · rfl
  · split
    · rfl
    · rw [Die.emit_eq]; rfl

/-- An entry counted changes the function, the outputs, the link and the islands (R401). -/
theorem Die.countVec_only (d : Die) (n v : Nat) (u a : Bool) :
    d.countVec n v u a = { d with
      funcs := (d.countVec n v u a).funcs, out := (d.countVec n v u a).out, link := (d.countVec n v u a).link, life := (d.countVec n v u a).life } := by
  unfold Die.countVec; dsimp only; split
  · split
    · rw [Die.sendVec_only]; rfl
    · rfl
  · rfl

/-- Events on every controller change the functions and the tags, and on a worker what a message to its manager does (R549). -/
theorem Die.vendorEvent_keeps {γ : Type} (g : Die → γ) (h : ∀ (x : Die) n e, g (x.post n e) = g x) (hq : ∀ (x : Die) q m, g (x.quayMgmtSend q m) = g x)
    (d : Die) (i p : Nat) : g (d.vendorEvent i p) = g d := by
  unfold Die.vendorEvent; split
  · exact foldl_same g _ (fun x n => h x n _) _ _
  · exact hq _ _ _

/-- A SMART event likewise (R549). -/
theorem Die.smartEvent_keeps {γ : Type} (g : Die → γ) (h : ∀ (x : Die) n e, g (x.post n e) = g x) (hq : ∀ (x : Die) q m, g (x.quayMgmtSend q m) = g x)
    (d : Die) (i b : Nat) : g (d.smartEvent i b) = g d := by
  unfold Die.smartEvent; split
  · exact foldl_same g _ (fun x n => by split; exact h x n _; rfl) _ _
  · exact hq _ _ _

/-- The tags freed of a function: what a freed tag does not change, stays. -/
theorem Die.freeTagsOf_keeps {γ : Type} (g : Die → γ) (h : ∀ (x : Die) t, g (x.freeTag t) = g x) (d : Die) (n : Nat) :
    g (d.freeTagsOf n) = g d := foldl_same g _ h _ _

end Sys2Proof.Machine
end

