-- ==== Sys2Proof/Laws/Run.lean ====
section
/-! SUPPORT. What a command and a step can answer. -/

namespace Sys2Proof.Machine

@[simp] theorem State.run_awake (s : State) (f : Die → Die) (h : s.die.awake = true) : s.run f = .next { s with die := f s.die } := by
  simp [State.run, h]

@[simp] theorem State.run_asleep (s : State) (f : Die → Die) (h : s.die.awake = false) : s.run f = .next s := by simp [State.run, h]

/-- A command's effect is a next state whose queue is as it was, and whose die is the old one or the effect's. -/
theorem State.run_cases {s t : State} {f : Die → Die} (h : s.run f = .next t) :
    t.pending = s.pending ∧ ((s.die.awake = true ∧ t.die = f s.die) ∨ (s.die.awake = false ∧ t.die = s.die)) := by
  unfold State.run at h
  injection h with h
  subst h
  cases ha : s.die.awake <;> simp

/-- A power, reset or pin event's effect. -/
theorem State.always_cases {s t : State} {f : Die → Die} (h : s.always f = .next t) : t.pending = s.pending ∧ t.die = f s.die := by
  injection h with h
  subst h
  exact ⟨rfl, rfl⟩

/-- What an effect keeps, its command keeps. -/
theorem State.run_keeps (P : Die → Prop) {s t : State} {f : Die → Die} (hf : P s.die → P (f s.die)) (h : s.run f = .next t) (hs : P s.die) : P t.die := by
  obtain ⟨_, ⟨_, e⟩ | ⟨_, e⟩⟩ := State.run_cases h <;> rw [e]
  · exact hf hs
  · exact hs

theorem State.always_keeps (P : Die → Prop) {s t : State} {f : Die → Die} (hf : P s.die → P (f s.die)) (h : s.always f = .next t) (hs : P s.die) : P t.die := by
  rw [(State.always_cases h).2]; exact hf hs

/-- A step is the front command on the queue's rest, or the tick. -/
theorem step_cases {s t : State} (h : step s = .next t) :
    (s.pending = [] ∧ t = s.tick) ∨ ∃ c r, s.pending = c :: r ∧ exec c { s with pending := r } = .next t := by
  unfold step at h
  cases hp : s.pending with
  | nil => rw [hp] at h; injection h with h; exact .inl ⟨rfl, h.symm⟩
  | cons c r => rw [hp] at h; exact .inr ⟨c, r, rfl, h⟩

end Sys2Proof.Machine
end

