-- ==== Sys2Proof/Laws/Wire.lean ====
section
/-! SUPPORT. What the operations of a berth lane can do (R190 to R211), said once: they change the port they name and the outputs. -/

namespace Sys2Proof.Machine

/-- From d to e nothing changes but port p and the outputs. -/
def Die.OnPort (p : Nat) (d e : Die) : Prop := { e with bp := d.bp, out := d.out } = d ∧ ∀ n, n ≠ p → e.port n = d.port n

theorem Die.OnPort.rfl' (p : Nat) (d : Die) : d.OnPort p d := ⟨rfl, fun _ _ => rfl⟩

theorem Die.OnPort.trans {p : Nat} {d e f : Die} (h : d.OnPort p e) (k : e.OnPort p f) : d.OnPort p f := by
  refine ⟨?_, fun n hn => (k.2 n hn).trans (h.2 n hn)⟩
  have a := h.1
  have b := k.1
  rw [← b] at a
  exact a

theorem Die.onPort_updPort (d : Die) (p : Nat) (f : Port → Port) : d.OnPort p (d.updPort p f) :=
  ⟨rfl, fun n hn => (Die.port_updPort d p n f).trans (if_neg hn)⟩

/-- What the lane carries. -/
theorem Die.onPort_emit (d : Die) (p : Nat) {o : Out} (h : o.isTlp = false) : d.OnPort p (d.emit o) := by
  unfold Die.emit
  rw [h]
  exact ⟨rfl, fun _ _ => rfl⟩

theorem Die.onPort_sendSet (d : Die) (p : Nat) (k : OrderedSet) : d.OnPort p (d.sendSet p k) := d.onPort_emit p rfl

theorem Die.onPort_sendIdle (d : Die) (p : Nat) : d.OnPort p (d.sendIdle p) := by
  unfold Die.sendIdle; split
  · exact .rfl' p d
  · exact (d.onPort_updPort p _).trans (Die.onPort_emit _ p rfl)

theorem Die.onPort_skpDue (d : Die) (p : Nat) : d.OnPort p (d.skpDue p) := by
  unfold Die.skpDue; split
  · exact (d.onPort_updPort p _).trans (Die.onPort_sendSet _ p _)
  · exact .rfl' p d

/-- A flit sent, after the SKP that is due (R192, R198). -/
theorem Die.onPort_sendFlit (d : Die) (p : Nat) (flit : List Byte) : d.OnPort p (d.sendFlit p flit) :=
  (d.onPort_skpDue p).trans ((Die.onPort_updPort _ p _).trans (Die.onPort_emit _ p rfl))

theorem Die.onPort_wakeLane (d : Die) (p : Nat) : d.OnPort p (d.wakeLane p) := by
  unfold Die.wakeLane; dsimp only; split
  · exact ((d.onPort_updPort p _).trans (Die.onPort_sendSet _ p _)).trans (Die.onPort_sendSet _ p _)
  · exact (d.onPort_updPort p _).trans (Die.onPort_sendSet _ p _)

/-- A lane woken for what the port has to send (R207). -/
theorem Die.onPort_roused (d : Die) (p : Nat) : d.OnPort p (d.roused p) := by
  unfold Die.roused; split
  · exact d.onPort_wakeLane p
  · exact .rfl' p d

/-- An LMGT request (R209, R210). -/
theorem Die.onPort_sendLmgt (d : Die) (p code arg : Nat) : d.OnPort p (d.sendLmgt p code arg) := by
  unfold Die.sendLmgt; dsimp only; split
  · exact ((d.onPort_roused p).trans (Die.onPort_updPort _ p _)).trans (Die.onPort_sendFlit _ p _)
  · exact (d.onPort_roused p).trans (Die.onPort_updPort _ p _)

/-- A flit with the next SEQ (R203). -/
theorem Die.onPort_sendSeq (d : Die) (p : Nat) (w : TxWhat) : d.OnPort p (d.sendSeq p w) :=
  (d.onPort_updPort p _).trans (Die.onPort_sendFlit _ p _)

theorem Die.onPort_sendCmd (d : Die) (p : Nat) (o : DieOp) : d.OnPort p (d.sendCmd p o) :=
  (d.onPort_updPort p _).trans (Die.onPort_sendSeq _ p _)

/-- What waits on a port sent as far as credits and window allow (R203, R205, R214). -/
theorem Die.onPort_pumpN (p n : Nat) : ∀ d : Die, d.OnPort p (d.pumpN p n) := by
  induction n with
  | zero => exact fun d => .rfl' p d
  | succ n ih =>
    intro d
    unfold Die.pumpN; dsimp only
    split
    · exact .rfl' p d
    · split
      · split
        · exact ((d.onPort_updPort p _).trans (Die.onPort_sendCmd _ p _)).trans (ih _)
        · split
          · split
            · exact ((d.onPort_updPort p _).trans (Die.onPort_sendSeq _ p _)).trans (ih _)
            · exact .rfl' p d
          · exact .rfl' p d
      · split
        · exact ((d.onPort_updPort p _).trans (Die.onPort_sendSeq _ p _)).trans (ih _)
        · exact .rfl' p d
      · exact .rfl' p d

theorem Die.onPort_pump (d : Die) (p : Nat) : d.OnPort p (d.pump p) := Die.onPort_pumpN p 64 d

/-- An operation issued (R211, R213). -/
theorem Die.onPort_issueOp (d : Die) (o : DieOp) : d.OnPort o.port (d.issueOp o) :=
  ((d.onPort_roused o.port).trans (Die.onPort_updPort _ _ _)).trans (Die.onPort_pump _ _)

/-- A NAK, once (R203). -/
theorem Die.onPort_sendNakOnce (d : Die) (p : Nat) : d.OnPort p (d.sendNakOnce p) := by
  unfold Die.sendNakOnce; split
  · exact .rfl' p d
  · exact (d.onPort_updPort p _).trans (Die.onPort_sendFlit _ p _)

end Sys2Proof.Machine
end

