-- ==== Sys2Proof/Machine/PciConfig.lean ====
section
/-! DEFINITION. What a function's configuration space reports (R4, R46 to R48, R51, R55, R551): identity, BARs, the capabilities of
R47 and no others. The spec gives the values and not their offsets, so they are kept by name (log entry 145). -/

namespace Sys2Proof.Machine

/-- A base address register: its width, whether it is prefetchable, its size in bytes. -/
structure Bar where
  wide : Bool
  prefetchable : Bool
  size : Nat
deriving DecidableEq, Repr

/-- A capability of R47 with its settings. -/
inductive PciCap where
  | powerManagement (states : List Nat) (noSoftReset : Bool)
  | pciExpress (flr : Bool) (maxPayload tagBits : Nat) (timeoutRanges : List Char) (timeoutUs : Nat) (relaxed : Bool)
  | msix (tableSize tableBar tableOff pbaBar pbaOff : Nat) (enable functionMask : Bool)
  | aer (errors : Aer)
  | serialNumber (dsn : BitVec 64)
  | ari
  | sriov (totalVfs initialVfs firstOffset stride : Nat) (pageSizes : List Nat) (vfDevice : Nat) (vfBars : List (Nat × Bar))
      (vfEnable : Bool) (numVfs : Nat)
  | dataLinkFeature (flitMode : Bool)
deriving DecidableEq, Repr

/-- The capability's ID (R47). -/
def PciCap.id : PciCap → Nat
  | .powerManagement .. => 0x01
  | .pciExpress .. => 0x10
  | .msix .. => 0x11
  | .aer .. => 0x0001
  | .serialNumber .. => 0x0003
  | .ari => 0x000E
  | .sriov .. => 0x0010
  | .dataLinkFeature .. => 0x0025

/-- A function's configuration space (R46, R47): capabilities in the order of R47's table. -/
structure PciConfig where
  vendor : Nat
  device : Nat
  revision : Nat
  classCode : Nat
  interruptPin : Nat
  bars : List (Nat × Bar)
  caps : List PciCap
deriving DecidableEq, Repr

/-- Vendor ID of PF and VF (R46). -/
def pciVendor : Nat := 0x1D9A
/-- PCIe Revision ID of both deliveries (R4, R46). -/
def pciRevision : Nat := 0xB0
/-- BARs of a function: BAR0/1 and BAR2/3; BAR4/5 is not implemented (R46). -/
def pciBars (pf : Bool) : List (Nat × Bar) :=
  [(0, { wide := true, prefetchable := false, size := if pf then 16 * 2 ^ 20 else 2 ^ 20 }),
   (2, { wide := true, prefetchable := false, size := 64 * 2 ^ 10 })]

/-- The SR-IOV capability of the PF (R48). -/
def Link.sriovCap (l : Link) : PciCap :=
  .sriov 2047 2047 1 1 [4096, 65536] 0xD025 (pciBars false) l.vfEnable l.numVfs

/-- What a configuration read of a function answers, by name. MSI-X Table Size is the vector allocation minus one (R51). -/
def Die.pciConfig (d : Die) (n : Nat) : PciConfig :=
  let f := d.fn n
  let pf := n == 0
  { vendor := pciVendor, device := if pf then 0xD024 else 0xD025, revision := pciRevision, classCode := 0x010802, interruptPin := 0,
    bars := pciBars pf,
    caps := (if pf then [.powerManagement [0, 3] false] else [])
      ++ [.pciExpress true 512 14 ['A', 'B', 'C'] 50000 f.relaxed, .msix ((d.tenant n).vectors - 1) 2 0x0000 2 0x8000 f.msixEn f.funcMask, .aer f.aer]
      ++ (if pf then [.serialNumber Config.dsn] else []) ++ [.ari]
      ++ (if pf then [d.link.sriovCap, .dataLinkFeature true] else []) }

end Sys2Proof.Machine
end

