-- ==== Sys2Proof/Tests/Slice0.lean ====
section
/-! SUPPORT. Tests: the checks of WellFormed refuse ill-formed terms, and for every clause of every statement a concrete state and
operands that meet its hypotheses, with what exec does there. -/

namespace Sys2Proof.Tests

set_option Elab.async false
set_option linter.unusedVariables false

open Sys2Proof.Machine

/-! ## Helpers -/

/-- What holds of the die that a step goes on with. -/
def holdsAfter (o : Host.Outcome State Fault Refusal) (p : Die → Bool) : Bool :=
  match o with
  | .next t => p t.die && t.pending.isEmpty
  | _ => false

/-- A request on the PF mailbox with a payload. -/
def ask (payload : List Byte) : KReq :=
  { fn := 0, dbSeq := 7, seq := 7, len := payload.length, tfunc := 0xFFFF, tdie := 0, rsv11 := 0, rsv20 := 0, roffset := 0, dlen := 0, dptr := 0,
    payload := payload }

/-- A request of the owner for another function's tenant. -/
def askFor (n : Nat) (payload : List Byte) : KReq := { ask payload with tfunc := n }

/-- The die after reset. -/
def die : Die := State.reset.die

/-- A state with no command waiting. -/
def at' (d : Die) : State := { die := d }

/-- A conventional namespace of 1,000 sectors attached to the PF, and a zoned one. -/
def nsConv : Ns := { alive := true, nsze := 1000, attached := [0] }
def nsZoned : Ns := { alive := true, kind := .zoned, nsze := 2 ^ 30, attached := [0] }

/-- A passport in order: 16 dies of 4 planes and 3 bits, 1,000 blocks; reads of 50 to 100 us, programs of 1,000 to 2,000 us, erases of 5 to 10
ms, QDEPTH 16, offset sets to 3, command byte 0x90 allowed to the tunnel. -/
def pass0 : Passport :=
  { raw := [0x42, 0x50, 0x53, 0x54] ++ le 2 1 ++ le 2 512 ++ le 1 3 ++ le 1 3 ++ le 2 0 ++ padTo 48 [] ++ le 4 0 ++ le 1 16 ++ le 1 4 ++ le 1 3 ++ le 1 0
      ++ le 2 16384 ++ le 2 2048 ++ le 2 1000 ++ le 2 1000 ++ le 2 3000 ++ le 2 8 ++ le 4 1 ++ le 4 30 ++ le 2 50 ++ le 2 100 ++ le 2 1000 ++ le 2 2000
      ++ le 2 500 ++ le 2 1000 ++ le 2 20 ++ le 1 4 ++ le 1 16 ++ le 4 10 ++ le 4 80 ++ padTo 16 [] ++ padTo 11 [] ++ le 1 4 ++ padTo 116 []
      ++ padTo 252 [0x90] ++ le 4 1659232433 }

/-- A submission entry with an opcode, a namespace and command dwords 10 to 13. -/
def sqe (opc ns c10 c11 c12 c13 : Nat) : SqEntry :=
  { dw0 := BitVec.ofNat 32 opc, nsid := BitVec.ofNat 32 ns, dw2 := 0, vhd := 0, mptr := 0, dptr := 0, cdw10 := BitVec.ofNat 32 c10,
    cdw11 := BitVec.ofNat 32 c11, cdw12 := BitVec.ofNat 32 c12, cdw13 := BitVec.ofNat 32 c13, cdw14 := 0, cdw15 := 0 }

/-- A tag that holds an admin command, and one that holds an admitted I/O command. -/
def adminT (e : SqEntry) : Tag := { st := .bound, entry := some e }
def ioT (e : SqEntry) : Tag := { st := .admitted, sq := 1, entry := some e }

/-- A die with one command under tag 9. -/
def under (d : Die) (x : Tag) : Die := { d with qe := { d.qe with tags := [(9, x)] } }

/-- A group of twelve good berths with room, and none. -/
def grp : Group := { formed := true, userCap := 2 ^ 44 }

/-- A die with room for namespaces, and one to be created. -/
def dieRoom : Die := { die with rc := { die.rc with groups := [(0, grp)] }, tenants := [(0, { Tenant.owner with quota := 2 ^ 44, quotaSet := true })] }
def nsNew : NsCreate := { csi := 0, flbas := 0, nsze := 65536, ncap := 65536, params := padTo 64 [], phndls := [] }

/-- A module training of the host link that succeeds, a dock-down that has all its energy, a start that meets nothing. -/
def ucie0 : UcieEnv := { rates := List.replicate 8 (some 5), repaired := [], degraded := [], hostMask := 0xFF }
def dock0 : DockEnv := { steps := 7, ends := [1, 2, 3, 4, 5, 6, 7], rescueBytes := 0 }
def boot0 : BootEnv :=
  { failedUnits := [], essentialFail := none, bootStoreOk := true, slotAOk := true, slotBOk := true, chans := [], berths := [], avs := true,
    temps := List.replicate 64 (some 300),
    reachesReady := true, ucie := ucie0 }

/-- A die whose PF has the registers given. -/
def pf (f : Func) : Die := { die with funcs := [(0, f)] }

/-- An image header in order of two blocks and one part, the firmware with that image complete, verified, or on trial in slot B, and what a
verification finds good. -/
def img : List Byte :=
  padTo 256 (le 4 0x41465653 ++ le 2 1 ++ le 2 256 ++ le 4 2 ++ le 4 1000 ++ le 2 0xB0 ++ le 1 3 ++ le 1 1 ++ le 4 7 ++ le 4 0 ++ le 4 1 ++ le 4 0
    ++ le 2 1 ++ le 2 1 ++ le 4 900 ++ le 2 1 ++ le 2 0 ++ le 4 800)
def part0 : Part := { type := 1, pflags := 1, offset := 256, length := 64, ver := 9, digest := 0 }
def fwB (st : FwSt) : Fw := { a := { st := .running, hdr := some img, parts := [part0] }, b := { st := st, hdr := some img, blocks := [0, 1], parts := [part0] } }
def good : VerifyFacts :=
  { badBlocks := [], manifest := padTo 64 (le 1 1 ++ le 1 1 ++ le 2 0 ++ le 4 256 ++ le 4 64 ++ le 4 9), digests := [0], signer := Config.signKey 0, sigOk := true }
def charged : Die := { die with aon := { die.aon with verdict := .healthy } }

/-- A berth port that is online, with its link up, and a die with it as port 1023. -/
def port0 : Port := { st := .online, lpwr := .l0, crShort := 4, crLong := 4, passport := some pass0 }
def berth (x : Port) : Die := { die with bp := { die.bp with ports := [(1023, x)] } }
/-- A TS1 of port 1023 with nonce 0, both rates, settled equalisation and NEXT_RX 4, with its CHK. -/
def ts0 : Ts :=
  let b : List Byte := 0x1E :: le 1 0x83 ++ le 2 1023 ++ le 4 0 ++ le 1 0x44 ++ le 1 3 ++ le 1 4 ++ le 1 1 ++ [0, 0, 0]
  { bytes := b ++ [xorBytes b] }
def hdr0 : FlitHdr := { ft := 0, long := false, ackv := false, nak := false, seq := 0, ack := 0, crs := 15, crl := 15 }
def rsp0 : Rsp := { hdr := hdr0, otag := 3, op := opSuspend, die := 0, status := 0, nsr := 0, tbusy := 0, detail := 0 }

/-- A die with three berths online. -/
def threeUp : Die := { die with bp := { die.bp with ports := [(1, port0), (2, port0), (3, port0)] } }

/-- A sector's job under tag 9 that waits for one more code word. -/
def job0 : Job :=
  { tag := 9, gen := 0, ns := 1, sect := 0, loc := {}, idx := 0, lr := false, stage := .wait, step := 0, left := 1, trig := 1, sec := {} }

/-- A die that takes writes: a healthy verdict, one group with an open RU of eight blocks, a key, a conventional and a zoned namespace. -/
def dieOpen : Die :=
  { die with
    nss := [(1, nsConv), (2, nsZoned)], aon := { die.aon with verdict := .healthy, limit := 16 }
    cl := { die.cl with slots := [(0, { st := .write, durable := 1 })] }
    bp := { die.bp with ports := (List.range 8).map (fun p => (p, { port0 with member := true })) }
    rc := { die.rc with
      groups := [(0, { grp with k := 6, geometry := some 1000, openRu := [(0, some 5)] })]
      rus := [(5, { st := .opened, k := 6, members := (List.range 8).map (fun p => { port := p, die := 0, block := 9 }) })] } }
/-- A zoned namespace whose first zone is in a state. -/
def zoneIn (st : ZState) : Ns := { nsZoned with zones := [(0, { st := st, wp := 16, wpNext := 16, group := some 0 })] }

/-- A die with DRAM channel 11. -/
def chan (x : Chan) : Die := { die with dc := { die.dc with chans := [(11, x)] } }
/-- A record of the logbook. -/
def rec0 : LogRec :=
  { seq := 1, opsec := 0, rep := 1, pcycle := 0, sev := 0, res := false, restored := false, anagrp := 1, code := 0x0C0C, inst := 0xFFFF, last := 0, payload := padTo 28 [] }

/-- A die that runs as worker 15, and the identity of the die at that position. -/
def worker : Die := { die with life := { die.life with manager := false, quayId := 15 } }
def ident : QuayIdent := { worker := true, quayId := 15, dsn := 77, stepping := 0xB0, fwVer := 1, sysid := 1, sysidOk := true, certOk := true }

theorem witness_KanexReadsAnswer :
  let s : State := State.reset
  let q : KReq := ask []
  let p : Nat × Bool × (KReq → Instr) := (0x0101, false, .identify)
  (s.die.takes q p.1 p.2.1 0 [] = true) ∧
  (holdsAfter (exec (p.2.2 q) s) (fun t => decide (t.answered q.fn kOk ∧ t.sameButAnswer s.die)) = true) := by decide +kernel

theorem witness_OwnerSettingsTake_1 :
  let s : State := State.reset
  let q : KReq := ask (le 4 7)
  (s.die.takes q 0x0104 false 4 [(0, 4)] = true) ∧
  (q.get 0 4 < 8) ∧
  (holdsAfter (exec (.policySet q) s) (fun t => decide (t.applied s.die q.fn ∧ t.mc.policy = BitVec.ofNat 32 (q.get 0 4) ∧ t.mc.policyForce = s.die.mc.policyForce ||| BitVec.ofNat 32 (q.get 0 4))) = true) := by decide +kernel

theorem witness_OwnerSettingsTake_2 :
  let s : State := State.reset
  let q : KReq := ask (le 1 3)
  (s.die.takes q 0x0502 false 1 [(0, 1)] = true) ∧
  (q.get 0 1 ≤ 3) ∧
  (holdsAfter (exec (.profileSet q) s) (fun t => decide (t.answered q.fn kOk ∧ t.sch = { s.die.sch with profileNext := q.get 0 1 })) = true) := by decide +kernel

theorem witness_OwnerSettingsTake_3 :
  let s : State := State.reset
  let q : KReq := ask (le 2 190)
  (s.die.takes q 0x0503 false 2 [(0, 2)] = true) ∧
  (60 ≤ q.get 0 2) ∧
  (q.get 0 2 ≤ 190) ∧
  (holdsAfter (exec (.powerCapSet q) s) (fun t => decide (t.answered q.fn kOk ∧ t.sch = { s.die.sch with leanCap := q.get 0 2 })) = true) := by decide +kernel

theorem witness_OwnerSettingsTake_4 :
  let s : State := State.reset
  let q : KReq := ask (le 2 90)
  (s.die.takes q 0x0705 false 2 [(0, 2)] = true) ∧
  (1 ≤ q.get 0 2) ∧
  (q.get 0 2 ≤ 90) ∧
  (holdsAfter (exec (.patrolSet q) s) (fun t => decide (t.answered q.fn kOk ∧ t.rc = { s.die.rc with patrolDays := q.get 0 2 })) = true) := by decide +kernel

theorem witness_OwnerSettingsTake_5 :
  let s : State := State.reset
  let q : KReq := ask (le 1 100)
  (s.die.takes q 0x0708 false 1 [(0, 1)] = true) ∧
  (q.get 0 1 ≤ 100) ∧
  (holdsAfter (exec (.spareThreshSet q) s) (fun t => decide (t.answered q.fn kOk ∧ t.rc.spareThresh = q.get 0 1)) = true) := by decide +kernel

theorem witness_OwnerSettingsTake_6 :
  let s : State := State.reset
  let q : KReq := ask (le 2 1023 ++ le 1 1)
  (s.die.takes q 0x0707 false 3 [(0, 3)] = true) ∧
  (q.get 0 2 < Config.functions) ∧
  (q.get 2 1 ≤ 1) ∧
  (holdsAfter (exec (.poisonFwdSet q) s) (fun t => decide (t.answered q.fn kOk ∧ (t.fn (q.get 0 2)).poisonFwd = (q.get 2 1 == 1))) = true) := by decide +kernel

theorem witness_OwnerSettingsTake_7 :
  let s : State := State.reset
  let q : KReq := ask (le 2 600)
  (s.die.takes q 0x0B0A false 2 [(0, 2)] = true) ∧
  (q.get 0 2 ≤ 600) ∧
  (holdsAfter (exec (.rejoinWindowSet q) s) (fun t => decide (t.answered q.fn kOk ∧ t.se = { s.die.se with rejoin := q.get 0 2 })) = true) := by decide +kernel

theorem witness_OwnerSettingsTake_8 :
  let s : State := State.reset
  let q : KReq := ask [20, 19, 19, 19, 19]
  (s.die.takes q 0x0C06 false 5 [(0, 5)] = true) ∧
  (splitBad q = none) ∧
  (holdsAfter (exec (.traySplitSet q) s) (fun t => decide (t.answered q.fn kOk ∧ t.tp = { s.die.tp with splitNext := (List.range 5).map (fun i => q.get i 1) })) = true) := by decide +kernel

theorem witness_OwnerServiceTakes_1 :
  let s : State := State.reset
  let q : KReq := ask (le 8 0 ++ le 1 7 ++ le 1 2)
  (s.die.takes q 0x0601 false 10 [(0, 10)] = true) ∧
  (q.get 8 1 ≤ 7) ∧
  (q.get 9 1 ≤ 2) ∧
  (holdsAfter (exec (.logRead q) s) (fun t => decide (t.answered q.fn kOk ∧ t.sameButAnswer s.die)) = true) := by decide +kernel

theorem witness_OwnerServiceTakes_2 :
  let s : State := State.reset
  let q : KReq := ask (le 8 0 ++ padTo 20 [])
  (s.die.takes q 0x0603 false 28 [(0, 28)] = true) ∧
  (holdsAfter (exec (.logMark q) s) (fun t => decide (t.lb = ((s.die.accepted q 0x0603).record 0x0C0C sevInfo noInst (padTo 28 q.body)).lb ∧ t.answeredWith q.fn kOk (le 8 t.lb.newest))) = true) := by decide +kernel

theorem witness_OwnerServiceTakes_3 :
  let s : State := at' (die.updPort 1023 (fun x => { x with st := .online, passport := some pass0 }))
  let q : KReq := ask (le 2 1023)
  let x := pass0
  (s.die.takes q 0x0B08 false 2 [(0, 2)] = true) ∧
  (q.get 0 2 < Config.ports) ∧
  ((s.die.port (q.get 0 2)).st ≠ .absent) ∧
  ((s.die.port (q.get 0 2)).passport = some x) ∧
  (holdsAfter (exec (.berthPassport q) s) (fun t => decide (t.answeredWith q.fn kOk (padTo 512 x.raw) ∧ t.sameButAnswer s.die)) = true) := by decide +kernel

theorem witness_OwnerServiceTakes_4 :
  let s : State := State.reset
  let q : KReq := ask (le 2 512 ++ padTo 22 [])
  (s.die.takes q 0x0701 false 24 [(0, 2), (4, 20)] = true) ∧
  (s.die.scrubBad q = none) ∧
  (s.die.scrubTarget q = none) ∧
  (s.die.se.scrub.st ≠ 1) ∧
  ((q.get 0 1 = 4 → (s.die.ns (q.get 4 4)).isZoned = true)) ∧
  (holdsAfter (exec (.scrubStart q) s) (fun t => decide (t.answeredWith q.fn kOk (le 8 (s.die.se.scrub.id + 1)) ∧ t.se.scrub.st = 1 ∧ t.se.scrub.id = s.die.se.scrub.id + 1 ∧ t.se.scrub.scope = q.get 0 1 ∧ t.se.scrub.mode = q.get 1 1)) = true) := by decide +kernel

theorem witness_OwnerServiceTakes_5 :
  let s : State := at' { die with se := { die.se with scrub := { st := 1 } } }
  let q : KReq := ask []
  (s.die.takes q 0x0703 false 0 [] = true) ∧
  (s.die.se.scrub.st = 1) ∧
  (holdsAfter (exec (.scrubAbandon q) s) (fun t => decide (t.answered q.fn kOk ∧ t.se.scrub.st = 2 ∧ t.se.scrub.result = 1 ∧ t.se.scrubDone = t.se.scrub)) = true) := by decide +kernel

theorem witness_OwnerServiceTakes_6 :
  let s : State := State.reset
  let q : KReq := ask (padTo 5 [])
  (s.die.takes q 0x0504 false 5 [(0, 5)] = true) ∧
  (histBad q = none) ∧
  (q.fn = 0 ∨ q.get 0 2 = 0xFFFF ∨ q.get 0 2 = q.fn) ∧
  (holdsAfter (exec (.histogramRead q) s) (fun t => decide (t.answered q.fn kOk ∧ (q.get 4 1 = 0 → t.sameButAnswer s.die))) = true) := by decide +kernel

theorem witness_OwnerServiceTakes_7 :
  let s : State := at' { die with nss := [(1, nsConv)] }
  let q : KReq := ask (le 4 1 ++ le 4 0 ++ le 8 999)
  (s.die.takes q 0x070A false 16 [(0, 4), (8, 8)] = true) ∧
  ((s.die.ns (q.get 0 4)).alive = true) ∧
  (q.get 8 8 < (s.die.ns (q.get 0 4)).nsze) ∧
  ((s.die.ns (q.get 0 4)).home = s.die.anaGroup) ∧
  (holdsAfter (exec (.mapProbe q) s) (fun t => decide (t.answered q.fn kOk ∧ t.sameButAnswer s.die)) = true) := by decide +kernel

theorem witness_OwnerServiceTakes_8 :
  let s : State := at' { die with dc := { die.dc with chans := [(0, { st := .active, cap0 := 64, cap1 := 64 })] } }
  let q : KReq := ask (le 1 7 ++ le 1 62 ++ le 2 300)
  (s.die.takes q 0x0706 false 4 [(0, 4)] = true) ∧
  (s.die.rowWidthBad q = none) ∧
  ((let e := (groupsNamed (q.get 0 1)).foldl (fun (x : Die) g => x.widen (q.get 1 1) (q.get 2 2) g) s.die; dramNeed e.needUser e.rawBytes e.dc.proofGib ≤ e.fittedDram ∧ (groupsNamed (q.get 0 1)).all (fun g => !(e.group g).formed || decide (e.groupAlloc g ≤ (e.group g).userCap)) = true)) ∧
  (holdsAfter (exec (.rowWidthSet q) s) (fun t => decide (t.answered q.fn kOk ∧ (groupsNamed (q.get 0 1)).all (fun g => (t.group g).k == orOld (q.get 1 1) (s.die.group g).k && (t.group g).spare == orOld (q.get 2 2) (s.die.group g).spare) = true)) = true) := by decide +kernel

theorem witness_TenantRecordsChange_1 :
  let s : State := State.reset
  let q : KReq := askFor 2047 []
  let n := kTenant q
  let base : Tenant := { qpairs := (s.die.tenant n).qpairs, vectors := (s.die.tenant n).vectors }
  let new := if q.len = 0 then base else base.withRecord q 0 0xFFFFFFFF n
  (s.die.takes q 0x0201 false 0 (recordUsed 0) = true) ∧
  ((q.len ≠ 0 → 64 ≤ q.len ∧ recordBad q 0 0xFFFFFFFF = none)) ∧
  (n < Config.functions) ∧
  ((s.die.tenant n).alive = false) ∧
  (s.die.recordRefused n (s.die.tenant n) new = none) ∧
  (s.die.epochLeft (2 * n) = true) ∧
  (holdsAfter (exec (.tenantCreate q) s) (fun t => decide (t.answered q.fn kOk ∧ (t.tenant n).alive = true ∧ (t.tenant n).share = new.share ∧ (t.slot (2 * n)).st = .write ∧ (t.slot (2 * n)).epoch = (s.die.slot (2 * n)).epoch + 1)) = true) := by decide +kernel

theorem witness_TenantRecordsChange_2 :
  let s : State := at' { die with tenants := [(0, Tenant.owner), (5, Tenant.owner)] }
  let q : KReq := askFor 5 (le 4 4 ++ le 4 0 ++ le 2 4095 ++ padTo 58 [])
  (s.die.takes q 0x0203 true 68 ((0, 4) :: recordUsed 4) = true) ∧
  (recordBad q 4 (q.get 0 4) = none) ∧
  (s.die.recordRefused (kTenant q) (s.die.tenant (kTenant q)) ((s.die.tenant (kTenant q)).withRecord q 4 (q.get 0 4) (kTenant q)) = none) ∧
  (holdsAfter (exec (.tenantSet q) s) (fun t => decide (t.answered q.fn kOk ∧ t.tenant (kTenant q) = (s.die.tenant (kTenant q)).withRecord q 4 (q.get 0 4) (kTenant q) ∧ (selects (q.get 0 4) 2 = true → (t.tenant (kTenant q)).share = q.get 8 2))) = true) := by decide +kernel

theorem witness_TenantRecordsChange_3 :
  let s : State := at' { die with nss := [(1, nsConv)], tenants := [(0, Tenant.owner), (5, Tenant.owner)] }
  let q : KReq := ask (le 4 1 ++ le 2 5)
  (s.die.takes q 0x0206 false 6 [(0, 6)] = true) ∧
  (s.die.shareNames q = true) ∧
  ((s.die.ns (q.get 0 4)).attached.contains (q.get 4 2) = false) ∧
  (holdsAfter (exec (.nsShare q) s) (fun t => decide (t.answered q.fn kOk ∧ (t.ns (q.get 0 4)).attached.contains (q.get 4 2) = true)) = true) := by decide +kernel

theorem witness_TenantRecordsChange_4 :
  let s : State := at' { die with nss := [(1, { nsConv with attached := [0, 5] })], tenants := [(0, Tenant.owner), (5, Tenant.owner)] }
  let q : KReq := ask (le 4 1 ++ le 2 5)
  (s.die.takes q 0x0207 false 6 [(0, 6)] = true) ∧
  (s.die.shareNames q = true) ∧
  ((s.die.ns (q.get 0 4)).attached.contains (q.get 4 2) = true) ∧
  (s.die.nsInFlight (q.get 0 4) (some (q.get 4 2)) = false) ∧
  (holdsAfter (exec (.nsUnshare q) s) (fun t => decide (t.answered q.fn kOk ∧ (t.ns (q.get 0 4)).attached.contains (q.get 4 2) = false)) = true) := by decide +kernel

theorem witness_TenantRecordsChange_5 :
  let s : State := at' { die with tenants := [(0, Tenant.owner), (5, Tenant.owner)], funcs := [(5, { st := .ready })] }
  let q : KReq := askFor 5 []
  (s.die.takes q 0x0208 true 0 [] = true) ∧
  (kTenant q ≠ q.fn) ∧
  ((s.die.fn (kTenant q)).st = .ready) ∧
  (holdsAfter (exec (.funcFence q) s) (fun t => decide ((t.fn (kTenant q)).st = .fenced ∧ (t.fn (kTenant q)).cfs = true)) = true) := by decide +kernel

theorem witness_TenantRecordsChange_6 :
  let s : State := at' { die with tenants := [(0, Tenant.owner), (5, Tenant.owner)] }
  let q : KReq := askFor 5 []
  (s.die.takes q 0x0202 true 0 [] = true) ∧
  (kTenant q ≠ 0) ∧
  (kTenant q ≠ q.fn) ∧
  ((s.die.fn (kTenant q)).st = .off) ∧
  ((s.die.fn (kTenant q)).mbx.st ≠ .running) ∧
  (s.die.nsOfTenant (kTenant q) = []) ∧
  (holdsAfter (exec (.tenantDelete q) s) (fun t => decide (t.answered q.fn kOk ∧ (t.tenant (kTenant q)).alive = false ∧ (t.slot (2 * kTenant q)).st = .empty ∧ (t.slot (2 * kTenant q + 1)).st = .empty)) = true) := by decide +kernel

theorem witness_KeySlotsMove_1 :
  let s : State := State.reset
  let q : KReq := ask (le 1 1)
  let n := kTenant q
  let k := keySlot q
  (s.die.takes q 0x0402 true 1 [(0, 1)] = true) ∧
  (q.get 0 1 < 2) ∧
  ((s.die.slot k).st = .empty) ∧
  (s.die.slotIn n .locked = none) ∧
  (s.die.epochLeft k = true) ∧
  (holdsAfter (exec (.keyGenerate q) s) (fun t => decide (t.applied s.die q.fn ∧ (t.slot k).st = s.die.loadState n ∧ (t.slot k).epoch = (s.die.slot k).epoch + 1 ∧ (t.slot k).next = 0)) = true) := by decide +kernel

theorem witness_KeySlotsMove_2 :
  let s : State := State.reset
  let q : KReq := { ask (le 1 0 ++ padTo 143 []) with dlen := 0 }
  let n := kTenant q
  let k := keySlot q
  let key := 5
  (s.die.takes q 0x0403 true 144 [(0, 1), (4, 97), (104, 40)] = true) ∧
  (q.get 0 1 < 2) ∧
  ((s.die.slot k).st = .empty) ∧
  (s.die.slotIn n .locked = none) ∧
  (s.die.epochLeft k = true) ∧
  (holdsAfter (exec (.keyImport q true key) s) (fun t => decide (t.applied s.die q.fn ∧ (t.slot k).st = s.die.loadState n ∧ (t.slot k).key = key ∧ (t.slot k).epoch = (s.die.slot k).epoch + 1)) = true) := by decide +kernel

theorem witness_KeySlotsMove_3 :
  let s : State := at' { die with cl := { die.cl with slots := [(0, { st := .write }), (1, { st := .read })] } }
  let q : KReq := ask []
  let n := kTenant q
  let w := 0
  let r := 1
  (s.die.takes q 0x0404 true 0 [] = true) ∧
  (s.die.slotIn n .write = some w) ∧
  (s.die.slotIn n .read = some r) ∧
  (holdsAfter (exec (.keyRotate q) s) (fun t => decide (t.applied s.die q.fn ∧ (t.slot w).st = .read ∧ (t.slot r).st = .write)) = true) := by decide +kernel

theorem witness_KeySlotsMove_4 :
  let s : State := at' { die with cl := { die.cl with slots := [(0, { st := .write }), (1, { st := .read, epoch := 3 })] } }
  let q : KReq := ask (le 1 1)
  let n := kTenant q
  let k := keySlot q
  (s.die.takes q 0x0406 true 1 [(0, 1)] = true) ∧
  (q.get 0 1 < 2) ∧
  ((s.die.slot k).st = .read) ∧
  (s.die.cl.migrating.contains n = false) ∧
  (s.die.keySectorsAll k = 0) ∧
  (holdsAfter (exec (.keyRetire q) s) (fun t => decide (t.applied s.die q.fn ∧ (t.slot k).st = .empty ∧ (t.slot k).epoch = (s.die.slot k).epoch)) = true) := by decide +kernel

theorem witness_KeySlotsMove_5 :
  let s : State := at' { die with cl := { die.cl with slots := [(0, { st := .write, durable := 1 }), (1, { st := .read })] } }
  let q : KReq := ask []
  let n := kTenant q
  let w := 0
  let r := 1
  (s.die.takes q opKeyMigrate true 0 [] = true) ∧
  (s.die.slotIn n .write = some w) ∧
  (s.die.slotIn n .read = some r) ∧
  (s.die.cl.migrating.contains n = false) ∧
  (s.die.keySectors r = 0) ∧
  (s.die.countersLeft w 0 = true) ∧
  (holdsAfter (exec (.keyMigrate q []) s) (fun t => decide (t.appliedWith s.die q.fn (le 8 0) ∧ t.cl.migrating.contains n = false)) = true) := by decide +kernel

theorem witness_KeySlotsMove_6 :
  let s : State := State.reset
  let q : KReq := ask (le 1 1 ++ padTo 3 [] ++ padTo 64 [9])
  let n := kTenant q
  (s.die.takes q 0x0408 true 68 [(0, 1), (4, 64)] = true) ∧
  (s.die.keyLockBad q = none) ∧
  (s.die.slotIn n .locked = none) ∧
  ((match (s.die.tenant n).lock with | none => q.get 0 1 == 1 | some cur => secretAt q 36 == cur) = true) ∧
  (holdsAfter (exec (.keyLockSet q) s) (fun t => decide (t.applied s.die q.fn ∧ (t.tenant n).lock = (if q.get 0 1 = 0 then none else some (secretAt q 4)))) = true) := by decide +kernel

theorem witness_KeySlotsMove_7 :
  let s : State := at' { die with cl := { die.cl with slots := [(0, { st := .locked, before := .write })] }, tenants := [(0, { Tenant.owner with lock := some (padTo 32 []) })] }
  let q : KReq := ask (padTo 32 [])
  let n := kTenant q
  (s.die.takes q 0x0409 true 32 [(0, 32)] = true) ∧
  ((s.die.tenant n).wrongUnlocks < 10) ∧
  (s.die.slotIn n .locked ≠ none) ∧
  ((s.die.tenant n).lock = some (secretAt q 0)) ∧
  (holdsAfter (exec (.keyUnlock q) s) (fun t => decide (t.applied s.die q.fn ∧ [2 * n, 2 * n + 1].all (fun i => (t.slot i).st == (if (s.die.slot i).st == .locked then (s.die.slot i).before else (s.die.slot i).st)) = true)) = true) := by decide +kernel

theorem witness_KeySlotsMove_8 :
  let s : State := State.reset
  let q : KReq := ask []
  let n := kTenant q
  (s.die.takes q opCryptoErase true 0 [] = true) ∧
  ((s.die.nsOfTenant n).all (fun i => !s.die.nsInFlight i none) = true) ∧
  (s.die.epochLeft (2 * n) = true) ∧
  (holdsAfter (exec (.keyCryptoErase q) s) (fun t => decide (t.applied s.die q.fn ∧ (t.slot (2 * n)).st = .write ∧ (t.slot (2 * n)).epoch = (s.die.slot (2 * n)).epoch + 1 ∧ (t.slot (2 * n + 1)).st = .empty)) = true) := by decide +kernel

theorem witness_NamespacesComeAndGo_1 :
  let s : State := at' { die with rc := { die.rc with groups := [(0, { formed := true, userCap := 2 ^ 44 })] }, tenants := [(0, { Tenant.owner with quota := 2 ^ 44, quotaSet := true })] }
  let q : KReq := ask (le 2 0 ++ le 6 0 ++ le 8 65536 ++ padTo 64 [] ++ le 2 0)
  (s.die.takes q 0x0301 true 82 [(0, 2), (8, 74 + 2 * q.get 80 2)] = true) ∧
  (82 + 2 * q.get 80 2 ≤ q.len) ∧
  (s.die.nsRefused (kTenant q) (nsCreateOf q) = none) ∧
  (holdsAfter (exec (.nsCreate q) s) (fun t => decide (let n := s.die.freeNsid.getD 1; t.answeredWith q.fn kOk (le 4 n) ∧ (t.ns n).alive = true ∧ (t.ns n).owner = kTenant q ∧ (t.ns n).nsze = q.get 8 8 ∧ (t.ns n).attached = [kTenant q])) = true) := by decide +kernel

theorem witness_NamespacesComeAndGo_2 :
  let s : State := at' { die with nss := [(1, nsConv)] }
  let q : KReq := ask (le 4 1)
  (s.die.takes q opNsDelete false 4 [(0, 4)] = true) ∧
  ((s.die.ns (q.get 0 4)).alive = true) ∧
  (s.die.anaRefuses (q.get 0 4) = none) ∧
  (s.die.nsInFlight (q.get 0 4) none = false) ∧
  (holdsAfter (exec (.nsDelete q) s) (fun t => decide (t.answered q.fn kOk ∧ (t.ns (q.get 0 4)).alive = false)) = true) := by decide +kernel

theorem witness_NamespacesComeAndGo_3 :
  let s : State := at' { die with nss := [(1, nsZoned)] }
  let q : KReq := ask (le 4 1 ++ le 4 0 ++ le 8 0)
  let n := s.die.ns (q.get 0 4)
  let z := n.zoneOf (q.get 8 8)
  (s.die.takes q 0x0304 false 16 [(0, 4), (8, 8)] = true) ∧
  (n.alive = true) ∧
  (n.isZoned = true) ∧
  (n.home = s.die.anaGroup) ∧
  (q.get 8 8 % n.zoneLbas = 0) ∧
  (z < n.zoneCount) ∧
  ((n.zone z).st ≠ .zso) ∧
  (s.die.zoneEarlier (q.get 0 4) z ((n.zone z).roWait.getD s.die.qe.order) = false) ∧
  (holdsAfter (exec (.zoneSetRo q) s) (fun t => decide (t.answered q.fn kOk ∧ (t.zone (q.get 0 4) z).st = .zsro)) = true) := by decide +kernel

theorem witness_AdminQueuesChange_1 :
  let s : State := at' (under die (adminT (sqe 5 0 (31 + 65536 * 65535) (1 + 65536 * 31) 0 0)))
  let t : Nat := 9
  let e : SqEntry := sqe 5 0 (31 + 65536 * 65535) (1 + 65536 * 31) 0 0
  let f := (s.die.tag t).fn
  let others := fun (u : Die) => (∀ n, n ≠ f → u.fn n = s.die.fn n) ∧ u.ends t stOk
  (s.die.adminTag t 0x05 e) ∧
  (e.qid ≠ 0) ∧
  (e.qid ≤ (s.die.tenant f).qpairs) ∧
  (((s.die.fn f).cq e.qid).size = 0) ∧
  (2 ≤ e.qsize) ∧
  (bitsOf e.cdw11 0 1 = 1) ∧
  (bitsOf e.cdw11 16 16 < (s.die.tenant f).vectors) ∧
  (holdsAfter (exec (.createIoCq t) s) (fun u => decide (u.ends t stOk ∧ (u.fn f).cq e.qid = { size := e.qsize, vector := bitsOf e.cdw11 16 16, ien := bitsOf e.cdw11 1 1 == 1 } ∧ (u.fn f).sqs = (s.die.fn f).sqs)) = true) := by decide +kernel

theorem witness_AdminQueuesChange_2 :
  let s : State := at' (under { die with funcs := [(0, { cqs := [(3, { size := 2 })] })] } (adminT (sqe 1 0 (31 + 65536) (1 + 65536 * 3) 0 0)))
  let t : Nat := 9
  let e : SqEntry := sqe 1 0 (31 + 65536) (1 + 65536 * 3) 0 0
  let f := (s.die.tag t).fn
  let others := fun (u : Die) => (∀ n, n ≠ f → u.fn n = s.die.fn n) ∧ u.ends t stOk
  (s.die.adminTag t 0x01 e) ∧
  (e.qid ≠ 0) ∧
  (e.qid ≤ (s.die.tenant f).qpairs) ∧
  (((s.die.fn f).sq e.qid).size = 0) ∧
  (2 ≤ e.qsize) ∧
  (bitsOf e.cdw11 0 1 = 1) ∧
  (bitsOf e.cdw11 16 16 ≠ 0) ∧
  (((s.die.fn f).cq (bitsOf e.cdw11 16 16)).size ≠ 0) ∧
  (holdsAfter (exec (.createIoSq t) s) (fun u => decide (u.ends t stOk ∧ (u.fn f).sq e.qid = { size := e.qsize, cq := bitsOf e.cdw11 16 16 } ∧ (u.fn f).cqs = (s.die.fn f).cqs)) = true) := by decide +kernel

theorem witness_AdminQueuesChange_3 :
  let s : State := at' (under { die with funcs := [(0, { cqs := [(3, { size := 2 })], sqs := [(1, { size := 2, cq := 2 })] })] } (adminT (sqe 4 0 3 0 0 0)))
  let t : Nat := 9
  let e : SqEntry := sqe 4 0 3 0 0 0
  let f := (s.die.tag t).fn
  let others := fun (u : Die) => (∀ n, n ≠ f → u.fn n = s.die.fn n) ∧ u.ends t stOk
  (s.die.adminTag t 0x04 e) ∧
  (e.qid ≠ 0) ∧
  (((s.die.fn f).cq e.qid).size ≠ 0) ∧
  ((∀ x ∈ (s.die.fn f).sqs, x.2.size = 0 ∨ x.2.cq ≠ e.qid)) ∧
  (holdsAfter (exec (.deleteIoCq t) s) (fun u => decide (u.ends t stOk ∧ ((u.fn f).cq e.qid).size = 0 ∧ (u.fn f).sqs = (s.die.fn f).sqs)) = true) := by decide +kernel

theorem witness_AdminQueuesChange_4 :
  let s : State := at' (under { die with funcs := [(0, { cqs := [(3, { size := 2 })], sqs := [(3, { size := 2, cq := 3 })] })] } (adminT (sqe 0 0 3 0 0 0)))
  let t : Nat := 9
  let e : SqEntry := sqe 0 0 3 0 0 0
  let f := (s.die.tag t).fn
  let others := fun (u : Die) => (∀ n, n ≠ f → u.fn n = s.die.fn n) ∧ u.ends t stOk
  (s.die.adminTag t 0x00 e) ∧
  (e.qid ≠ 0) ∧
  (((s.die.fn f).sq e.qid).size ≠ 0) ∧
  ((∀ x ∈ s.die.qe.tags, x.2.st = .free ∨ x.2.fn ≠ f ∨ x.2.sq ≠ e.qid)) ∧
  (holdsAfter (exec (.deleteIoSq t) s) (fun u => decide (u.ends t stOk ∧ ((u.fn f).sq e.qid).size = 0 ∧ (u.fn f).cqs = (s.die.fn f).cqs)) = true) := by decide +kernel

theorem witness_AdminDataIsSent_1 :
  let s : State := at' (under die (adminT (sqe 2 0 (2 + 32768) 0 0 0)))
  let t : Nat := 9
  let e : SqEntry := sqe 2 0 (2 + 32768) 0 0 0
  let f := (s.die.tag t).fn
  (s.die.adminTag t 0x02 e) ∧
  (logSupported f e.lid = true) ∧
  ((e.lid = 0xBF → s.die.reaches f e.ns = true)) ∧
  (holdsAfter (exec (.getLogPage t) s) (fun u => decide (u.ends t stOk ∧ u.out = .logPage f t e.lid (s.die.logData f e.lid e.ns) :: s.die.out ∧ (e.rae = true → { u with qe := s.die.qe, out := s.die.out, link := s.die.link, life := { u.life with gated := s.die.life.gated } } = s.die) ∧ (e.rae = false → ((u.fn f).unread ++ (u.fn f).held).all (fun a => a.page != e.lid) = true))) = true) := by decide +kernel

theorem witness_AdminDataIsSent_2 :
  let s : State := at' (under die (adminT (sqe 6 0 1 0 0 0)))
  let t : Nat := 9
  let e : SqEntry := sqe 6 0 1 0 0 0
  let f := (s.die.tag t).fn
  let cns := bitsOf e.cdw10 0 8
  (s.die.adminTag t 0x06 e) ∧
  (cnsSupported.contains cns = true) ∧
  (([0x00, 0x03, 0x05, 0x08, 0x11].contains cns = true → 1 ≤ e.ns ∧ e.ns ≤ 16384)) ∧
  (holdsAfter (exec (.nvmeIdentify t) s) (fun u => decide (True)) = true) := by decide +kernel

theorem witness_AdminDataIsSent_3 :
  let s : State := State.reset
  (s.die.awake = true) ∧
  (holdsAfter (exec .nvmeMiBasicManagement s) (fun u => decide (u.mc.mi.length = 9 ∧ u.out = .mi u.mc.mi :: s.die.out ∧ { u with mc := { u.mc with mi := s.die.mc.mi }, out := s.die.out } = s.die)) = true) := by decide +kernel

theorem witness_FeaturesAreStored_1 :
  let s : State := at' (under die (adminT (sqe 9 0 1 0xFF07 0 0)))
  let t : Nat := 9
  let e : SqEntry := sqe 9 0 1 0xFF07 0 0
  let f := (s.die.tag t).fn
  let data := 0
  (s.die.adminTag t 0x09 e) ∧
  (plainFids.contains e.fid = true) ∧
  (featBad (s.die.fn f) e = false) ∧
  (e.sv = false) ∧
  ((e.fid = 0x0E → s.die.pointerBad (s.die.tag t) e 8 = none)) ∧
  (holdsAfter (exec (.setFeatures t data) s) (fun u => decide (u.ends t stOk ∧ (e.fid = 0x0E → u.mc.stamp = (bitsOf data 0 48, s.die.now)) ∧ (e.fid ≠ 0x0E → Tbl.get 0 (u.fn f).feats (featKey e) = (if e.fid = 0x1E then e.cdw12.toNat else e.cdw11.toNat)))) = true) := by decide +kernel

theorem witness_FeaturesAreStored_2 :
  let s : State := at' (under die (adminT (sqe 9 0 8 0x2FF 0 0)))
  let t : Nat := 9
  let e : SqEntry := sqe 9 0 8 0x2FF 0 0
  let f := (s.die.tag t).fn
  (s.die.adminTag t 0x09 e) ∧
  (e.fid = 0x08) ∧
  (e.sv = false) ∧
  (holdsAfter (exec (.setFeaturesInterruptCoalescing t) s) (fun u => decide (u.ends t stOk ∧ (u.fn f).ndef = BitVec.ofNat 32 (min (bitsOf e.cdw11 0 8 + 1) 255 + 256 * min (bitsOf e.cdw11 8 8 * 100) 1000))) = true) := by decide +kernel

theorem witness_FeaturesAreStored_3 :
  let s : State := at' (under die (adminT (sqe 9 0 9 (31 + 65536) 0 0)))
  let t : Nat := 9
  let e : SqEntry := sqe 9 0 9 (31 + 65536) 0 0
  let f := (s.die.tag t).fn
  (s.die.adminTag t 0x09 e) ∧
  (e.fid = 0x09) ∧
  (e.sv = false) ∧
  (bitsOf e.cdw11 0 16 < (s.die.tenant f).vectors) ∧
  (holdsAfter (exec (.setFeaturesInterruptVectorConfig t) s) (fun u => decide (u.ends t stOk ∧ ((u.fn f).vec (bitsOf e.cdw11 0 16)).cd = (bitsOf e.cdw11 16 1 == 1))) = true) := by decide +kernel

theorem witness_FeaturesAreStored_4 :
  let s : State := at' (under die (adminT (sqe 9 0 7 0x10001 0 0)))
  let t : Nat := 9
  let e : SqEntry := sqe 9 0 7 0x10001 0 0
  let f := (s.die.tag t).fn
  (s.die.adminTag t 0x09 e) ∧
  (e.fid = 0x07) ∧
  (e.sv = false) ∧
  (holdsAfter (exec (.setFeaturesNumberOfQueues t) s) (fun u => decide (u.ends t stOk ∧ (1 ≤ (s.die.tenant f).qpairs → (u.tag t).dw0 = BitVec.ofNat 32 (((s.die.tenant f).qpairs - 1) * 65537)))) = true) := by decide +kernel

theorem witness_FeaturesAreStored_5 :
  let s : State := at' (under { die with nss := [(1, { nsConv with home := 3 })] } (adminT (sqe 9 0 0x1D 1 1 0)))
  let t : Nat := 9
  let e : SqEntry := sqe 9 0 0x1D 1 1 0
  let f := (s.die.tag t).fn
  (s.die.adminTag t 0x09 e) ∧
  (e.fid = 0x1D) ∧
  (e.sv = false) ∧
  (f = 0) ∧
  (s.die.endgBad e = false) ∧
  (bitsOf e.cdw12 8 8 = 0) ∧
  ((∀ x ∈ s.die.nss, x.2.alive = false ∨ x.2.home ≠ s.die.anaGroup)) ∧
  (holdsAfter (exec (.setFeaturesFdp t) s) (fun u => decide (u.ends t stOk ∧ u.mc.fdp = (bitsOf e.cdw12 0 1 == 1))) = true) := by decide +kernel

theorem witness_FeaturesAreStored_6 :
  let s : State := at' (under { die with funcs := [(0, { feats := [(1, 7)] })] } (adminT (sqe 10 0 1 0 0 0)))
  let t : Nat := 9
  let e : SqEntry := sqe 10 0 1 0 0 0
  let f := (s.die.tag t).fn
  (s.die.adminTag t 0x0A e) ∧
  (e.fid = 0x01) ∧
  (bitsOf e.cdw10 8 3 = 0) ∧
  (holdsAfter (exec (.getFeatures t) s) (fun u => decide (u.ends t stOk ∧ (u.tag t).dw0 = BitVec.ofNat 32 (Tbl.get 0 (s.die.fn f).feats 0x01) ∧ { u with qe := s.die.qe } = s.die)) = true) := by decide +kernel

theorem witness_FeaturesAreStored_7 :
  let s : State := at' (under die (adminT (sqe 12 0 0 0 0 0)))
  let t : Nat := 9
  let e : SqEntry := sqe 12 0 0 0 0 0
  let f := (s.die.tag t).fn
  (s.die.adminTag t 0x0C e) ∧
  ((s.die.fn f).aers.contains t = false) ∧
  ((s.die.fn f).aers.length < 16) ∧
  ((s.die.fn f).held = []) ∧
  (holdsAfter (exec (.asynchronousEventRequest t) s) (fun u => decide ((u.fn f).aers = (s.die.fn f).aers ++ [t] ∧ (u.tag t).st = .admitted)) = true) := by decide +kernel

theorem witness_FeaturesAreStored_8 :
  let s : State := at' (under { die with funcs := [(0, { held := [{ etype := 1, info := 2, page := 2 }] })] } (adminT (sqe 12 0 0 0 0 0)))
  let t : Nat := 9
  let e : SqEntry := sqe 12 0 0 0 0 0
  let f := (s.die.tag t).fn
  let a := { etype := 1, info := 2, page := 2 }
  (s.die.adminTag t 0x0C e) ∧
  ((s.die.fn f).aers = []) ∧
  ((s.die.fn f).held = [a]) ∧
  ((s.die.fn f).unread.all (fun b => b.etype != a.etype) = true) ∧
  (holdsAfter (exec (.asynchronousEventRequest t) s) (fun u => decide (u.ends t stOk ∧ (u.tag t).dw0 = a.dw0 ∧ (u.fn f).unread = (s.die.fn f).unread ++ [a] ∧ (u.fn f).aers = [] ∧ (u.fn f).held = [])) = true) := by decide +kernel

theorem witness_FeaturesAreStored_9 :
  let s : State := at' (under die (adminT (sqe 8 0 0 0 0 0)))
  let t : Nat := 9
  let e : SqEntry := sqe 8 0 0 0 0 0
  let f := (s.die.tag t).fn
  let named := fun (x : Nat × Tag) => x.2.st != .free && x.2.fn == f && x.2.sq == bitsOf e.cdw10 0 16 && x.2.sq != 0 && (match x.2.entry with | some y => y.cid == bitsOf e.cdw10 16 16 | none => false)
  let aborts := (s.die.qe.tags.filter (fun x => x.1 != t && x.2.st != .free && x.2.fn == f && x.2.adminOpc == 0x08 && decide (x.2.order < (s.die.tag t).order))).length
  (s.die.adminTag t 0x08 e) ∧
  ((s.die.tag t).target = none) ∧
  (aborts < 16) ∧
  (s.die.qe.tags.all (fun x => !named x) = true) ∧
  (holdsAfter (exec (.abort t) s) (fun u => decide (u.ends t stOk ∧ (u.tag t).dw0 = 1)) = true) := by decide +kernel

theorem witness_FeaturesAreStored_10 :
  let s : State := at' { die with qe := { die.qe with tags := [(9, adminT (sqe 8 0 (1 + 65536 * 5) 0 0 0)), (3, ioT (sqe (2 + 65536 * 5) 1 0 0 0 0))] } }
  let t : Nat := 9
  let e : SqEntry := sqe 8 0 (1 + 65536 * 5) 0 0 0
  let f := (s.die.tag t).fn
  let named := fun (x : Nat × Tag) => x.2.st != .free && x.2.fn == f && x.2.sq == bitsOf e.cdw10 0 16 && x.2.sq != 0 && (match x.2.entry with | some y => y.cid == bitsOf e.cdw10 16 16 | none => false)
  let aborts := (s.die.qe.tags.filter (fun x => x.1 != t && x.2.st != .free && x.2.fn == f && x.2.adminOpc == 0x08 && decide (x.2.order < (s.die.tag t).order))).length
  let v := 3
  (s.die.adminTag t 0x08 e) ∧
  ((s.die.tag t).target = none) ∧
  (aborts < 16) ∧
  (v ≠ t) ∧
  (s.die.qe.tags.contains (v, s.die.tag v) = true) ∧
  (named (v, s.die.tag v) = true) ∧
  (s.die.qe.tags.all (fun x => !named x || x == (v, s.die.tag v)) = true) ∧
  ((s.die.tag v).early = true) ∧
  ((s.die.tag v).forwarded = false) ∧
  (holdsAfter (exec (.abort t) s) (fun u => decide (u.ends v stAbortRequested ∧ u.ends t stOk ∧ (u.tag t).dw0 = 0)) = true) := by decide +kernel

theorem witness_AdminNamespacesChange_1 :
  let s : State := at' (under dieRoom (adminT (sqe 13 0 0 0 0 0)))
  let t : Nat := 9
  let e : SqEntry := sqe 13 0 0 0 0 0
  let f := (s.die.tag t).fn
  let c := nsNew
  (s.die.adminTag t 0x0D e) ∧
  (bitsOf e.cdw10 0 4 = 0) ∧
  (s.die.nsRefused f c = none) ∧
  (holdsAfter (exec (.namespaceManagementCreate t c) s) (fun u => decide (True)) = true) := by decide +kernel

theorem witness_AdminNamespacesChange_2 :
  let s : State := at' (under { die with nss := [(1, { nsConv with attached := [] })] } (adminT (sqe 13 1 1 0 0 0)))
  let t : Nat := 9
  let e : SqEntry := sqe 13 1 1 0 0 0
  let f := (s.die.tag t).fn
  let n := s.die.ns e.ns
  let ids := if e.ns = nsidAll then s.die.nsList 0 (fun m => m.owner == f) else [e.ns]
  (s.die.adminTag t 0x0D e) ∧
  (bitsOf e.cdw10 0 4 = 1) ∧
  ((e.ns ≠ nsidAll → 1 ≤ e.ns ∧ n.alive = true ∧ n.owner = f)) ∧
  (ids.all (fun i => (s.die.anaRefuses i).isNone && !s.die.nsInFlight i none && !(s.die.ns i).busy) = true) ∧
  (holdsAfter (exec (.namespaceManagementDelete t) s) (fun u => decide (u.ends t stOk ∧ ids.all (fun i => !(u.ns i).alive) = true)) = true) := by decide +kernel

theorem witness_AdminNamespacesChange_3 :
  let s : State := at' (under { die with nss := [(1, { nsConv with attached := [3] })] } (adminT (sqe 21 1 0 0 0 0)))
  let t : Nat := 9
  let e : SqEntry := sqe 21 1 0 0 0 0
  let f := (s.die.tag t).fn
  let n := s.die.ns e.ns
  (s.die.adminTag t 0x15 e) ∧
  (bitsOf e.cdw10 0 4 = 0) ∧
  (n.alive = true) ∧
  (n.owner = f) ∧
  (s.die.deleting e.ns = false) ∧
  (n.attached.contains f = false) ∧
  (holdsAfter (exec (.namespaceAttach t [f]) s) (fun u => decide (u.ends t stOk ∧ u.ns e.ns = { n with attached := n.attached ++ [f] })) = true) := by decide +kernel

theorem witness_AdminNamespacesChange_4 :
  let s : State := at' (under { die with nss := [(1, nsConv)] } (adminT (sqe 21 1 1 0 0 0)))
  let t : Nat := 9
  let e : SqEntry := sqe 21 1 1 0 0 0
  let f := (s.die.tag t).fn
  let n := s.die.ns e.ns
  (s.die.adminTag t 0x15 e) ∧
  (bitsOf e.cdw10 0 4 = 1) ∧
  (n.alive = true) ∧
  (n.owner = f) ∧
  (s.die.deleting e.ns = false) ∧
  (n.attached.contains f = true) ∧
  (s.die.nsInFlight e.ns (some f) = false) ∧
  (holdsAfter (exec (.namespaceDetach t [f]) s) (fun u => decide (u.ends t stOk ∧ u.ns e.ns = { n with attached := n.attached.filter (fun x => x != f) })) = true) := by decide +kernel

theorem witness_AdminNamespacesChange_5 :
  let s : State := at' (under { die with nss := [(1, nsConv)] } (adminT (sqe 0x80 1 1 0 0 0)))
  let t : Nat := 9
  let e : SqEntry := sqe 0x80 1 1 0 0 0
  let f := (s.die.tag t).fn
  let n := s.die.ns e.ns
  let lbaf := bitsOf e.cdw10 0 4
  let size := 1000
  (s.die.adminTag t 0x80 e) ∧
  (bitsOf e.cdw10 9 3 = 0) ∧
  (s.die.reaches f e.ns = true) ∧
  (s.die.anaRefuses e.ns = none) ∧
  (n.formatOk lbaf = true) ∧
  (bitsOf e.cdw10 4 5 = 0) ∧
  (n.sizeUnder lbaf = some size) ∧
  (s.die.earlierDone e true (s.die.tag t).order = true) ∧
  (holdsAfter (exec (.formatNvm t) s) (fun u => decide (u.ends t stOk ∧ (u.ns e.ns).lbaf = lbaf ∧ (u.ns e.ns).nsze = size ∧ (u.ns e.ns).map = [] ∧ (u.ns e.ns).crumbs = [] ∧ (u.ns e.ns).zones = [] ∧ (u.ns e.ns).salt = n.salt)) = true) := by decide +kernel

theorem witness_AdminNamespacesChange_6 :
  let s : State := at' (under { die with nss := [(1, nsConv)] } (adminT (sqe 0x80 1 (1 + 1024) 0 0 0)))
  let t : Nat := 9
  let e : SqEntry := sqe 0x80 1 (1 + 1024) 0 0 0
  let f := (s.die.tag t).fn
  let n := s.die.ns e.ns
  let lbaf := bitsOf e.cdw10 0 4
  let size := 1000
  (s.die.adminTag t 0x80 e) ∧
  (bitsOf e.cdw10 9 3 = 2) ∧
  (s.die.reaches f e.ns = true) ∧
  (s.die.anaRefuses e.ns = none) ∧
  (n.formatOk lbaf = true) ∧
  (bitsOf e.cdw10 4 5 = 0) ∧
  (n.sizeUnder lbaf = some size) ∧
  (s.die.earlierDone e true (s.die.tag t).order = true) ∧
  (holdsAfter (exec (.formatNvmCryptoErase t) s) (fun u => decide (True)) = true) := by decide +kernel

theorem witness_SelfTestsRun_1 :
  let s : State := at' (under die (adminT (sqe 20 0 1 0 0 0)))
  let t : Nat := 9
  let e : SqEntry := sqe 20 0 1 0 0 0
  (s.die.adminTag t 0x14 e) ∧
  (bitsOf e.cdw10 0 4 = 1) ∧
  (s.die.units.run = none) ∧
  (holdsAfter (exec (.deviceSelfTestShort t) s) (fun u => decide (u.ends t stOk)) = true) := by decide +kernel

theorem witness_SelfTestsRun_2 :
  let s : State := at' (under die (adminT (sqe 20 0 2 0 0 0)))
  let t : Nat := 9
  let e : SqEntry := sqe 20 0 2 0 0 0
  (s.die.adminTag t 0x14 e) ∧
  (bitsOf e.cdw10 0 4 = 2) ∧
  (s.die.units.run = none) ∧
  (holdsAfter (exec (.deviceSelfTestExtended t) s) (fun u => decide (u.ends t stOk)) = true) := by decide +kernel

theorem witness_SelfTestsRun_3 :
  let s : State := at' (under { die with units := { die.units with run := some { what := 1, fn := 0, todo := [] } } } (adminT (sqe 20 0 15 0 0 0)))
  let t : Nat := 9
  let e : SqEntry := sqe 20 0 15 0 0 0
  let r := { what := 1, fn := 0, todo := [] }
  (s.die.adminTag t 0x14 e) ∧
  (bitsOf e.cdw10 0 4 = 0xF) ∧
  (s.die.units.run = some r) ∧
  (r.what ≠ 0) ∧
  (holdsAfter (exec (.deviceSelfTestAbort t) s) (fun u => decide (u.ends t stOk ∧ u.units.run = none ∧ (u.fn r.fn).dstLog = some (1, 0, 0))) = true) := by decide +kernel

theorem witness_SelfTestsRun_4 :
  let s : State := at' { die with units := { die.units with map := [(3, 16)] } }
  let q : KReq := ask (le 2 3 ++ le 2 16)
  (s.die.takes q 0x0804 false 4 [(0, 1), (2, 2)] = true) ∧
  (q.get 0 1 < 7) ∧
  (q.get 2 2 < kindTotal (q.get 0 1)) ∧
  (s.die.units.map.contains (q.get 0 1, q.get 2 2) = true) ∧
  (holdsAfter (exec (.unitRestore q true) s) (fun u => decide (u.answered q.fn kOk ∧ u.units.map.contains (q.get 0 1, q.get 2 2) = false ∧ u.unit (q.get 0 1) (q.get 2 2) = (if q.get 0 1 < 4 then .spare else .inService))) = true) := by decide +kernel

theorem witness_SelfTestsRun_5 :
  let s : State := State.reset
  let q : KReq := ask (le 2 64 ++ le 2 0)
  let k := 6
  (s.die.takes q 0x0801 false 4 [(0, 4)] = true) ∧
  (k < 7) ∧
  (q.get 0 2 = 2 ^ k) ∧
  (q.get 2 2 < kindTotal k) ∧
  (s.die.units.run = none) ∧
  (holdsAfter (exec (.selftestRun q) s) (fun u => decide (u.stillRuns q.fn 0x0801 ∧ (u.fn q.fn).mbx.progTotal = 1)) = true) := by decide +kernel

theorem witness_SelfTestsRun_6 :
  let s : State := State.reset
  let kind := 6
  let inst := 0
  (s.die.serves = true) ∧
  (kind < 7) ∧
  (inst < kindTotal kind) ∧
  (s.die.sliceDue kind inst = true) ∧
  (s.die.unit kind inst = .inService) ∧
  (s.die.standIn kind inst = true) ∧
  ((kind = 0 → s.die.bankIdle inst = true)) ∧
  (holdsAfter (exec (.selftestSlice kind inst true true) s) (fun u => decide ((4 ≤ kind → u.units.st = s.die.units.st) ∧ (kind < 4 → u.unit kind inst = .spare) ∧ (kind < 4 → u.unit kind ((s.die.freeSpare kind inst).getD 0) = .inService) ∧ u.units.map = s.die.units.map ∧ (Tbl.get {} u.units.counts kind).passed = satInc 0xFFFFFFFF (Tbl.get {} s.die.units.counts kind).passed)) = true) := by decide +kernel

theorem witness_SelfTestsRun_7 :
  let s : State := State.reset
  let kind := 3
  let inst := 0
  (s.die.serves = true) ∧
  (kind < 7) ∧
  (inst < kindTotal kind) ∧
  (s.die.sliceDue kind inst = true) ∧
  (s.die.canTest kind inst = true) ∧
  ((kind = 0 → s.die.bankIdle inst = true)) ∧
  (holdsAfter (exec (.selftestSlice kind inst true false) s) (fun u => decide (u.units.map.contains (kind, inst) = true ∧ u.unit kind inst = .unusable ∧ (Tbl.get {} u.units.counts kind).failed = satInc 0xFFFF (Tbl.get {} s.die.units.counts kind).failed)) = true) := by decide +kernel

theorem witness_FunctionsAreReset_1 :
  let s : State := at' { die with link := { die.link with vfEnable := true, numVfs := 2047 }, funcs := [(2047, { st := .ready })] }
  let n : Nat := 2047
  (s.die.awake = true) ∧
  (n ≠ 0) ∧
  (s.die.fnPresent n = true) ∧
  (holdsAfter (exec (.flr n) s) (fun t => decide ((t.fn n).cc = 0 ∧ (t.fn n).d3 = false ∧ (t.fn n).vecs = [] ∧ ((s.die.fn n).st = .ready → (t.fn n).st = .teardown) ∧ ((s.die.fn n).st = .fenced → (t.fn n).st = .fenced))) = true) := by decide +kernel

theorem witness_FunctionsAreReset_2 :
  let s : State := at' (pf { cc := 1, st := .ready })
  (s.die.awake = true) ∧
  (s.die.hasHostLink = true) ∧
  (holdsAfter (exec (.flr 0) s) (fun t => decide ((t.fn 0).cc = 0 ∧ t.link.vfEnable = false ∧ t.link.numVfs = 0)) = true) := by decide +kernel

theorem witness_FunctionsAreReset_3 :
  let s : State := at' (pf { cc := 1, st := .ready })
  (s.die.awake = true) ∧
  (s.die.hasHostLink = true) ∧
  (holdsAfter (exec .conventionalReset s) (fun t => decide (t.link.vfEnable = false ∧ t.link.numVfs = 0 ∧ (t.fn 0).cc = 0)) = true) := by decide +kernel

theorem witness_FunctionsAreReset_4 :
  let s : State := State.reset
  let k := 2047
  (s.die.awake = true) ∧
  (s.die.hasHostLink = true) ∧
  (k ≤ 2047) ∧
  (holdsAfter (exec (.vfEnableWrite true k) s) (fun t => decide (t.link.vfEnable = true ∧ t.link.numVfs = k)) = true) ∧
  (holdsAfter (exec (.vfEnableWrite false k) s) (fun t => decide (t.link.vfEnable = false ∧ t.link.numVfs = k)) = true) := by decide +kernel

theorem witness_FunctionsAreReset_5 :
  let s : State := at' (pf { rdy := true, st := .ready })
  let n : Nat := 0
  (s.die.awake = true) ∧
  (s.die.fnPresent n = true) ∧
  ((s.die.fn n).d3 = false) ∧
  (holdsAfter (exec (.d3hotEntry n) s) (fun t => decide ((t.fn n).d3 = true ∧ ((s.die.fn n).rdy = true → (t.fn n).shst = 2) ∧ ((s.die.fn n).rdy = true → (s.die.fn n).st = .ready → (t.fn n).st = .teardown))) = true) := by decide +kernel

theorem witness_FunctionsAreReset_6 :
  let s : State := at' (pf { d3 := true, d3Rdy := true, cc := 1 })
  let n : Nat := 0
  (s.die.awake = true) ∧
  ((s.die.fn n).d3 = true) ∧
  (holdsAfter (exec (.returnToD0 n) s) (fun t => decide ((t.fn n).d3 = false ∧ (t.fn n).cc = 0 ∧ (t.fn n).msixEn = false)) = true) := by decide +kernel

theorem witness_FunctionsAreReset_7 :
  let s : State := at' (pf { ferr := 0x1FF })
  let n : Nat := 0
  let v : Word := 0xFF
  (s.die.awake = true) ∧
  (s.die.fnPresent n = true) ∧
  (holdsAfter (exec (.ferrWrite n v) s) (fun t => decide ((t.fn n).ferr.getLsbD 7 = (s.die.fn n).ferr.getLsbD 7)) = true) := by decide +kernel

theorem witness_FunctionsAreReset_8 :
  let s : State := at' (pf { msixEn := true, vecs := [(31, { count := 3 })] })
  let n : Nat := 0
  (s.die.awake = true) ∧
  (s.die.fnPresent n = true) ∧
  (holdsAfter (exec (.msixEnableWrite n false) s) (fun t => decide ((t.fn n).msixEn = false)) = true) ∧
  (holdsAfter (exec (.msixEnableWrite n true) s) (fun t => decide ((t.fn n).msixEn = true ∧ (t.fn n).vecs = (s.die.fn n).vecs)) = true) := by decide +kernel

theorem witness_FunctionsAreReset_9 :
  let s : State := State.reset
  let n : Nat := 0
  let v := 31
  let m := false
  (s.die.awake = true) ∧
  (s.die.fnPresent n = true) ∧
  (v < (s.die.tenant n).vectors) ∧
  (holdsAfter (exec (.vectorMaskWrite n (some v) m) s) (fun t => decide (((t.fn n).vec v).mask = m)) = true) := by decide +kernel

theorem witness_FunctionsAreReset_10 :
  let s : State := State.reset
  let n : Nat := 0
  let m := true
  (s.die.awake = true) ∧
  (s.die.fnPresent n = true) ∧
  (holdsAfter (exec (.vectorMaskWrite n none m) s) (fun t => decide ((t.fn n).funcMask = m)) = true) := by decide +kernel

theorem witness_FunctionsStartAndEnd_1 :
  let s : State := State.reset
  let n : Nat := 0
  let cc : Word := 0x61
  (s.die.awake = true) ∧
  (s.die.fnPresent n = true) ∧
  ((s.die.fn n).d3 = false) ∧
  (cc.getLsbD 0 = true) ∧
  ((ccCss cc = 0 ∨ ccCss cc = 6)) ∧
  (((s.die.fn n).st = .off ∨ (s.die.fn n).st = .fenced)) ∧
  ((s.die.fn n).cc.getLsbD 0 = false) ∧
  ((s.die.tenant n).alive = true) ∧
  (holdsAfter (exec (.ccEnSet n cc) s) (fun t => decide ((t.fn n).st = .enabling ∧ (t.fn n).cc = cc &&& 0x00FFFFF1#32 ∧ (t.fn n).ferr.getLsbD 7 = false)) = true) := by decide +kernel

theorem witness_FunctionsStartAndEnd_2 :
  let s : State := at' (pf { st := .teardown })
  let n : Nat := 0
  let cc : Word := 0x61
  (s.die.awake = true) ∧
  (s.die.fnPresent n = true) ∧
  ((s.die.fn n).d3 = false) ∧
  (cc.getLsbD 0 = true) ∧
  ((s.die.fn n).st = .teardown) ∧
  (holdsAfter (exec (.ccEnSet n cc) s) (fun t => decide ((t.fn n).st = .teardown ∧ (t.fn n).reenable = true)) = true) := by decide +kernel

theorem witness_FunctionsStartAndEnd_3 :
  let s : State := at' (pf { st := .enabling, aqa := 0x0FFF0001 })
  let n : Nat := 0
  (s.die.awake = true) ∧
  ((s.die.fn n).st = .enabling) ∧
  (s.die.life.phase = .ready) ∧
  (holdsAfter (exec (.functionReady n) s) (fun t => decide ((t.fn n).st = .ready ∧ (t.fn n).rdy = true ∧ ((t.fn n).sq 0).size = bitsOf (s.die.fn n).aqa 0 12 + 1 ∧ ((t.fn n).cq 0).size = bitsOf (s.die.fn n).aqa 16 12 + 1)) = true) := by decide +kernel

theorem witness_FunctionsStartAndEnd_4 :
  let s : State := at' (pf { st := .ready, rdy := true })
  let n : Nat := 0
  let cc : Word := 0
  (s.die.awake = true) ∧
  (s.die.fnPresent n = true) ∧
  ((s.die.fn n).d3 = false) ∧
  (cc.getLsbD 0 = false) ∧
  ((s.die.fn n).st = .ready) ∧
  (holdsAfter (exec (.ccEnClear n cc) s) (fun t => decide ((t.fn n).st = .teardown ∧ (t.fn n).rdy = false ∧ (t.fn n).sqs = [])) = true) := by decide +kernel

theorem witness_FunctionsStartAndEnd_5 :
  let s : State := at' (pf { st := .teardown })
  let n : Nat := 0
  (s.die.awake = true) ∧
  ((s.die.fn n).st = .teardown) ∧
  ((s.die.fn n).reenable = false) ∧
  (holdsAfter (exec (.teardownComplete n) s) (fun t => decide ((t.fn n).st = .off ∧ (t.fn n).mbx = {})) = true) := by decide +kernel

theorem witness_FunctionsStartAndEnd_6 :
  let s : State := at' (pf { st := .teardown, reenable := true, cc := 1 })
  let n : Nat := 0
  let cc : Word := 1
  (s.die.awake = true) ∧
  ((s.die.fn n).st = .teardown) ∧
  ((s.die.fn n).reenable = true) ∧
  ((ccCss (s.die.fn n).cc = 0 ∨ ccCss (s.die.fn n).cc = 6)) ∧
  ((s.die.tenant n).alive = true) ∧
  (holdsAfter (exec (.teardownComplete n) s) (fun t => decide ((t.fn n).st = .enabling ∧ (t.fn n).mbx = {} ∧ (t.fn n).reenable = false)) = true) := by decide +kernel

theorem witness_FunctionsStartAndEnd_7 :
  let s : State := at' { pf { st := .teardown } with aon := { die.aon with time := 2000000 } }
  let n : Nat := 0
  (s.die.awake = true) ∧
  ((s.die.fn n).st = .teardown) ∧
  (s.die.qe.hold = false) ∧
  ((s.die.fn n).since + 2000000 ≤ s.die.now) ∧
  (holdsAfter (exec (.teardownLate n) s) (fun t => decide ((t.fn n).st = .fenced ∧ (t.fn n).cfs = true)) = true) := by decide +kernel

theorem witness_FunctionsStartAndEnd_8 :
  let s : State := at' (pf { st := .ready })
  let n : Nat := 0
  (s.die.awake = true) ∧
  ((s.die.fn n).st = .ready) ∧
  (holdsAfter (exec (.ccShnNormal n) s) (fun t => decide ((t.fn n).fetchStopped = true ∧ (t.fn n).aers = [] ∧ ((t.fn n).shst = 1 ∨ (t.fn n).shst = 2))) = true) := by decide +kernel

theorem witness_FunctionsStartAndEnd_9 :
  let s : State := at' (pf { st := .ready })
  let n : Nat := 0
  (s.die.awake = true) ∧
  ((s.die.fn n).st = .ready) ∧
  (holdsAfter (exec (.ccShnAbrupt n) s) (fun t => decide ((t.fn n).fetchStopped = true ∧ (t.fn n).shst = 2 ∧ (t.fn n).aers = [])) = true) := by decide +kernel

theorem witness_RegistersTakeWrites_1 :
  let s : State := State.reset
  let n : Nat := 0
  let v : Word64 := 0x0FFF0FFF
  (s.die.awake = true) ∧
  (s.die.fnPresent n = true) ∧
  ((s.die.fn n).d3 = false) ∧
  (holdsAfter (exec (.registerWrite n 0 0x24 4 v) s) (fun t => decide ((t.fn n).aqa = v.truncate 32 &&& 0x0FFF0FFF#32 ∧ (t.fn n).asq = (s.die.fn n).asq ∧ (t.fn n).mbx = (s.die.fn n).mbx)) = true) := by decide +kernel

theorem witness_RegistersTakeWrites_2 :
  let s : State := State.reset
  let n : Nat := 0
  let v : Word64 := 0xFFFFFFFF
  let off := 4095
  (s.die.awake = true) ∧
  (off < 4096) ∧
  (s.die.fnPresent n = true) ∧
  ((s.die.fn n).d3 = false) ∧
  ((s.die.fn n).mbx.req.wf = true) ∧
  (holdsAfter (exec (.registerWrite n 0 (0x81000 + off) 1 v) s) (fun t => decide (Memory.read (t.fn n).mbx.req off = v.truncate 8 ∧ (t.fn n).mbx.req.wf = true ∧ (t.fn n).mbx.resp = (s.die.fn n).mbx.resp ∧ (t.fn n).cc = (s.die.fn n).cc)) = true) := by decide +kernel

theorem witness_RegistersTakeWrites_3 :
  let s : State := State.reset
  let n : Nat := 0
  let v : Word64 := 0xFFFFFFFF
  let bar := 0
  let off := 3
  let size := 4
  (s.die.awake = true) ∧
  (off % 4 ≠ 0) ∧
  (¬ (bar = 0 ∧ 0x81000 ≤ off ∧ off < 0x82000)) ∧
  (¬ (bar = 0 ∧ 0x1000 ≤ off ∧ off < 0x80000)) ∧
  (holdsAfter (exec (.registerWrite n bar off size v) s) (fun t => decide (t = s.die)) = true) := by decide +kernel

theorem witness_RegistersTakeWrites_4 :
  let s : State := State.reset
  let n : Nat := 0
  let v : Word64 := 5
  let y := 32511
  (s.die.awake = true) ∧
  (y < 32512) ∧
  (s.die.fnPresent n = true) ∧
  ((s.die.fn n).d3 = false) := by decide +kernel

theorem witness_RegistersTakeWrites_5 :
  let s : State := State.reset
  let n : Nat := 0
  let a := 0
  let b := true
  (s.die.awake = true) ∧
  (s.die.hasHostLink = true) ∧
  (holdsAfter (exec (.outOfBarRequest n a b) s) (fun t => decide (t.out = .unsupportedRequest n a :: s.die.out ∧ t.funcs = s.die.funcs)) = true) := by decide +kernel

theorem witness_RegistersTakeWrites_6 :
  let s : State := State.reset
  let n : Nat := 0
  let w : Word := 0
  let off := 0xA0000
  (s.die.awake = true) ∧
  (s.die.fnPresent n = true) ∧
  (off % 4 = 0) ∧
  (holdsAfter (exec (.gatedRegisterAccess n off false w true) s) (fun t => decide (t.out = .readValue n off (s.die.readDword n off) :: s.die.out ∧ t.funcs = s.die.funcs)) = true) := by decide +kernel

theorem witness_RegistersTakeWrites_7 :
  let s : State := State.reset
  let n : Nat := 0
  let w : Word := 1
  let off := 0xA0004
  (s.die.awake = true) ∧
  (s.die.fnPresent n = true) ∧
  (off % 4 = 0) ∧
  (holdsAfter (exec (.gatedRegisterAccess n off true w true) s) (fun t => decide (t = s.die.writeBar0 n off w)) = true) := by decide +kernel

theorem witness_RegistersTakeWrites_8 :
  let s : State := State.reset
  let n : Nat := 0
  let w : Word := 1
  let off := 0xA0004
  (s.die.awake = true) ∧
  (s.die.fnPresent n = true) ∧
  (off % 4 = 0) ∧
  (holdsAfter (exec (.gatedRegisterAccess n off false w false) s) (fun t => decide ((t.fn n).ferr.getLsbD 0 = true ∧ (t.fn n).ferrAddr = off ∧ t.out.head? = some (.readValue n off 0xFFFFFFFF#32))) = true) := by decide +kernel

theorem witness_HostErrorsAreRecorded_1 :
  let s : State := at' (under die { st := .bound, entry := some (sqe 1 1 0 0 0 0) })
  let t : Nat := 9
  let e : SqEntry := sqe 1 1 0 0 0 0
  let x := s.die.tag t
  let st := 1
  (s.die.awake = true) ∧
  (x.entry = some e) ∧
  ((x.st = .bound ∨ x.st = .admitted ∨ x.st = .pull ∨ x.st = .media)) ∧
  ((s.die.fn x.fn).aers.contains t = false) ∧
  (st < 8) ∧
  (holdsAfter (exec (.hostReadFailure t st) s) (fun d => decide (d.ends t stDataTransfer ∧ (d.fn x.fn).ferr.getLsbD 1 = true ∧ (d.fn x.fn).aer.uncorrectable.contains (.readFailed st) = true)) = true) := by decide +kernel

theorem witness_HostErrorsAreRecorded_2 :
  let s : State := at' (under die { st := .pull, sq := 1, entry := some (sqe 1 1 0 0 0 0) })
  let t : Nat := 9
  let e : SqEntry := sqe 1 1 0 0 0 0
  let x := s.die.tag t
  let st := 0x0D
  (s.die.awake = true) ∧
  (x.entry = some e) ∧
  ((x.st = .bound ∨ x.st = .admitted ∨ x.st = .pull ∨ x.st = .media)) ∧
  (Config.listStatuses.contains st = true) ∧
  (holdsAfter (exec (.hostReadFailure t st) s) (fun d => decide (d.ends t (0x0, st))) = true) := by decide +kernel

theorem witness_HostErrorsAreRecorded_3 :
  let s : State := at' (under die { st := .pull, entry := some (sqe 1 1 0 0 0 0) })
  let t : Nat := 9
  let e : SqEntry := sqe 1 1 0 0 0 0
  let x := s.die.tag t
  (s.die.awake = true) ∧
  (x.entry = some e) ∧
  ((x.st = .pull ∨ x.st = .admitted)) ∧
  ((s.die.fn x.fn).aers.contains t = false) ∧
  (holdsAfter (exec (.poisonedTlpReceived t) s) (fun d => decide (d.ends t stDataTransfer ∧ (d.fn x.fn).ferr.getLsbD 2 = true ∧ (d.fn x.fn).aer.advisory.contains .poisonedTlp = true)) = true) := by decide +kernel

theorem witness_HostErrorsAreRecorded_4 :
  let s : State := at' (pf { st := .ready, sqs := [(0, { size := 4 })] })
  let n : Nat := 0
  let q : Nat := 0
  (s.die.awake = true) ∧
  ((s.die.fn n).st = .ready) ∧
  (((s.die.fn n).sq q).size ≠ 0) ∧
  (holdsAfter (exec (.sqFetchFail n q) s) (fun d => decide ((d.fn n).cfs = true ∧ (d.fn n).fetchStopped = true ∧ (d.fn n).ferr.getLsbD 6 = true)) = true) := by decide +kernel

theorem witness_HostLinkMoves_1 :
  let s : State := State.reset
  let u : UcieEnv := ucie0
  let m := 7
  let l := 0
  let r := 5
  let up := fun (t : Die) => t.link.st = .l0 ∧ t.link.mask = 0xFF#8 ∧ t.link.rate = r ∧ t.funcs = s.die.funcs ∧ t.out = .activeMask 0 0xFF#8 :: s.die.out
  (s.die.awake = true) ∧
  (s.die.hasHostLink = true) ∧
  (s.die.life.refclkLost = []) ∧
  (s.die.life.fencedIslands = []) ∧
  (u.degraded = []) ∧
  (u.repaired = []) ∧
  (u.hostMask = 0xFF#8) ∧
  ((∀ i, i < 8 → u.rates[i]? = some (some r))) ∧
  (r ≤ 5) ∧
  (holdsAfter (exec (.ucieTraining u) s) (fun t => decide (t.link.st = .l0 ∧ t.link.mask = 0xFF#8 ∧ t.link.rate = r ∧ t.funcs = s.die.funcs ∧ t.out = .activeMask 0 0xFF#8 :: s.die.out)) = true) ∧
  (holdsAfter (exec (.laneError m l u) s) (fun t => decide (t.link.st = .l0 ∧ t.link.mask = 0xFF#8 ∧ t.link.rate = r ∧ t.funcs = s.die.funcs ∧ t.out = .activeMask 0 0xFF#8 :: s.die.out)) = true) := by decide +kernel

theorem witness_HostLinkMoves_2 :
  let s : State := State.reset
  let u : UcieEnv := { ucie0 with hostMask := 0x7F }
  (s.die.awake = true) ∧
  (s.die.hasHostLink = true) ∧
  (s.die.life.refclkLost = []) ∧
  (s.die.life.fencedIslands = []) ∧
  (u.degraded = []) ∧
  (u.repaired = []) ∧
  (u.hostMask ≠ 0xFF#8) ∧
  (holdsAfter (exec (.ucieTraining u) s) (fun t => decide (t.link.st = .down ∧ t.link.mask = 0xFF#8)) = true) := by decide +kernel

theorem witness_HostLinkMoves_2_all :
  let s : State := State.reset
  let u : UcieEnv := { ucie0 with hostMask := 0x7F }
  ∀ i, i < 8 → ∃ r, u.rates[i]? = some (some r) := by
  intro s u i h; exact ⟨5, by show (List.replicate 8 (some 5))[i]? = _; rw [List.getElem?_replicate, if_pos h]⟩

theorem witness_HostLinkMoves_3 :
  let s : State := State.reset
  let c := 1
  (s.die.awake = true) ∧
  (s.die.hasHostLink = true) ∧
  (s.die.link.st ≠ .down) ∧
  (holdsAfter (exec (.dlDown c) s) (fun t => decide (t.link.st = .down ∧ t.link.vfEnable = false ∧ (t.fn 0).cc = 0)) = true) := by decide +kernel

theorem witness_HostLinkMoves_4 :
  let s : State := State.reset
  (s.die.awake = true) ∧
  (s.die.hasHostLink = true) ∧
  (s.die.link.crcSecond = s.die.now / 1000000) ∧
  (s.die.link.crcInSecond < 1000) ∧
  (holdsAfter (exec .flitCrcError s) (fun t => decide (t.link.crcInSecond = s.die.link.crcInSecond + 1 ∧ t.lb = s.die.lb)) = true) := by decide +kernel

theorem witness_HostLinkMoves_5 :
  let s : State := State.reset
  (s.die.awake = true) ∧
  (s.die.hasHostLink = true) ∧
  (s.die.link.st = .l0) ∧
  (holdsAfter (exec (.l1Request false) s) (fun t => decide (t.link.st = .l1)) = true) ∧
  (holdsAfter (exec (.l1Request true) s) (fun t => decide (t.link.st = .l0)) = true) := by decide +kernel

theorem witness_HostLinkMoves_6 :
  let s : State := at' (pf { d3 := true })
  (s.die.awake = true) ∧
  (s.die.hasHostLink = true) ∧
  ((s.die.link.st = .l0 ∨ s.die.link.st = .l1)) ∧
  (s.die.allD3 = true) ∧
  (holdsAfter (exec .l2Request s) (fun t => decide (t.link.st = .l2)) = true) := by decide +kernel

theorem witness_HostLinkMoves_7 :
  let s : State := at' { die with life := { die.life with gated := [0] } }
  let i := 0
  (s.die.awake = true) ∧
  (s.die.life.fencedIslands.contains i = false) ∧
  (s.die.noModules.contains i = false) ∧
  (holdsAfter (exec (.gatedIslandWake i) s) (fun t => decide (t.life.gated.contains i = false)) = true) := by decide +kernel

theorem witness_VectorsAreModerated_1 :
  let s : State := at' (pf { sqs := [(1, { size := 4 })] })
  let n : Nat := 0
  let y : Nat := 1
  let w : Word := 3
  (s.die.awake = true) ∧
  (bitsOf w 0 16 < ((s.die.fn n).sq y).size) ∧
  (holdsAfter (exec (.sqTailDoorbell n y w true) s) (fun t => decide (((t.fn n).sq y).tail = bitsOf w 0 16 ∧ ((t.fn n).sq y).head = ((s.die.fn n).sq y).head)) = true) := by decide +kernel

theorem witness_VectorsAreModerated_2 :
  let s : State := at' (pf { cqs := [(1, { size := 4 })] })
  let n : Nat := 0
  let y : Nat := 1
  let w : Word := 3
  (s.die.awake = true) ∧
  (bitsOf w 0 16 < ((s.die.fn n).cq y).size) ∧
  (holdsAfter (exec (.cqHeadDoorbell n y w true) s) (fun t => decide (((t.fn n).cq y).head = bitsOf w 0 16 ∧ ((t.fn n).cq y).tail = ((s.die.fn n).cq y).tail)) = true) := by decide +kernel

theorem witness_VectorsAreModerated_3 :
  let s : State := State.reset
  let n : Nat := 0
  let v : Nat := 31
  let w : Word := 0xFFFFFF00
  (s.die.awake = true) ∧
  (s.die.fnPresent n = true) ∧
  (v < (s.die.tenant n).vectors) ∧
  (holdsAfter (exec (.qeVmodWrite n v w) s) (fun t => decide (let x := ((t.fn n).vec v).vmod; bitsOf x 0 8 = max 1 (bitsOf w 0 8) ∧ bitsOf x 8 10 = min 1000 (bitsOf w 8 10) ∧ bitsOf x 18 3 = bitsOf w 18 3 ∧ bitsOf x 21 11 = 0)) = true) := by decide +kernel

theorem witness_VectorsAreModerated_4 :
  let s : State := State.reset
  let n : Nat := 0
  let v : Nat := 32
  let w : Word := 1
  (s.die.awake = true) ∧
  ((s.die.tenant n).vectors ≤ v) ∧
  (holdsAfter (exec (.qeVmodWrite n v w) s) (fun t => decide (t = s.die)) = true) := by decide +kernel

theorem witness_VectorsAreModerated_5 :
  let s : State := State.reset
  let n : Nat := 0
  let w : Word := 0xFFFFFF00
  (s.die.awake = true) ∧
  (s.die.fnPresent n = true) ∧
  (holdsAfter (exec (.qeNdefWrite n w) s) (fun t => decide (bitsOf (t.fn n).ndef 0 8 = max 1 (bitsOf w 0 8) ∧ bitsOf (t.fn n).ndef 8 10 = min 1000 (bitsOf w 8 10))) = true) := by decide +kernel

theorem witness_VectorsAreModerated_6 :
  let s : State := at' (pf { msixEn := true, vecs := [(31, { mask := false, count := 3, due := some 0 })] })
  let n : Nat := 0
  let v : Nat := 31
  let due := 0
  (s.die.awake = true) ∧
  (((s.die.fn n).vec v).due = some due) ∧
  (due ≤ s.die.now) ∧
  ((s.die.fn n).msixEn = true) ∧
  ((s.die.fn n).d3 = false) ∧
  ((s.die.fn n).funcMask = false) ∧
  (((s.die.fn n).vec v).mask = false) ∧
  (holdsAfter (exec (.moderationTimerDue n v) s) (fun t => decide (((t.fn n).vec v).count = 0 ∧ ((t.fn n).vec v).due = none ∧ t.out = .msix n v ((s.die.fn n).vec v).addr ((s.die.fn n).vec v).data :: s.die.out)) = true) := by decide +kernel

theorem witness_EventsReachHandlers_1 :
  let s : State := State.reset
  let n : Nat := 0xEFF
  let p : Word64 := 5
  (s.die.awake = true) ∧
  (n < 0xF00) ∧
  ((s.die.src n).isRecord = false) ∧
  ((s.die.src n).st = .idle) ∧
  (holdsAfter (exec (.eventOccurrence n p) s) (fun t => decide ((t.src n).st = .pending ∧ (t.src n).count = 1 ∧ (t.src n).payload = p)) = true) := by decide +kernel

theorem witness_EventsReachHandlers_2 :
  let s : State := at' { die with mc := { die.mc with srcs := [(0xEFF, { cfg := 4 })], fill := 1 } }
  let n : Nat := 0xEFF
  let p : Word64 := 5
  (s.die.awake = true) ∧
  (n < 0xF00) ∧
  ((s.die.src n).isRecord = true) ∧
  ((s.die.src n).ovf = 0) ∧
  (s.die.mc.fill < Config.recordQueue) ∧
  (0 < s.die.mc.fill) ∧
  (holdsAfter (exec (.eventOccurrence n p) s) (fun t => decide (t.mc.tail = (s.die.mc.tail + 1) % Config.recordQueue ∧ t.mc.fill = s.die.mc.fill + 1)) = true) := by decide +kernel

theorem witness_EventsReachHandlers_3 :
  let s : State := at' { die with mc := { die.mc with gen := true, srcs := [(0xFEF, { cfg := 0x01FFFF01, st := .pending, count := 1 })] } }
  let n : Nat := 0xFEF
  let c : Nat := 0
  (s.die.awake = true) ∧
  (s.die.claimable (s.die.src n) = true) ∧
  (s.die.coreFor (s.die.src n) = some c) ∧
  (s.die.goesFirst c n = false) ∧
  (holdsAfter (exec (.eventClaim n) s) (fun t => decide ((t.src n).st = .active ∧ (t.src n).count = 0 ∧ (t.src n).core = c ∧ t.handler c = some (n, (s.die.src n).prio))) = true) := by decide +kernel

theorem witness_EventsReachHandlers_4 :
  let s : State := at' { die with mc := { die.mc with srcs := [(5, { st := .active })], run := [(16, [(5, 1)])] } }
  let n : Nat := 5
  let c : Nat := 16
  let pr := 1
  let r := []
  (s.die.awake = true) ∧
  (n ≠ 0) ∧
  (Tbl.get [] s.die.mc.run c = (n, pr) :: r) ∧
  ((s.die.src n).st = .active) ∧
  (holdsAfter (exec (.eoi c n) s) (fun t => decide ((t.src n).st = .idle ∧ Tbl.get [] t.mc.run c = r)) = true) := by decide +kernel

theorem witness_EventsReachHandlers_5 :
  let s : State := State.reset
  let n : Nat := 4095
  let w : Word := 0xFFFFFFFF
  (s.die.awake = true) ∧
  (n < 4096) ∧
  (holdsAfter (exec (.evcSrcCfgWrite n w) s) (fun t => decide ((t.src n).cfg = srcCfg w ∧ bitsOf (t.src n).cfg 7 1 = 0 ∧ bitsOf (t.src n).cfg 25 7 = 0)) = true) := by decide +kernel

theorem witness_EventsReachHandlers_6 :
  let s : State := State.reset
  let w : Word := 1
  (s.die.awake = true) ∧
  (holdsAfter (exec (.evcGctrlWrite w) s) (fun t => decide (t.mc = { s.die.mc with gen := w.getLsbD 0 })) = true) := by decide +kernel

theorem witness_EventsReachHandlers_7 :
  let s : State := State.reset
  let w : Word := 0xFFFFFFFF
  (s.die.awake = true) ∧
  (holdsAfter (exec (.evcRqHeadWrite w) s) (fun t => decide (t.mc.head = bitsOf w 0 13)) = true) := by decide +kernel

theorem witness_ResetsStartTheDie_1 :
  let s : State := at' { die with life := { die.life with aonPower := false, phase := .off }, aon := { die.aon with pfN := false } }
  let e : BootEnv := boot0
  let l := s.die.life
  let waits := fun (t : Die) => t.life.phase = .waitPf ∧ t.life.startTime = s.die.now ∧ t.link.st = .down ∧ ∀ n, (t.fn n).st = .off
  (l.aonPower = false) ∧
  (l.coldRstN = true) ∧
  (s.die.aon.pfN = false) ∧
  (holdsAfter (exec (.powerOnReset e) s) (fun t => decide (t.life.aonPower = true ∧ t.life.manager = (l.pinRole && !l.partPW) ∧ t.life.quayId = l.pinQuay ∧ t.aon.zero = s.die.now)) = true) := by decide +kernel

theorem witness_ResetsStartTheDie_2 :
  let s : State := at' { die with life := { die.life with coldRstN := false, phase := .inReset }, aon := { die.aon with pfN := false } }
  let e : BootEnv := boot0
  let l := s.die.life
  let waits := fun (t : Die) => t.life.phase = .waitPf ∧ t.life.startTime = s.die.now ∧ t.link.st = .down ∧ ∀ n, (t.fn n).st = .off
  (l.coldRstN = false) ∧
  (l.aonPower = true) ∧
  (s.die.aon.pfN = false) ∧
  (holdsAfter (exec (.coldRstNRise e) s) (fun t => decide (t.life.coldRstN = true ∧ t.life.manager = (l.pinRole && !l.partPW) ∧ t.aon.zero = s.die.now)) = true) := by decide +kernel

theorem witness_ResetsStartTheDie_3 :
  let s : State := at' { die with life := { die.life with phase := .starting }, aon := { die.aon with pfN := false, time := 60000000 } }
  let e : BootEnv := boot0
  let l := s.die.life
  let waits := fun (t : Die) => t.life.phase = .waitPf ∧ t.life.startTime = s.die.now ∧ t.link.st = .down ∧ ∀ n, (t.fn n).st = .off
  (l.phase = .starting) ∧
  (l.startTime + 60000000 ≤ s.die.now) ∧
  (s.die.aon.pfN = false) ∧
  (holdsAfter (exec (.startWatchdogExpiry e) s) (fun t => decide (t.life.manager = l.manager ∧ t.aon.zero = s.die.aon.zero)) = true) := by decide +kernel

theorem witness_ResetsStartTheDie_4 :
  let s : State := at' { die with life := { die.life with phase := .parked, restart := true }, aon := { die.aon with pfN := false } }
  let e : BootEnv := boot0
  let l := s.die.life
  let waits := fun (t : Die) => t.life.phase = .waitPf ∧ t.life.startTime = s.die.now ∧ t.link.st = .down ∧ ∀ n, (t.fn n).st = .off
  (l.restart = true) ∧
  (l.phase = .parked) ∧
  (l.coldRstN = true) ∧
  (s.die.aon.pfN = false) ∧
  (holdsAfter (exec (.deviceRestart e) s) (fun t => decide (t.life.manager = l.manager ∧ t.life.restart = false)) = true) := by decide +kernel

theorem witness_ResetsStartTheDie_5 :
  let s : State := State.reset
  (holdsAfter (exec .supplyLoss s) (fun t => decide (t.life.phase = .off ∧ t.life.aonPower = false ∧ t.lb.ring = [] ∧ t.lb.lost = true ∧ t.link.st = .down)) = true) := by decide +kernel

theorem witness_ResetsStartTheDie_6 :
  let s : State := State.reset
  let k : DockEnv := dock0
  let l := s.die.life
  (s.die.settledP0 = true) ∧
  (l.coldRstN = true) ∧
  (holdsAfter (exec (.coldRstNFall k) s) (fun t => decide (t.life.phase = .parked ∧ t.life.coldRstN = false ∧ t.link.st = .down)) = true) := by decide +kernel

theorem witness_ResetsStartTheDie_7 :
  let s : State := State.reset
  let k : DockEnv := dock0
  (s.die.settledP0 = true) ∧
  (holdsAfter (exec (.pfNFall k) s) (fun t => decide (t.life.phase = .parked ∧ t.aon.pfN = false ∧ t.link.st = .down)) = true) := by decide +kernel

theorem witness_ResetsStartTheDie_8 :
  let s : State := State.reset
  let k : DockEnv := dock0
  let l := s.die.life
  let r := .vddq
  (s.die.settledP0 = true) ∧
  ((r ≠ .vucie ∨ l.manager = true)) ∧
  (holdsAfter (exec (.railOutOfWindow r k) s) (fun t => decide (t.life.phase = .parked ∧ t.life.railsOut.contains r = true)) = true) := by decide +kernel

theorem witness_ResetsStartTheDie_9 :
  let s : State := at' worker
  let k : DockEnv := dock0
  let l := s.die.life
  (s.die.settledP0 = true) ∧
  (l.manager = false) ∧
  (holdsAfter (exec (.railOutOfWindow .vucie k) s) (fun t => decide (t = s.die)) = true) := by decide +kernel

theorem witness_ResetsStartTheDie_10 :
  let s : State := State.reset
  let e : BootEnv := boot0
  (holdsAfter (exec (.pfNRise false e) s) (fun t => decide (t = { s.die with aon := { s.die.aon with pfN := true } })) = true) := by decide +kernel

theorem witness_ResetsStartTheDie_11 :
  let s : State := at' { die with life := { die.life with phase := .waitPf } }
  let e : BootEnv := { boot0 with bootStoreOk := false }
  let l := s.die.life
  (l.phase = .waitPf) ∧
  (e.bootStoreOk = false) ∧
  (holdsAfter (exec (.pfNRise true e) s) (fun t => decide (t.life.phase = .romHold ∧ t.life.alert = true)) = true) := by decide +kernel

theorem witness_ColdStartReachesReady :
  let s : State := at' { die with life := { die.life with phase := .waitPf }, aon := { die.aon with pfN := false } }
  let e : BootEnv := boot0
  (s.die.life.phase = .waitPf) ∧
  (s.die.life.manager = true) ∧
  (s.die.life.partPW = false) ∧
  (s.die.life.bootSel = false) ∧
  (s.die.units.map = []) ∧
  (s.die.units.st = []) ∧
  (s.die.fw.act.st = 0) ∧
  (s.die.fw.valid (fun _ => true) s.die.fw.act.run = true) ∧
  ((∀ i ∈ List.range 64, (s.die.sensor i).faulty = false)) ∧
  (s.die.bp.ports = []) ∧
  (s.die.lb.lost = false) ∧
  (e.smooth = true) ∧
  (holdsAfter (exec (.pfNRise true e) s) (fun t => decide (t.life.phase = .ready ∧ t.life.stopMark = .none ∧ t.aon.pfN = true)) = true) := by decide +kernel

theorem witness_PowerStatesAreEntered_1 :
  let s : State := State.reset
  let q : KReq := ask (le 1 0 ++ le 1 2 ++ le 2 1000 ++ le 4 1000 ++ le 8 0)
  let a := s.die.aon
  (s.die.takes q 0x0507 false 16 [(0, 16)] = true) ∧
  (powerBad q = none) ∧
  (q.get 0 1 = 0) ∧
  (holdsAfter (exec (.powerStateSet q) s) (fun t => decide (t.answered q.fn kOk ∧ t.aon = { a with auto := q.get 1 1, t1 := q.get 2 2, t2 := q.get 4 4, alarm := q.get 8 8 })) = true) := by decide +kernel

theorem witness_PowerStatesAreEntered_2 :
  let s : State := State.reset
  let q : KReq := ask (le 1 1 ++ le 1 0 ++ le 2 1000 ++ le 4 1000 ++ le 8 0)
  let a := s.die.aon
  (s.die.takes q 0x0507 false 16 [(0, 16)] = true) ∧
  (powerBad q = none) ∧
  (q.get 0 1 ≠ 0) ∧
  (a.pstate = 0) ∧
  (a.entering = false) ∧
  (a.committed = false) ∧
  ((s.die.accepted q 0x0507).powerRefusal (q.get 0 1) 0x0507 = none) ∧
  (holdsAfter (exec (.powerStateSet q) s) (fun t => decide (t.answered q.fn kOk ∧ t.aon.entering = true ∧ t.aon.target = q.get 0 1 ∧ t.aon.pstate = 0)) = true) := by decide +kernel

theorem witness_PowerStatesAreEntered_3 :
  let s : State := at' { die with aon := { die.aon with auto := 1, idleFrom := some 0, time := 2000 } }
  let a := s.die.aon
  let since := 0
  (s.die.life.phase = .ready) ∧
  (a.entering = false) ∧
  (a.committed = false) ∧
  (a.pstate = 0) ∧
  (1 ≤ a.auto) ∧
  (s.die.powerRefusal 1 0 = none) ∧
  (a.idleFrom = some since) ∧
  (since + 1000 * a.t1 ≤ s.die.now) ∧
  (holdsAfter (exec .idleTimerP1 s) (fun t => decide (t = s.die.beginEntry 1)) = true) := by decide +kernel

theorem witness_PowerStatesAreEntered_4 :
  let s : State := at' { die with aon := { die.aon with auto := 2, pstate := 1, idleFrom := some 0, time := 10000000 } }
  let a := s.die.aon
  let since := 0
  (s.die.life.phase = .ready) ∧
  (a.entering = false) ∧
  (a.committed = false) ∧
  (a.pstate = 1) ∧
  (2 ≤ a.auto) ∧
  (s.die.powerRefusal 2 0 = none) ∧
  (a.idleFrom = some since) ∧
  (since + 1000 * a.t2 ≤ s.die.now) ∧
  (holdsAfter (exec .idleTimerP2 s) (fun t => decide (t = s.die.beginEntry 2)) = true) := by decide +kernel

theorem witness_PowerStatesAreEntered_5 :
  let s : State := at' { die with aon := { die.aon with pstate := 1 } }
  let a := s.die.aon
  let c := 1
  let b := []
  let ch := []
  let bs := []
  (s.die.awake = true) ∧
  (a.entering = false) ∧
  (a.committed = false) ∧
  (a.pstate = 1) ∧
  (wakesFrom c 1 = true) ∧
  (holdsAfter (exec (.wakeSource c b ch bs) s) (fun t => decide (t.aon.pstate = 0 ∧ t.aon.wake = c ∧ t.aon.wakeTime = a.time - a.zero ∧ t.life.gated = s.die.noModules ∧ t.te = s.die.te)) = true) := by decide +kernel

theorem witness_PowerStatesAreEntered_6 :
  let s : State := at' { die with aon := { die.aon with entering := true, target := 1 } }
  let a := s.die.aon
  let c := 1
  let b := []
  let ch := []
  let bs := []
  (s.die.awake = true) ∧
  (a.entering = true) ∧
  (wakesFrom c a.target = true) ∧
  (holdsAfter (exec (.wakeSource c b ch bs) s) (fun t => decide (t.aon.entering = false ∧ t.aon.pstate = 0 ∧ t.aon.wake = a.wake)) = true) := by decide +kernel

theorem witness_PowerStatesAreEntered_7 :
  let s : State := at' { die with aon := { die.aon with committed := true, target := 1 } }
  let a := s.die.aon
  let c := 1
  let b := []
  let ch := []
  let bs := []
  (s.die.awake = true) ∧
  (a.entering = false) ∧
  (a.committed = true) ∧
  (a.latched = none) ∧
  (wakesFrom c a.target = true) ∧
  (holdsAfter (exec (.wakeSource c b ch bs) s) (fun t => decide (t = { s.die with aon := { a with latched := some c } })) = true) := by decide +kernel

theorem witness_ClocksAndVoltageFollow_1 :
  let s : State := State.reset
  let ps : List Nat := List.replicate 63 7 ++ [65535]
  (s.die.awake = true) ∧
  (ps.length = 64) ∧
  ((∀ p ∈ ps, p < 65536)) ∧
  (holdsAfter (exec (.paceSample ps) s) (fun t => decide (t.aon.paceMax = ps.foldl max 0 ∧ t.aon.paceMon = ps.findIdx (fun x => x == ps.foldl max 0) ∧ t.aon.vcore = s.die.aon.vcore)) = true) := by decide +kernel

theorem witness_ClocksAndVoltageFollow_2 :
  let s : State := at' { die with aon := { die.aon with paceMax := 501, vcore := 849 } }
  let n : Nat := 0
  (s.die.awake = true) ∧
  (s.die.aon.fixed = false) ∧
  (s.die.sch.profile ≠ 3) ∧
  (500 < s.die.aon.paceMax) ∧
  (s.die.aon.vcore < 850) ∧
  (holdsAfter (exec (.vcoreAdjust n) s) (fun t => decide (True)) = true) := by decide +kernel

theorem witness_ClocksAndVoltageFollow_3 :
  let s : State := at' { die with aon := { die.aon with fixed := true } }
  let n : Nat := 0
  (s.die.awake = true) ∧
  (s.die.aon.fixed = true) ∧
  (holdsAfter (exec (.vcoreAdjust n) s) (fun t => decide (t.aon.vcore = s.die.aon.vcore ∧ t.out = s.die.out)) = true) := by decide +kernel

theorem witness_ClocksAndVoltageFollow_4 :
  let s : State := State.reset
  (s.die.awake = true) ∧
  (holdsAfter (exec .avsAbsent s) (fun t => decide (t.aon.fixed = true ∧ t.aon.vcore = s.die.aon.vcore)) = true) := by decide +kernel

theorem witness_ClocksAndVoltageFollow_5 :
  let s : State := State.reset
  (s.die.awake = true) ∧
  (holdsAfter (exec .oscTrim s) (fun t => decide (t = { s.die with aon := { s.die.aon with trims := s.die.aon.trims + 1 } })) = true) := by decide +kernel

theorem witness_ClocksAndVoltageFollow_6 :
  let s : State := State.reset
  (s.die.awake = true) ∧
  (holdsAfter (exec .clockLost s) (fun t => decide (t.aon = { s.die.aon with crystal := false })) = true) := by decide +kernel

theorem witness_ClocksAndVoltageFollow_7 :
  let s : State := State.reset
  (s.die.awake = true) ∧
  (holdsAfter (exec .crystalStable s) (fun t => decide (t = { s.die with aon := { s.die.aon with crystal := true } })) = true) := by decide +kernel

theorem witness_ClocksAndVoltageFollow_8 :
  let s : State := at' { die with life := { die.life with ladder := [(rungKey 0 0, { step := 1 })] }, aon := { die.aon with time := 3600000000 } }
  let n : Nat := 0
  let i : Nat := 0
  (s.die.awake = true) ∧
  ((s.die.rung n i).step ≠ 0) ∧
  ((s.die.rung n i).last + 3600000000 ≤ s.die.now) ∧
  (holdsAfter (exec (.ladderIdleReset n i) s) (fun t => decide (t.rung n i = {} ∧ t.ladderStep n i false = ((ladderSteps n)[0]?).getD 1 ∧ t.lb = s.die.lb)) = true) := by decide +kernel

theorem witness_ClocksAndVoltageFollow_9 :
  let s : State := at' { die with qe := { die.qe with writeHold := true }, aon := { die.aon with limit := 100 } }
  (s.die.awake = true) ∧
  (s.die.unsettled + Config.limitUnit ≤ s.die.rescueLimit) ∧
  (holdsAfter (exec .heldWritesRelease s) (fun t => decide (t = { s.die with qe := { s.die.qe with writeHold := false } })) = true) := by decide +kernel

theorem witness_SensorsAndBreakwater_1 :
  let s : State := State.reset
  let a := s.die.aon
  let v : Int := 899
  let k := dock0
  (s.die.awake = true) ∧
  (-400 ≤ v) ∧
  (v < 900) ∧
  (a.sensors = []) ∧
  (a.th = .normal) ∧
  (holdsAfter (exec (.sensorSample (List.replicate 64 (some v)) k) s) (fun t => decide (t.aon.th = .normal ∧ t.aon.composite = (v / 10).toNat ∧ t.lb = s.die.lb)) = true) := by decide +kernel

theorem witness_SensorsAndBreakwater_2 :
  let s : State := State.reset
  let q : KReq := ask (le 1 63 ++ le 1 0)
  (s.die.takes q 0x050A false 2 [(0, 2)] = true) ∧
  (q.get 0 1 < 64) ∧
  (q.get 1 1 = 0) ∧
  (holdsAfter (exec (.sensorExclude q) s) (fun t => decide (t.answered q.fn kOk ∧ (t.sensor (q.get 0 1)).excluded = false)) = true) := by decide +kernel

theorem witness_SensorsAndBreakwater_3 :
  let s : State := at' { die with mc := { die.mc with policy := 0, policyForce := 0 } }
  let q : KReq := ask (le 2 63 ++ le 2 32767 ++ le 2 60)
  (s.die.takes q 0x0D03 false 6 [(0, 1), (2, 4)] = true) ∧
  (s.die.testLock = false) ∧
  (q.get 0 1 < 64) ∧
  (1 ≤ q.get 4 2) ∧
  (q.get 4 2 ≤ 60) ∧
  (q.get 2 2 < 32768) ∧
  (holdsAfter (exec (.sensorOverride q) s) (fun t => decide (t.answered q.fn kOk ∧ (t.sensor (q.get 0 1)).override = some ((q.get 2 2 : Int), s.die.now + q.get 4 2 * 1000000))) = true) := by decide +kernel

theorem witness_SensorsAndBreakwater_4 :
  let s : State := at' { die with aon := { die.aon with time := 100000 } }
  let a := s.die.aon
  (s.die.awake = true) ∧
  (a.stepAt + 100000 ≤ s.die.now) ∧
  (holdsAfter (exec .throttleStepTimer s) (fun t => decide (t.aon.stepAt = s.die.now ∧ t.aon.step = if a.th = .throttle then min 4 (a.step + 1) else a.step - 1)) = true) := by decide +kernel

theorem witness_SensorsAndBreakwater_5 :
  let s : State := at' { die with aon := { die.aon with verdict := .healthy, cRated := 2 ^ 23, eta := 100 } }
  let a := s.die.aon
  let mV := 12000
  let c := if a.cap = 0 then a.cRated / 2 else a.cap
  (s.die.awake = true) ∧
  (a.verdict = .healthy) ∧
  (a.bwTest = false) ∧
  (4 ≤ limitUnits c mV a.vMin a.eta) ∧
  (s.die.unsettled ≤ limitUnits c mV a.vMin a.eta * Config.limitUnit) ∧
  (holdsAfter (exec (.breakwaterSample mV) s) (fun t => decide (t.aon.volt = mV % 65536 ∧ t.aon.limit = limitUnits c mV a.vMin a.eta ∧ t.aon.energy = a.energyAt mV % 2 ^ 32 ∧ t.aon.verdict = .healthy ∧ t.lb = s.die.lb ∧ t.qe = s.die.qe)) = true) := by decide +kernel

theorem witness_SensorsAndBreakwater_6 :
  let s : State := State.reset
  let q : KReq := ask (padTo 16 [])
  let a := s.die.aon
  (s.die.takes q opBreakwaterTest false 16 [(0, 7), (8, 8)] = true) ∧
  (a.bwTest = false) ∧
  (holdsAfter (exec (.breakwaterTest q) s) (fun t => decide (t.stillRuns q.fn opBreakwaterTest ∧ t.aon.bwTest = true ∧ t.aon.chgEn = false ∧ t.aon.testFn = some q.fn)) = true) := by decide +kernel

theorem witness_SensorsAndBreakwater_7 :
  let s : State := at' { die with aon := { die.aon with time := 86400000000 } }
  let a := s.die.aon
  (s.die.life.phase = .ready) ∧
  (a.bwTest = false) ∧
  (a.pstate = 0) ∧
  (a.testAt + 86400000000 ≤ s.die.now) ∧
  (holdsAfter (exec .breakwaterTestPeriodic s) (fun t => decide (t.aon.bwTest = true ∧ t.aon.chgEn = false ∧ t.aon.v0 = a.volt ∧ t.aon.testFn = none)) = true) := by decide +kernel

theorem witness_SensorsAndBreakwater_8 :
  let s : State := at' { die with aon := { die.aon with bwTest := true } }
  let a := s.die.aon
  let us := 20000
  let v1 := 0
  let c := 2 ^ 24 - 1
  (s.die.awake = true) ∧
  (a.bwTest = true) ∧
  (us ≤ 20000) ∧
  (100 * v1 ≤ 97 * a.v0) ∧
  (a.cRated ≤ 5 * c) ∧
  (c < 2 ^ 24) ∧
  (holdsAfter (exec (.breakwaterTestEnd us v1 c) s) (fun t => decide (t.aon.bwTest = false ∧ t.aon.chgEn = true ∧ t.aon.cap = c ∧ t.aon.capAt = s.die.now)) = true) := by decide +kernel

theorem witness_StallsAndWatchdogs_1 :
  let s : State := State.reset
  let dk : DockEnv := dock0
  let n : Nat := 4095
  let sub := 14
  (s.die.awake = true) ∧
  (1 ≤ sub) ∧
  (sub ≤ 14) ∧
  (n < 4096) ∧
  (s.die.ladderStep 0 (stallInst sub n) false = 2) ∧
  (holdsAfter (exec (.handshakeStall sub n true dk) s) (fun t => decide ((t.rung 0 (stallInst sub n)).step = 2 ∧ (t.rung 0 (stallInst sub n)).last = s.die.now ∧ t.units = s.die.units ∧ t.qe = s.die.qe ∧ t.life.phase = s.die.life.phase)) = true) := by decide +kernel

theorem witness_StallsAndWatchdogs_2 :
  let s : State := at' { die with units := { die.units with st := [(unitKey 3 16, .inService)] }, mc := { die.mc with srcs := [(5, { st := .active })], run := [(16, [(5, 1)])] } }
  let dk : DockEnv := dock0
  let n : Nat := 16
  (s.die.awake = true) ∧
  (n < 17) ∧
  (s.die.unit 3 n = .inService) ∧
  (s.die.fw.live = false) ∧
  (s.die.ladderStep 5 n false = 2) ∧
  (holdsAfter (exec (.coreWatchdog n dk) s) (fun t => decide (t.handler n = none)) = true) := by decide +kernel

theorem witness_StallsAndWatchdogs_3 :
  let s : State := State.reset
  let n : Nat := 3
  let u := ucie0
  (s.die.awake = true) ∧
  (n < 4) ∧
  (s.die.life.refclkLost.contains n = false) ∧
  (holdsAfter (exec (.refclkLoss n u) s) (fun t => decide (t.life.refclkLost.contains n = true)) = true) := by decide +kernel

theorem witness_StallsAndWatchdogs_4 :
  let s : State := State.reset
  let n : Nat := 127
  (holdsAfter (exec (.i3cDynamicAddressAssign n) s) (fun t => decide (t = { s.die with life := { s.die.life with i3cAddr := some (n % 128) } })) = true) := by decide +kernel

theorem witness_StallsAndWatchdogs_5 :
  let s : State := State.reset
  let n : Nat := 0
  (holdsAfter (exec (.jtagInstruction true n) s) (fun t => decide (t = { s.die with life := { s.die.life with jtagScan := true } })) = true) := by decide +kernel

theorem witness_StallsAndWatchdogs_6 :
  let s : State := at' { die with mc := { die.mc with policy := 1, policyForce := 1 } }
  let n : Nat := 0
  (s.die.jtagLock = true) ∧
  (holdsAfter (exec (.jtagInstruction false n) s) (fun t => decide (t = { s.die with life := { s.die.life with jtagScan := false } })) = true) := by decide +kernel

theorem witness_MailboxesTimeOut_1 :
  let s : State := at' { pf { mbx := { st := .running, opcode := 0x0101 } } with aon := { die.aon with time := classLimit (kClass 0x0101) } }
  let n : Nat := 0
  let m := (s.die.fn n).mbx
  (s.die.awake = true) ∧
  (m.st = .running) ∧
  (s.die.qe.hold = false) ∧
  (m.classFrom + classLimit (kClass m.opcode) ≤ s.die.now) ∧
  (holdsAfter (exec (.kanexTimeout n) s) (fun t => decide ((t.fn n).mbx.st = .done ∧ (t.fn n).mbx.stopping = true)) = true) := by decide +kernel

theorem witness_MailboxesTimeOut_2 :
  let s : State := at' { pf { mbx := { stopping := true } } with aon := { die.aon with time := 1000000 } }
  let n : Nat := 0
  let m := (s.die.fn n).mbx
  (s.die.awake = true) ∧
  (m.stopping = true) ∧
  (m.classFrom + 1000000 ≤ s.die.now) ∧
  (holdsAfter (exec (.kanexStopTimeout n) s) (fun t => decide ((t.fn n).mbx.stopping = false ∧ (t.fn n).mbx.resp = m.resp)) = true) := by decide +kernel

theorem witness_MailboxesTimeOut_3 :
  let s : State := at' (pf { mbx := { st := .running, opcode := opBreakwaterTest, seq := 5 } })
  let n : Nat := 0
  let m := (s.die.fn n).mbx
  let q := 65536 + 5
  (s.die.awake = true) ∧
  (s.die.mbxPresent n = true) ∧
  (s.die.mbxUnavailable n = false) ∧
  (m.st = .running) ∧
  (m.seq = q % 65536) ∧
  (kClass m.opcode = 2) ∧
  (m.answers = []) ∧
  ((s.die.fw.live = false ∨ m.opcode ≠ 0x0904)) ∧
  (holdsAfter (exec (.abandon n q) s) (fun t => decide (t.answered n kAbandoned)) = true) := by decide +kernel

theorem witness_MailboxesTimeOut_4 :
  let s : State := at' (pf { mbx := { st := .running, opcode := opBreakwaterTest, seq := 5 } })
  let n : Nat := 0
  let m := (s.die.fn n).mbx
  let q := 6
  (s.die.awake = true) ∧
  (s.die.mbxPresent n = true) ∧
  (s.die.mbxUnavailable n = false) ∧
  (m.st = .running) ∧
  (m.seq ≠ q % 65536) ∧
  (holdsAfter (exec (.abandon n q) s) (fun t => decide (t = s.die.mbxEvent n 2 false ∧ (t.fn n).mbx = { m with event := m.event ||| 4#3 })) = true) := by decide +kernel

theorem witness_MailboxesTimeOut_5 :
  let s : State := State.reset
  let q := ask []
  let op := 0x0FFF
  (catRow op = none) ∧
  (s.die.takesFrame q op true = true) ∧
  (holdsAfter (exec (.unknownCommand q op) s) (fun t => decide (t.answered q.fn kUnknown ∧ t.sameButAnswer s.die)) = true) := by decide +kernel

theorem witness_MailboxesTimeOut_6 :
  let s : State := at' { die with mc := { die.mc with policy := 0, policyForce := 0 } }
  let q := ask (le 2 0xFFF ++ le 1 2 ++ le 1 0 ++ le 4 0 ++ le 8 77)
  (s.die.takes q 0x0D02 false 16 [(0, 7), (8, 8)] = true) ∧
  (s.die.testLock = false) ∧
  (eventInjectBad q = none) ∧
  ((injectCfg q).getLsbD 2 = false) ∧
  ((s.die.src (q.get 0 2)).st = .idle) ∧
  (holdsAfter (exec (.eventInject q) s) (fun t => decide (t.answered q.fn kOk ∧ (t.src (q.get 0 2)).st = .pending ∧ (t.src (q.get 0 2)).count = q.get 2 1 ∧ (t.src (q.get 0 2)).payload = BitVec.ofNat 64 (q.get 8 8) ∧ t.aon = s.die.aon)) = true) := by decide +kernel

theorem witness_FirmwareIsUpdated_1 :
  let s : State := at' charged
  let q : KReq := { ask (le 1 2 ++ le 1 0 ++ le 4 0xFFFFFFFF ++ le 2 0) with len := 264 }
  let f := s.die.fw
  let free := s.die.updateLock = false ∧ s.die.lowEnergy = false
  let hdr := img
  let p := q.withHeader hdr
  let g := f.target (p.get 0 1)
  (s.die.takes p 0x0901 false 264 [(0, 1), (2, 4), (8, 256)] = true) ∧
  (updBeginBad p = none) ∧
  (free) ∧
  ((match f.session with | some x => x.2 | none => false) = false) ∧
  ((f.slot g).inUse = false) ∧
  (holdsAfter (exec (.updBegin q hdr) s) (fun t => decide (t.appliedWith s.die q.fn (le 4 (t.fw.slot g).nextBlock) ∧ t.fw.session = some (g, false) ∧ (t.fw.slot g).st = .incomplete ∧ (t.fw.slot g).image = ImgHeader.ofBytes ((p.payload.drop 8).take 256) ∧ t.fw.window = if p.get 2 4 = 0xFFFFFFFF then 600 else p.get 2 4)) = true) := by decide +kernel

theorem witness_FirmwareIsUpdated_2 :
  let s : State := at' { charged with fw := { (fwB .incomplete) with session := some (1, false), b := { st := .incomplete, hdr := some img } } }
  let q : KReq := { ask (le 4 0 ++ le 1 2) with dlen := 131072 }
  let f := s.die.fw
  let free := s.die.updateLock = false ∧ s.die.lowEnergy = false
  let i := 1
  let ok := [true, true]
  (s.die.takes q 0x0902 false 5 [(0, 5)] = true) ∧
  (s.die.updBlockBad q = none) ∧
  (free) ∧
  (f.session = some (i, false)) ∧
  (i < 2) ∧
  (q.dlen = 65536 * q.get 4 1) ∧
  ((∀ j, j < q.get 4 1 → ok[j]? = some true)) ∧
  (holdsAfter (exec (.updBlock q (some ok)) s) (fun t => decide (t.applied s.die q.fn)) = true) := by decide +kernel

theorem witness_FirmwareIsUpdated_3 :
  let s : State := at' { charged with fw := { (fwB .incomplete) with session := some (1, false), b := { st := .incomplete, hdr := some img } } }
  let q : KReq := { ask (le 4 0 ++ le 1 2) with dlen := 131072 }
  let f := s.die.fw
  let free := s.die.updateLock = false ∧ s.die.lowEnergy = false
  let i := 1
  (s.die.takes q 0x0902 false 5 [(0, 5)] = true) ∧
  (s.die.updBlockBad q = none) ∧
  (free) ∧
  (f.session = some (i, false)) ∧
  (q.dlen = 65536 * q.get 4 1) ∧
  (holdsAfter (exec (.updBlock q none) s) (fun t => decide (t.answered q.fn kBadParameter ∧ (t.fn q.fn).mbx.resp.map (·.detail) = some 24 ∧ (t.fn q.fn).ferr.getLsbD 1 = true ∧ t.fw = s.die.fw)) = true) := by decide +kernel

theorem witness_FirmwareIsUpdated_5 :
  let s : State := at' { charged with fw := fwB .verified }
  let q : KReq := ask (le 1 1 ++ le 1 2)
  let f := s.die.fw
  let free := s.die.updateLock = false ∧ s.die.lowEnergy = false
  let i := 1
  let x := false
  let e := boot0
  (s.die.takes q 0x0904 false 2 [(0, 2)] = true) ∧
  (q.get 0 1 = 1) ∧
  (q.get 1 1 ≤ 2) ∧
  (free) ∧
  (s.die.activationMoving = false) ∧
  (f.onTrial = false) ∧
  (f.chosen (q.get 1 1) = some i) ∧
  (holdsAfter (exec (.updActivate q x e) s) (fun t => decide (t.applied s.die q.fn ∧ t.fw.act.st = 1 ∧ t.fw.act.new = some i ∧ t.fw.act.run = f.act.run ∧ t.fw.session = none)) = true) := by decide +kernel

theorem witness_FirmwareIsUpdated_6 :
  let s : State := at' { charged with fw := fwB .verified }
  let q : KReq := ask (le 1 0 ++ le 1 0)
  let f := s.die.fw
  let free := s.die.updateLock = false ∧ s.die.lowEnergy = false
  let i := 1
  let e := boot0
  (s.die.takes q 0x0904 false 2 [(0, 2)] = true) ∧
  (q.get 0 1 = 0) ∧
  (q.get 1 1 ≤ 2) ∧
  (free) ∧
  (s.die.activationMoving = false) ∧
  (f.onTrial = false) ∧
  (f.chosen (q.get 1 1) = some i) ∧
  (s.die.liveAllowed i = true) ∧
  (holdsAfter (exec (.updActivate q false e) s) (fun t => decide (True)) = true) := by decide +kernel

theorem witness_FirmwareIsUpdated_7 :
  let s : State := at' { charged with fw := fwB .verified, aon := { charged.aon with pfN := false } }
  let q : KReq := ask (le 1 2 ++ le 1 0)
  let f := s.die.fw
  let free := s.die.updateLock = false ∧ s.die.lowEnergy = false
  let i := 1
  let x := false
  let e := boot0
  (s.die.takes q 0x0904 false 2 [(0, 2)] = true) ∧
  (q.get 0 1 = 2) ∧
  (q.get 1 1 ≤ 2) ∧
  (free) ∧
  (s.die.activationMoving = false) ∧
  (f.onTrial = false) ∧
  (f.chosen (q.get 1 1) = some i) ∧
  (s.die.aon.pfN = false) ∧
  (holdsAfter (exec (.updActivate q x e) s) (fun t => decide (t.life.phase = .waitPf ∧ t.fw.act.st = 1 ∧ t.fw.act.new = some i)) = true) := by decide +kernel

theorem witness_FirmwareIsUpdated_8 :
  let s : State := at' { die with fw := { (fwB .verified) with live := true, act := { st := 1, new := some 1 } }, qe := { die.qe with hold := true }, aon := { die.aon with time := 100000 } }
  let f := s.die.fw
  (s.die.awake = true) ∧
  (f.live = true) ∧
  (f.holdAt + 100000 ≤ s.die.now) ∧
  (holdsAfter (exec .activationHoldExpiry s) (fun t => decide (t.fw.live = false ∧ t.qe.hold = false ∧ t.fw.act.st = 0 ∧ t.fw.act.new = none)) = true) := by decide +kernel

theorem witness_FirmwareIsUpdated_9 :
  let s : State := at' { charged with fw := { (fwB .trial) with act := { st := 2, new := some 1 } } }
  let q : KReq := ask []
  let f := s.die.fw
  (s.die.takes q 0x0905 false 0 [] = true) ∧
  (s.die.updateLock = false) ∧
  (f.act.st = 2) ∧
  (holdsAfter (exec (.updConfirm q) s) (fun t => decide (t.applied s.die q.fn ∧ t.fw = f.confirm)) = true) := by decide +kernel

theorem witness_FirmwareIsUpdated_10 :
  let s : State := at' { die with fw := { (fwB .trial) with act := { st := 2, new := some 1 } }, aon := { die.aon with time := 600000000 } }
  let f := s.die.fw
  (s.die.awake = true) ∧
  (f.act.st = 2) ∧
  (f.window ≠ 0) ∧
  (f.discarded = false) ∧
  (f.windowErr = false) ∧
  (s.die.aon.pstate = 0) ∧
  (f.windowFrom + f.window * 1000000 ≤ s.die.now) ∧
  (holdsAfter (exec .confirmationWindowEnd s) (fun t => decide (t.fw = f.confirm ∧ t.fw.act.st = 0 ∧ t.fw.act.run = f.act.new.getD (1 - f.act.run))) = true) := by decide +kernel

theorem witness_FirmwareIsUpdated_11 :
  let s : State := at' { charged with fw := fwB .complete }
  let q : KReq := ask (le 1 2)
  let f := s.die.fw
  let k := q.get 0 1 - 1
  (s.die.takes q 0x0907 false 1 [(0, 1)] = true) ∧
  (s.die.updateLock = false) ∧
  (1 ≤ q.get 0 1) ∧
  (q.get 0 1 ≤ 2) ∧
  ((f.slot k).st ≠ .running) ∧
  (holdsAfter (exec (.updDiscard q) s) (fun t => decide (t.applied s.die q.fn ∧ ((f.slot k).st ≠ .trial → t.fw.slot k = {}) ∧ ((f.slot k).st = .trial → t.fw.discarded = true ∧ t.fw.act.trials = 0))) = true) := by decide +kernel

theorem witness_FirmwareCommandsComplete_1 :
  let s : State := at' (under charged (adminT (sqe 0x11 0 16383 0 0 0)))
  let t : Nat := 9
  let e : SqEntry := sqe 0x11 0 16383 0 0 0
  let last := false
  let h := img
  (s.die.adminTag t 0x11 e) ∧
  (s.die.downloadRefused (4 * e.cdw11.toNat) (4 * (e.cdw10.toNat + 1)) last = none) ∧
  (holdsAfter (exec (.firmwareImageDownload t last h []) s) (fun d => decide (d.ends t stOk)) = true) := by decide +kernel

theorem witness_BerthLinksTrain_1 :
  let s : State := at' (berth { st := .training })
  let p : Nat := 1023
  let x := s.die.port p
  (s.die.awake = true) ∧
  (x.st = .training) ∧
  (x.step = 0) ∧
  (holdsAfter (exec (.trainingAttempt p false true) s) (fun t => decide ((t.port p).st = .training ∧ (t.port p).step = 5 ∧ (t.port p).attempts = satInc 255 x.attempts)) = true) := by decide +kernel

theorem witness_BerthLinksTrain_2 :
  let s : State := at' (berth { st := .training, step := 6, okTs1 := 15 })
  let p : Nat := 1023
  let x := s.die.port p
  let ts : Ts := ts0
  (s.die.awake = true) ∧
  (p < Config.ports) ∧
  ((readTs ts).ok = true) ∧
  (x.inTraining = true) ∧
  (x.step ≤ 6) ∧
  ((readTs ts).src = true) ∧
  ((readTs ts).portId = p) ∧
  ((readTs ts).nonce = x.nonce) ∧
  ((readTs ts).inverted = false) ∧
  ((readTs ts).rxinv = false) ∧
  (x.okTs1 = 15) ∧
  (holdsAfter (exec (.ts1Received p ts) s) (fun t => decide ((t.port p).step = 7)) = true) := by decide +kernel

theorem witness_BerthLinksTrain_3 :
  let s : State := at' (berth { st := .training, step := 7, ts2 := 15 })
  let p : Nat := 1023
  let x := s.die.port p
  let ts : Ts := ts0
  (s.die.awake = true) ∧
  ((readTs ts).ok = true) ∧
  (x.inTraining = true) ∧
  (x.waking = false) ∧
  (x.step = 7) ∧
  (x.ts2 = 15) ∧
  (holdsAfter (exec (.ts2Received p ts) s) (fun t => decide ((t.port p).step = (if (readTs ts).rate32 && !(x.retrain && !x.rate32) then 8 else 9) ∧ (t.port p).st = x.st)) = true) := by decide +kernel

theorem witness_BerthLinksTrain_4 :
  let s : State := at' (berth { st := .training, step := 9, ts2 := 15 })
  let p : Nat := 1023
  let x := s.die.port p
  let ts : Ts := ts0
  (s.die.awake = true) ∧
  ((readTs ts).ok = true) ∧
  (x.inTraining = true) ∧
  (x.waking = false) ∧
  (x.step = 9) ∧
  (x.ts2 = 15) ∧
  (holdsAfter (exec (.ts2Received p ts) s) (fun t => decide ((t.port p).step = 10 ∧ (t.port p).asked lmgtCredit = true ∧ t.out = .lane p (flitBlocks lfsrSeed (x.lmgtFlit lmgtCredit 0)) :: s.die.out)) = true) := by decide +kernel

theorem witness_BerthLinksTrain_5 :
  let s : State := at' (berth { st := .training, step := 10, lmgt := [(lmgtCredit, 0)] })
  let p : Nat := 1023
  let x := s.die.port p
  let a := 1
  let b := 4095
  (s.die.awake = true) ∧
  (a ≠ 0) ∧
  (b ≠ 0) ∧
  (x.asked lmgtCredit = true) ∧
  (x.step = 10) ∧
  (x.st = .training) ∧
  (holdsAfter (exec (.creditInit p a b) s) (fun t => decide ((t.port p).st = .identifying ∧ (t.port p).lpwr = .l0 ∧ (t.port p).step = 0)) = true) := by decide +kernel

theorem witness_BerthLinksTrain_6 :
  let s : State := at' (berth { port0 with step := 10, retrain := true, lmgt := [(lmgtCredit, 0)] })
  let p : Nat := 1023
  let x := s.die.port p
  let a := 1
  let b := 4095
  (s.die.awake = true) ∧
  (a ≠ 0) ∧
  (b ≠ 0) ∧
  (x.asked lmgtCredit = true) ∧
  (x.step = 10) ∧
  (x.st ≠ .training) ∧
  (x.retrain = true) ∧
  (holdsAfter (exec (.creditInit p a b) s) (fun t => decide ((t.port p).st = x.st ∧ (t.port p).lpwr = .l0 ∧ (t.port p).retrain = false)) = true) := by decide +kernel

theorem witness_BerthLinksTrain_7 :
  let s : State := at' { berth { st := .training, step := 7 } with aon := { die.aon with time := 50 } }
  let p : Nat := 1023
  let x := s.die.port p
  (s.die.awake = true) ∧
  (x.st = .training) ∧
  (x.step = 7) ∧
  (x.stepAt + 50 ≤ s.die.now) ∧
  (x.failed < 2) ∧
  (holdsAfter (exec (.trainingStepTimeout p 7) s) (fun t => decide ((t.port p).failed = x.failed + 1 ∧ (t.port p).step = 0 ∧ (t.port p).st = .training)) = true) := by decide +kernel

theorem witness_BerthLinksTrain_8 :
  let s : State := at' { berth { st := .training, step := 5 } with aon := { die.aon with time := 100000 } }
  let p : Nat := 1023
  let x := s.die.port p
  (s.die.awake = true) ∧
  (x.st = .training) ∧
  (x.step = 5) ∧
  (x.boundFrom + 100000 ≤ s.die.now) ∧
  (holdsAfter (exec (.trainingStepTimeout p 5) s) (fun t => decide ((t.port p).st = .fault ∧ (t.port p).cause = causeOpenRx)) = true) := by decide +kernel

theorem witness_BerthLinksTrain_9 :
  let s : State := at' (berth { port0 with step := 8, retrain := true, eqFails := 1 })
  let p : Nat := 1023
  let x := s.die.port p
  (s.die.awake = true) ∧
  (x.inTraining = true) ∧
  (x.step = 8) ∧
  (1 ≤ x.eqFails) ∧
  (holdsAfter (exec (.trainingStepTimeout p 8) s) (fun t => decide ((t.port p).step = 9 ∧ (t.port p).rate32 = false ∧ (t.port p).st = x.st)) = true) := by decide +kernel

theorem witness_BerthLinksTrain_10 :
  let s : State := at' { berth { port0 with retrain := true } with aon := { die.aon with time := 2000 } }
  let p : Nat := 1023
  let x := s.die.port p
  (s.die.awake = true) ∧
  (x.linked = true) ∧
  (x.retrain = true) ∧
  (x.retrainAt + 2000 ≤ s.die.now) ∧
  (x.losses.length < 3) ∧
  (holdsAfter (exec (.retrainTimeout p) s) (fun t => decide ((t.port p).retrain = true ∧ (t.port p).retrainAt = s.die.now ∧ (t.port p).step = 5)) = true) := by decide +kernel

theorem witness_BerthLinksTrain_11 :
  let s : State := at' (berth port0)
  let p : Nat := 1023
  let x := s.die.port p
  (s.die.awake = true) ∧
  (x.linked = true) ∧
  ((x.retrains = 0 ∨ x.retrainAt + 10000 ≤ s.die.now)) ∧
  (holdsAfter (exec (.retrainReq p) s) (fun t => decide ((t.port p).retrain = true ∧ (t.port p).retrains = (x.retrains + 1) % 2 ^ 32 ∧ (t.port p).st = x.st)) = true) := by decide +kernel

theorem witness_BerthLinksTrain_12 :
  let s : State := at' (berth port0)
  let p : Nat := 1023
  (s.die.awake = true) ∧
  (holdsAfter (exec (.skpReceived p) s) (fun t => decide (t = s.die)) = true) := by decide +kernel

theorem witness_BerthLinksTrain_13 :
  let s : State := at' (berth port0)
  let p : Nat := 1023
  (s.die.awake = true) ∧
  (holdsAfter (exec (.eiosReceived p) s) (fun t => decide (t = s.die)) = true) := by decide +kernel

theorem witness_BerthLinksTrain_14 :
  let s : State := at' (berth { port0 with lpwr := .ls })
  let p : Nat := 1023
  let x := s.die.port p
  (s.die.awake = true) ∧
  ((x.lpwr = .ls ∨ x.lpwr = .ld)) ∧
  (holdsAfter (exec (.wakeOrderedSetReceived p) s) (fun t => decide ((t.port p).offLane = ({ x with lpwr := .l0, waking := x.lpwr == .ld } : Port).offLane ∧ (t.port p).txLfsr = lfsrSeed ∧ (t.port p).rxLfsr = lfsrSeed ∧ (t.port p).txIdle = false)) = true) := by decide +kernel

theorem witness_BerthLinksCarryFlits_1 :
  let s : State := at' (berth port0)
  let p : Nat := 1023
  let x := s.die.port p
  let h := hdr0
  (s.die.awake = true) ∧
  (x.linked = true) ∧
  (x.lpwr = .l0) ∧
  (x.retrain = false) ∧
  (x.nak = false) ∧
  (holdsAfter (exec (.flitCrcDiscard p h) s) (fun t => decide ((t.port p).offLane = ({ x with crcerr := (x.crcerr + 1) % 2 ^ 32, nak := true, nakAt := s.die.now, replays := (x.replays + 1) % 2 ^ 32 } : Port).offLane ∧ t.lastSent p x.txLfsr (x.nopFlit true))) = true) := by decide +kernel

theorem witness_BerthLinksCarryFlits_2 :
  let s : State := at' (berth port0)
  let p : Nat := 1023
  let x := s.die.port p
  let h : FlitHdr := hdr0
  (s.die.awake = true) ∧
  (x.linked = true) ∧
  (x.lpwr = .l0) ∧
  (x.retrain = false) ∧
  (hdrBad h = false) ∧
  (h.nak = false) ∧
  (x.unacked = []) ∧
  (x.wdata = []) ∧
  (x.cmds = []) ∧
  (holdsAfter (exec (.nopReceived p h) s) (fun t => decide ((t.port p).offLane = ({ x.credited h.crs h.crl with waking := false } : Port).offLane ∧ t.out = s.die.out)) = true) := by decide +kernel

theorem witness_BerthLinksCarryFlits_3 :
  let s : State := at' { berth { port0 with nak := true } with aon := { die.aon with time := 4 } }
  let p : Nat := 1023
  let x := s.die.port p
  (s.die.awake = true) ∧
  (x.nak = true) ∧
  (x.flowing = true) ∧
  (x.nakAt + 4 ≤ s.die.now) ∧
  (holdsAfter (exec (.nakRepeat p) s) (fun t => decide ((t.port p).offLane = ({ x with nakAt := s.die.now } : Port).offLane ∧ t.lastSent p x.txLfsr (x.nopFlit true))) = true) := by decide +kernel

theorem witness_BerthLinksCarryFlits_4 :
  let s : State := at' { berth port0 with aon := { die.aon with time := 200 } }
  let p : Nat := 1023
  let x := s.die.port p
  (s.die.awake = true) ∧
  (x.linked = true) ∧
  (x.lpwr = .l0) ∧
  (x.retrain = false) ∧
  (x.heardAt + 200 ≤ s.die.now) ∧
  (x.losses = []) ∧
  (holdsAfter (exec (.berthLinkSilence p) s) (fun t => decide ((t.port p).retrain = true ∧ (t.port p).losses = [s.die.now] ∧ (t.port p).st = x.st)) = true) := by decide +kernel

theorem witness_BerthLinksCarryFlits_5 :
  let s : State := at' (berth port0)
  let p : Nat := 1023
  let x := s.die.port p
  (s.die.awake = true) ∧
  (x.linked = true) ∧
  (x.rateRetrain = false) ∧
  (holdsAfter (exec (.berthErrorRate p) s) (fun t => decide ((t.port p).rateRetrain = true ∧ (t.port p).retrain = true ∧ (t.port p).rate32 = x.rate32 ∧ (t.port p).st = x.st)) = true) := by decide +kernel

theorem witness_BerthLinksCarryFlits_6 :
  let s : State := at' (berth { port0 with rateRetrain := true, rate32 := true })
  let p : Nat := 1023
  let x := s.die.port p
  (s.die.awake = true) ∧
  (x.linked = true) ∧
  (x.rateRetrain = true) ∧
  (s.die.now < x.rateAt + 20000000) ∧
  (holdsAfter (exec (.berthErrorRate p) s) (fun t => decide ((t.port p).rate32 = false ∧ (t.port p).retrain = true ∧ (t.port p).st = x.st)) = true) := by decide +kernel

theorem witness_BerthLinksCarryFlits_7 :
  let s : State := at' (berth { port0 with lmgt := [(lmgtPwrReq + 256, 0)] })
  let p : Nat := 1023
  let x := s.die.port p
  let τ := 0
  (s.die.awake = true) ∧
  (x.lmgt = [(lmgtPwrReq + 256, τ)]) ∧
  (x.unacked = []) ∧
  (x.wdata = []) ∧
  (x.cmds = []) ∧
  (holdsAfter (exec (.pwrAck p) s) (fun t => decide ((t.port p).lpwr = .ls ∧ (t.port p).lmgt = [] ∧ (t.port p).txIdle = true)) = true) := by decide +kernel

theorem witness_BerthLinksCarryFlits_8 :
  let s : State := at' (berth { port0 with lmgt := [(lmgtPwrReq + 512, 0)] })
  let p : Nat := 1023
  let x := s.die.port p
  let τ := 0
  (s.die.awake = true) ∧
  (x.lmgt = [(lmgtPwrReq + 512, τ)]) ∧
  (x.unacked = []) ∧
  (x.wdata = []) ∧
  (x.cmds = []) ∧
  (holdsAfter (exec (.pwrAck p) s) (fun t => decide ((t.port p).lpwr = .ld ∧ (t.port p).lmgt = [])) = true) := by decide +kernel

theorem witness_BerthLinksCarryFlits_9 :
  let s : State := at' (berth { port0 with lmgt := [(lmgtPwrReq + 256, 0)] })
  let p : Nat := 1023
  let x := s.die.port p
  (s.die.awake = true) ∧
  (x.asked lmgtPwrReq = true) ∧
  (holdsAfter (exec (.pwrNak p) s) (fun t => decide ((t.port p).offLane = (x.answered lmgtPwrReq).offLane ∧ t.out = s.die.out)) = true) := by decide +kernel

theorem witness_BerthLinksCarryFlits_10 :
  let s : State := at' (berth { port0 with lmgt := [(lmgtDock, 0)] })
  let p : Nat := 1023
  let x := s.die.port p
  (s.die.awake = true) ∧
  (x.asked lmgtDock = true) ∧
  (holdsAfter (exec (.dockEcho p) s) (fun t => decide ((t.port p).offLane = (x.answered lmgtDock).offLane ∧ t.out = s.die.out)) = true) := by decide +kernel

theorem witness_BerthLinksCarryFlits_11 :
  let s : State := at' (berth { port0 with st := .quarantine, lmgt := [(lmgtRelease, 0)] })
  let p : Nat := 1023
  let x := s.die.port p
  (s.die.awake = true) ∧
  (x.asked lmgtRelease = true) ∧
  (x.st = .quarantine) ∧
  (holdsAfter (exec (.releaseDone p) s) (fun t => decide ((t.port p).offLane = ({ x.answered lmgtRelease with pwrEn := false, rxOpen := true } : Port).offLane ∧ (t.port p).txIdle = true)) = true) := by decide +kernel

theorem witness_BerthLinksCarryFlits_12 :
  let s : State := at' { berth port0 with aon := { die.aon with time := 2 } }
  let p : Nat := 1023
  let x := s.die.port p
  (s.die.awake = true) ∧
  (x.flowing = true) ∧
  (x.quiet = true) ∧
  (x.busyAt + 2 ≤ s.die.now) ∧
  (holdsAfter (exec (.linkIdleLs p) s) (fun t => decide ((t.port p).lmgt = [(lmgtPwrReq + 256, s.die.now)] ∧ t.lastSent p x.txLfsr (x.lmgtFlit lmgtPwrReq 1))) = true) := by decide +kernel

theorem witness_BerthLinksCarryFlits_13 :
  let s : State := at' { berth { port0 with lpwr := .ls } with aon := { die.aon with time := 1000 } }
  let p : Nat := 1023
  let x := s.die.port p
  (s.die.awake = true) ∧
  (x.linked = true) ∧
  (x.lpwr = .ls) ∧
  (x.outst = []) ∧
  (x.quiet = true) ∧
  (x.lsAt + 1000 ≤ s.die.now) ∧
  (holdsAfter (exec (.linkIdleLd p) s) (fun t => decide ((t.port p).lmgt = [(lmgtPwrReq + 512, s.die.now)] ∧ (t.port p).lpwr = .l0)) = true) := by decide +kernel

theorem witness_BerthLinksCarryFlits_14 :
  let s : State := at' { berth { port0 with lmgt := [(lmgtDock, 0)] } with aon := { die.aon with time := 10 } }
  let p : Nat := 1023
  let x := s.die.port p
  let c := lmgtDock
  let τ := 0
  (s.die.awake = true) ∧
  (x.lmgt = [(c, τ)]) ∧
  (x.flowing = true) ∧
  (τ + 10 ≤ s.die.now) ∧
  (holdsAfter (exec (.lmgtRepeat p) s) (fun t => decide (t.lastSent p x.txLfsr (x.lmgtFlit (c % 256) (c / 256)) ∧ (t.port p).offLane = ({ x with lmgt := [(c, s.die.now)] } : Port).offLane)) = true) := by decide +kernel

theorem witness_SlotsArePowered_1 :
  let s : State := State.reset
  let c : Nat := 127
  let a : Byte := 0x81
  let b : Byte := 0x80
  (s.die.awake = true) ∧
  (c < 128) ∧
  (holdsAfter (exec (.slotIbi c a b 0) s) (fun t => decide (True)) = true) := by decide +kernel

theorem witness_SlotsArePowered_2 :
  let s : State := State.reset
  let c : Nat := 127
  let a : Byte := 0x81
  let b : Byte := 0x80
  (s.die.awake = true) ∧
  (c < 128) ∧
  (holdsAfter (exec (.slotPoll c a b 0) s) (fun t => decide (True)) = true) := by decide +kernel

theorem witness_SlotsArePowered_3 :
  let s : State := at' { berth { slotPresent := true } with aon := { die.aon with time := 50000 } }
  let p : Nat := 1023
  let x := s.die.port p
  (s.die.awake = true) ∧
  (p < Config.ports) ∧
  (x.slotPresent = true) ∧
  (x.presAt + 50000 ≤ s.die.now) ∧
  (x.st = .absent) ∧
  (x.enabled = true) ∧
  (holdsAfter (exec (.presenceStable p true) s) (fun t => decide ((t.port p).st = .powering ∧ (t.port p).pwrEn = true ∧ (t.port p).attempts = 0)) = true) := by decide +kernel

theorem witness_SlotsArePowered_4 :
  let s : State := at' { berth { st := .fault } with aon := { die.aon with time := 50000 } }
  let p : Nat := 1023
  let x := s.die.port p
  (s.die.awake = true) ∧
  (p < Config.ports) ∧
  (x.slotPresent = false) ∧
  (x.presAt + 50000 ≤ s.die.now) ∧
  (x.st ≠ .absent) ∧
  (holdsAfter (exec (.presenceStable p false) s) (fun t => decide ((t.port p).st = .absent ∧ (t.port p).pwrEn = false)) = true) := by decide +kernel

theorem witness_SlotsArePowered_5 :
  let s : State := at' (berth { st := .powering })
  let p : Nat := 1023
  let x := s.die.port p
  (s.die.awake = true) ∧
  (x.st = .powering) ∧
  (holdsAfter (exec (.powerGood p) s) (fun t => decide ((t.port p).st = .training ∧ (t.port p).step = 0 ∧ (t.port p).failed = 0)) = true) := by decide +kernel

theorem witness_SlotsArePowered_6 :
  let s : State := at' (berth { st := .powering })
  let p : Nat := 1023
  let x := s.die.port p
  (s.die.awake = true) ∧
  (x.st = .powering) ∧
  (holdsAfter (exec (.powerGoodTimeout p) s) (fun t => decide ((t.port p).st = .fault ∧ (t.port p).cause = causePowerGood ∧ (t.port p).pwrEn = false)) = true) := by decide +kernel

theorem witness_SlotsArePowered_7 :
  let s : State := at' (berth { st := .powering })
  let p : Nat := 1023
  let x := s.die.port p
  (s.die.awake = true) ∧
  (x.st ≠ .absent) ∧
  (holdsAfter (exec (.overcurrent p) s) (fun t => decide ((t.port p).st = .fault ∧ (t.port p).cause = causeOvercurrent ∧ (t.port p).slotOc = true)) = true) := by decide +kernel

theorem witness_SlotsArePowered_8 :
  let s : State := at' (berth { st := .powering })
  let p : Nat := 1023
  let x := s.die.port p
  let tx := true
  (s.die.awake = true) ∧
  ((x.st = .powering ∨ x.st = .training ∨ x.linked = true)) ∧
  (holdsAfter (exec (.shortDetected p tx) s) (fun t => decide ((t.port p).st = .fault ∧ (t.port p).cause = if tx then causeShortTx else causeShortRx)) = true) := by decide +kernel

theorem witness_SlotsArePowered_9 :
  let s : State := State.reset
  let c : Nat := 127
  (s.die.awake = true) ∧
  (c < 128) ∧
  (s.die.bp.silent.contains c = false) ∧
  (holdsAfter (exec (.slotControllerSilent c) s) (fun t => decide (t.bp.silent.contains c = true)) = true) := by decide +kernel

theorem witness_SlotsArePowered_10 :
  let s : State := at' { die with se := { die.se with missing := [(1023, some { since := 0, windowEnd := 0 })] } }
  let p : Nat := 1023
  let m : Missing := { since := 0, windowEnd := 0 }
  (s.die.awake = true) ∧
  (Tbl.get none s.die.se.missing p = some m) ∧
  (m.windowEnd ≤ s.die.now) ∧
  (holdsAfter (exec (.rejoinWindowEnd p) s) (fun t => decide (Tbl.get none t.se.missing p = none ∧ t.bp = s.die.bp)) = true) := by decide +kernel

theorem witness_SlotsArePowered_11 :
  let s : State := at' (berth { port0 with st := .draining })
  let p : Nat := 1023
  let x := s.die.port p
  (s.die.awake = true) ∧
  (x.st = .draining) ∧
  (s.die.rusHeld p = []) ∧
  (holdsAfter (exec (.drainComplete p) s) (fun t => decide ((t.port p).st = .released ∧ (t.port p).member = false ∧ (t.port p).attn = true ∧ Tbl.get 0 t.se.mgen p = Tbl.get 0 s.die.se.mgen p + 1)) = true) := by decide +kernel

theorem witness_BerthsReport_1 :
  let s : State := at' (berth port0)
  let p : Nat := 1023
  let i : Nat := 3
  let x := s.die.port p
  let v : Evt := { hdr := { hdr0 with ft := 6 }, value := 5 }
  (s.die.awake = true) ∧
  (x.takesNext v.hdr) ∧
  (x.nothingToSend) ∧
  (holdsAfter (exec (.evtTempWarn p i v) s) (fun t => decide ((t.port p).offLane = ({ x.accepted v.hdr with tempWarn := true } : Port).offLane)) = true) := by decide +kernel

theorem witness_BerthsReport_2 :
  let s : State := at' (berth port0)
  let p : Nat := 1023
  let i : Nat := 3
  let x := s.die.port p
  let v : Evt := { hdr := { hdr0 with ft := 6 }, value := 5 }
  (s.die.awake = true) ∧
  (x.takesNext v.hdr) ∧
  (x.nothingToSend) ∧
  (holdsAfter (exec (.evtTempCrit p i v) s) (fun t => decide ((t.port p).offLane = ({ x.accepted v.hdr with tempCrit := true } : Port).offLane)) = true) := by decide +kernel

theorem witness_BerthsReport_3 :
  let s : State := at' (berth port0)
  let p : Nat := 1023
  let i : Nat := 3
  let x := s.die.port p
  let v : Evt := { hdr := { hdr0 with ft := 6 }, value := 5 }
  (s.die.awake = true) ∧
  (x.takesNext v.hdr) ∧
  (x.nothingToSend) ∧
  (holdsAfter (exec (.evtTempOk p i v) s) (fun t => decide ((t.port p).offLane = ({ x.accepted v.hdr with tempWarn := false, tempCrit := false } : Port).offLane)) = true) := by decide +kernel

theorem witness_BerthsReport_4 :
  let s : State := at' (berth port0)
  let p : Nat := 1023
  let i : Nat := 3
  let x := s.die.port p
  let v : Evt := { hdr := { hdr0 with ft := 6 }, value := 5 }
  (s.die.awake = true) ∧
  (x.takesNext v.hdr) ∧
  (x.nothingToSend) ∧
  (holdsAfter (exec (.evtPowerWarn p i v) s) (fun t => decide ((t.port p).offLane = (x.accepted v.hdr).offLane)) = true) := by decide +kernel

theorem witness_BerthsReport_5 :
  let s : State := at' (berth port0)
  let p : Nat := 1023
  let i : Nat := 3
  let x := s.die.port p
  let v : Evt := { hdr := { hdr0 with ft := 6 }, value := 5 }
  (s.die.awake = true) ∧
  (x.takesNext v.hdr) ∧
  (x.nothingToSend) ∧
  (holdsAfter (exec (.evtBridgeError p i v) s) (fun t => decide ((t.port p).offLane = ({ x.accepted v.hdr with lmgt := (x.answered lmgtBridge).lmgt ++ [(lmgtBridge, s.die.now)] } : Port).offLane ∧ t.lastSent p (lfsrAfter x.txLfsr 256) ((x.accepted v.hdr).lmgtFlit lmgtBridge 0))) = true) := by decide +kernel

theorem witness_BerthsReport_6 :
  let s : State := at' (berth { port0 with lmgt := [(lmgtBridge, 0)] })
  let p : Nat := 1023
  let x := s.die.port p
  (s.die.awake = true) ∧
  (x.asked lmgtBridge = true) ∧
  (x.lpwr = .l0) ∧
  (holdsAfter (exec (.bridgeResetDone p) s) (fun t => decide ((t.port p).outst = [] ∧ (t.port p).crShort = 0 ∧ (t.port p).crLong = 0 ∧ (t.port p).asked lmgtBridge = false ∧ (t.port p).asked lmgtCredit = true ∧ (t.port p).st = x.st ∧ (t.port p).lpwr = .l0)) = true) := by decide +kernel

theorem witness_BerthsReport_7 :
  let s : State := at' { berth { port0 with outst := [{ port := 1023, die := 2, op := opRead, otag := 3 }] } with aon := { die.aon with time := 2000 } }
  let p : Nat := 1023
  let i : Nat := 3
  let x := s.die.port p
  let o : DieOp := { port := 1023, die := 2, op := opRead, otag := 3 }
  let b := false
  (s.die.awake = true) ∧
  (x.outst.find? (fun y => y.otag == i) = some o) ∧
  (o.port = p) ∧
  (o.op = opRead) ∧
  (o.issued + 2000 ≤ s.die.now) ∧
  ((s.die.dsch (dieKey p o.die)).resetAt = 0) ∧
  ((s.die.dsch (dieKey p o.die)).ladder = 0) ∧
  (holdsAfter (exec (.nandOpTimeout p i b) s) (fun t => decide ((t.dsch (dieKey p o.die)).ladder = 1 ∧ (t.dsch (dieKey p o.die)).polled = some i)) = true) := by decide +kernel

theorem witness_BerthsReport_8 :
  let s : State := at' { berth { port0 with outst := [{ port := 1023, die := 2, op := opSuspend, otag := 3 }] } with sch := { die.sch with dies := [(dieKey 1023 2, { running := some { port := 1023, die := 2, op := opRead } })] } }
  let p : Nat := 1023
  let x := s.die.port p
  let o : DieOp := { port := 1023, die := 2, op := opSuspend, otag := 3 }
  let r := rsp0
  let un : Decodes := {}
  (s.die.awake = true) ∧
  (x.takesNext r.hdr) ∧
  (x.cmds = []) ∧
  (r.status = 0) ∧
  (x.outst.find? (fun y => y.otag == r.otag) = some o) ∧
  (o.what = .control) ∧
  (o.op = opSuspend) ∧
  ((s.die.dsch (dieKey o.port o.die)).running.isSome = true) ∧
  ((s.die.port o.port).passport.isSome = true) ∧
  (holdsAfter (exec (.rspReceived p ⟨r, un⟩) s) (fun t => decide ((t.dsch (dieKey o.port o.die)).suspended = true ∧ (t.port p).rxSeq = (x.rxSeq + 1) % 256 ∧ (t.port p).outst = x.outst.filter (fun y => y.otag != r.otag))) = true) := by decide +kernel

theorem witness_BerthsReport_9 :
  let s : State := at' { berth { port0 with rdata := some (3, 0, 0, 8), outst := [{ port := 1023, die := 2, op := opRead, otag := 3, cwmask := 1, what := .recon 1 5 }] } with se := { die.se with jobs := [(1, some { job0 with stage := .recon, srcs := [{ pos := 5 }] })] }, qe := { die.qe with tags := [(9, ioT (sqe 2 1 0 0 0 0))] } }
  let p : Nat := 1023
  let x := s.die.port p
  let h : FlitHdr := { hdr0 with ft := 4, long := true }
  let c : DataDesc := { otag := 3, die := 2, plane := 0, level := 0, cw := 0, offset := 8, last := true, vlen := 512 }
  let o : DieOp := { port := 1023, die := 2, op := opRead, otag := 3, cwmask := 1, what := .recon 1 5 }
  let n := 1
  let q := 5
  let j : Job := { job0 with stage := .recon, srcs := [{ pos := 5 }] }
  (s.die.awake = true) ∧
  (x.takesNext h) ∧
  (c.offset = 8) ∧
  (x.rdata = some (c.otag, c.plane, c.cw, 8)) ∧
  (x.outst.find? (fun y => y.otag == c.otag) = some o) ∧
  (o.dataFits c = true) ∧
  (o.what = .recon n q) ∧
  (s.die.job n = some j) ∧
  (j.stage = .recon) ∧
  (holdsAfter (exec (.rdataReceived p h c) s) (fun t => decide (t.job n = some { j with srcs := j.srcs.map (fun u => if u.pos == q then { u with left := u.left - 1 } else u) } ∧ (t.port p).rdata = none)) = true) := by decide +kernel

theorem witness_BerthsReport_10 :
  let s : State := at' { berth { port0 with rdata := some (3, 0, 0, 8), outst := [{ port := 1023, die := 2, op := opRead, otag := 3, cwmask := 1, what := .readSec [(0, 1)] }] } with se := { die.se with jobs := [(1, some job0)] }, qe := { die.qe with tags := [(9, ioT (sqe 2 1 0 0 0 0))] } }
  let p : Nat := 1023
  let x := s.die.port p
  let h : FlitHdr := { hdr0 with ft := 4, long := true }
  let c : DataDesc := { otag := 3, die := 2, plane := 0, level := 0, cw := 0, offset := 8, last := true, vlen := 512 }
  let o : DieOp := { port := 1023, die := 2, op := opRead, otag := 3, cwmask := 1, what := .readSec [(0, 1)] }
  let js : List (Nat × Nat) := [(0, 1)]
  let k := 0
  let n := 1
  let j : Job := job0
  (s.die.awake = true) ∧
  (x.takesNext h) ∧
  (c.offset = 8) ∧
  (x.rdata = some (c.otag, c.plane, c.cw, 8)) ∧
  (x.outst.find? (fun y => y.otag == c.otag) = some o) ∧
  (o.dataFits c = true) ∧
  (o.what = .readSec js) ∧
  (js.filter (fun y => y.1 == c.plane * 4 + c.cw) = [(k, n)]) ∧
  (s.die.job n = some j) ∧
  (j.stage = .wait) ∧
  (holdsAfter (exec (.rdataReceived p h c) s) (fun t => decide (t.job n = some { j with left := j.left - 1, stage := if j.left ≤ 1 then .arrived else .wait } ∧ (t.port p).rdata = none)) = true) := by decide +kernel

theorem witness_BerthsReport_11 :
  let s : State := at' { berth port0 with sch := { die.sch with queued := [{ port := 1023, die := 3, op := opRead }] } }
  let p : Nat := 1023
  let i : Nat := 3
  let x := s.die.port p
  let o : DieOp := { port := 1023, die := 3, op := opRead }
  let pass := pass0
  let d := s.die.reconNext.eraseSlices (dieKey p i) false
  let fs := (d.featuresFor o).length
  (s.die.awake = true) ∧
  (s.die.life.gated.contains (p / 32) = false) ∧
  (s.die.portServes p = true) ∧
  (x.canSend = true) ∧
  (x.passport = some pass) ∧
  (x.dfence.getLsbD i = false) ∧
  ((s.die.dsch (dieKey p i)).tunnel = false) ∧
  (s.die.missesBehind pass p i = none) ∧
  ((d.dsch (dieKey p i)).running = none) ∧
  (d.outstAt p i = []) ∧
  ((d.dsch (dieKey p i)).choose (d.waitingAt p i) = some o) ∧
  (holdsAfter (exec (.dieDispatch p i) s) (fun t => decide (t = d.dispatchOp o ∧ (fs < (d.port o.port).crShort → (d.port o.port).unacked.length + fs < 64 → d.depthFor o.port o.die (fs + 1) = true → (d.reserveFor o).isSome = true → t.sch.queued = d.sch.queued.erase o))) = true) := by decide +kernel

theorem witness_BerthsReport_12 :
  let s : State := at' { berth port0 with life := { die.life with gated := [31] } }
  let p : Nat := 1023
  let i : Nat := 3
  (s.die.awake = true) ∧
  (s.die.life.gated.contains (p / 32) = true) ∧
  (s.die.life.fencedIslands.contains (p / 32) = false) ∧
  (holdsAfter (exec (.dieDispatch p i) s) (fun t => decide (t.life.gated.contains (p / 32) = false ∧ t.sch = s.die.sch)) = true) := by decide +kernel

theorem witness_CommandsLiveUnderTags_1 :
  let s : State := at' (pf { st := .ready, rdy := true, sqs := [(1, { size := 4, tail := 3, cq := 1 })], cqs := [(1, { size := 4 })] })
  let t : Nat := 65279
  let n : Nat := 0
  let q : Nat := 1
  let e : SqEntry := sqe 0 1 0 0 0 0
  let x := s.die.tag t
  (s.die.awake = true) ∧
  (s.die.qe.hold = false) ∧
  (s.die.qe.stopped = false) ∧
  (t < Config.tags) ∧
  (x.st = .free) ∧
  (s.die.fetchDue n q = true) ∧
  (holdsAfter (exec (.sqEntryFetch n q t e) s) (fun d => decide ((d.tag t).entry = some e ∧ (d.tag t).fn = n ∧ (d.tag t).sq = q ∧ (d.tag t).gen = x.gen ∧ ((d.tag t).st = .bound ∨ (d.tag t).st = .posting) ∧ ((d.fn n).sq q).head = (((s.die.fn n).sq q).head + 1) % ((s.die.fn n).sq q).size)) = true) := by decide +kernel

theorem witness_CommandsLiveUnderTags_2 :
  let s : State := at' (under die { st := .bound, sq := 1, entry := some (sqe 2 1 0 0 0 0) })
  let t : Nat := 9
  let e : SqEntry := sqe 2 1 0 0 0 0
  let x := s.die.tag t
  (s.die.awake = true) ∧
  (x.entry = some e) ∧
  (x.st = .bound) ∧
  (s.die.qe.hold = false) ∧
  (s.die.qe.stopped = false) ∧
  (s.die.admitHeld x e = false) ∧
  (holdsAfter (exec (.commandAdmit t) s) (fun d => decide (d.tag t = { x with st := .admitted, ranges := if x.ioOpc = 0x08 then [(e.slba, e.nlb)] else x.ranges } ∧ d.sch.admitted = s.die.sch.admitted + 1 ∧ d.tenants = if x.sq = 0 then s.die.tenants else (s.die.updTenant x.fn (fun y => y.charge (s.die.chargeOf e))).tenants)) = true) := by decide +kernel

theorem witness_CommandsLiveUnderTags_3 :
  let s : State := at' (under { die with nss := [(1, nsZoned)] } (ioT (sqe 0x79 1 0 0 0 1)))
  let t : Nat := 9
  let e : SqEntry := sqe 0x79 1 0 0 0 1
  let x := s.die.tag t
  (s.die.awake = true) ∧
  (x.entry = some e) ∧
  (x.live = true) ∧
  (x.sq ≠ 0) ∧
  (x.forwarded = false) ∧
  (x.gated = false) ∧
  (e.opc = 0x79) ∧
  (s.die.gateShut e x.order = false) ∧
  (s.die.earlierDone e false x.order = true) ∧
  (holdsAfter (exec (.zoneGateOpen t) s) (fun d => decide (d.tag t = { x with gateOpen := true })) = true) := by decide +kernel

theorem witness_CommandsLiveUnderTags_4 :
  let s : State := at' (under (pf { st := .ready, sqs := [(1, { size := 4, cq := 1 })], cqs := [(1, { size := 4, tail := 3, head := 1 })] }) { st := .posting, sq := 1, entry := some (sqe 2 1 0 0 0 0) })
  let t : Nat := 9
  let e : SqEntry := sqe 2 1 0 0 0 0
  let x := s.die.tag t
  let c := (s.die.fn x.fn).cq ((s.die.fn x.fn).sq x.sq).cq
  (s.die.awake = true) ∧
  (x.entry = some e) ∧
  (x.st = .posting) ∧
  (s.die.life.manager = true) ∧
  (c.size ≠ 0) ∧
  ((c.tail + 1) % c.size ≠ c.head) ∧
  (s.die.abortWaits x e = false) ∧
  (holdsAfter (exec (.completionPost t) s) (fun d => decide ((d.tag t).st = .free ∧ (d.tag t).gen = x.gen + 1 ∧ (d.tag t).entry = none ∧ ((d.fn x.fn).cq ((s.die.fn x.fn).sq x.sq).cq).tail = (c.tail + 1) % c.size ∧ .cqe x.fn ((s.die.fn x.fn).sq x.sq).cq x.sq e.cid c.tail x.dw0 (s.die.reportOf x e) ((s.die.fn x.fn).sq x.sq).head c.phase x.sct x.sc (entersErrorLog (x.sct, x.sc)) (dnr (x.sq == 0) (x.sct, x.sc)) ∈ d.out)) = true) := by decide +kernel

theorem witness_CommandsLiveUnderTags_5 :
  let s : State := at' { under die (ioT (sqe 2 1 0 0 0 0)) with aon := { die.aon with time := Config.ceilingUs } }
  let t : Nat := 9
  let e : SqEntry := sqe 2 1 0 0 0 0
  let x := s.die.tag t
  (s.die.awake = true) ∧
  (x.entry = some e) ∧
  (x.live = true) ∧
  (x.fetched + Config.ceilingUs ≤ s.die.now) ∧
  (x.adminOpc ≠ 0x0C) ∧
  (holdsAfter (exec (.internalTimeout t) s) (fun d => decide (d.ends t stInternalTimeout)) = true) := by decide +kernel

theorem witness_CommandsLiveUnderTags_6 :
  let s : State := at' { under die { st := .bound, sq := 1, entry := some { sqe 2 1 0 0 0 0 with vhd := 0x10800 } } with aon := { die.aon with time := 2 } }
  let t : Nat := 9
  let e : SqEntry := { sqe 2 1 0 0 0 0 with vhd := 0x10800 }
  let x := s.die.tag t
  let dl := 1
  (s.die.awake = true) ∧
  (x.entry = some e) ∧
  (ffDeadline x e = some dl) ∧
  (dl < s.die.now) ∧
  (x.st = .bound) ∧
  (s.die.qe.hold = false) ∧
  (holdsAfter (exec (.failFastDeadline t) s) (fun d => decide (d.ends t stDeadline)) = true) := by decide +kernel

theorem witness_ReadsComplete_1 :
  let s : State := at' (under { die with nss := [(1, nsConv)] } (ioT (sqe 2 1 0 0 15 0)))
  let t : Nat := 9
  let e : SqEntry := sqe 2 1 0 0 15 0
  let x := s.die.tag t
  let n := s.die.ns e.ns
  let inTime := (match ffDeadline x e with | some dl => decide (s.die.now ≤ dl) | none => true) = true
  (s.die.ioTag t 0x02 e) ∧
  (s.die.se.jobs = []) ∧
  (x.bad = []) ∧
  (x.work = 0) ∧
  (inTime) ∧
  (s.die.pointerBad x e (e.nlb * n.lbaBytes) = none) ∧
  ((∀ y ∈ n.sectorsOf e.slba e.nlb, n.locate y = .zeros)) ∧
  (holdsAfter (exec (.read t) s) (fun d => decide (d.ends t stOk ∧ d.nss = s.die.nss ∧ d.se.jobs = [])) = true) := by decide +kernel

theorem witness_ReadsComplete_2 :
  let s : State := at' (under { die with nss := [(1, nsConv)] } (ioT { sqe 2 1 0 0 15 0 with dptr := 3 }))
  let t : Nat := 9
  let e : SqEntry := { sqe 2 1 0 0 15 0 with dptr := 3 }
  let x := s.die.tag t
  let n := s.die.ns e.ns
  let st := (0, 0x13)
  (s.die.ioTag t 0x02 e) ∧
  (s.die.se.jobs = []) ∧
  (x.work = 0) ∧
  (ffDeadline x e = none) ∧
  (s.die.pointerBad x e (e.nlb * n.lbaBytes) = some st) ∧
  ((∀ y ∈ n.sectorsOf e.slba e.nlb, n.locate y = .zeros)) ∧
  (holdsAfter (exec (.read t) s) (fun d => decide (d.ends t st ∧ d.nss = s.die.nss)) = true) := by decide +kernel

theorem witness_ReadsComplete_3 :
  let s : State := at' (under { die with nss := [(1, nsConv)] } (ioT (sqe 12 1 984 0 15 0)))
  let t : Nat := 9
  let e : SqEntry := sqe 12 1 984 0 15 0
  let x := s.die.tag t
  let n := s.die.ns e.ns
  let inTime := (match ffDeadline x e with | some dl => decide (s.die.now ≤ dl) | none => true) = true
  (s.die.ioTag t 0x0C e) ∧
  (s.die.se.jobs = []) ∧
  (x.bad = []) ∧
  (x.work = 0) ∧
  (inTime) ∧
  ((∀ y ∈ n.sectorsOf e.slba e.nlb, n.locate y = .zeros)) ∧
  (holdsAfter (exec (.verify t) s) (fun d => decide (d.ends t stOk ∧ d.out = s.die.out ∧ d.nss = s.die.nss)) = true) := by decide +kernel

theorem witness_ReadsComplete_4 :
  let s : State := at' (under die (ioT (sqe 0 1 0 0 0 0)))
  let t : Nat := 9
  let e : SqEntry := sqe 0 1 0 0 0 0
  let x := s.die.tag t
  (s.die.ioTag t 0x00 e) ∧
  ((∀ u ∈ s.die.qe.tags, u.2.fn = x.fn → u.2.order < x.order → u.2.st = .free)) ∧
  (holdsAfter (exec (.flush t) s) (fun d => decide (d = s.die.finish t stOk)) = true) := by decide +kernel

theorem witness_ReadsComplete_5 :
  let s : State := at' (under { die with nss := [(1, nsZoned)] } (ioT (sqe 0x7A 1 0 0 0 0)))
  let t : Nat := 9
  let e : SqEntry := sqe 0x7A 1 0 0 0 0
  let x := s.die.tag t
  (s.die.ioTag t 0x7A e) ∧
  (s.die.pointerBad x e e.zoneBuf = none) ∧
  (holdsAfter (exec (.reportZones t) s) (fun d => decide (d.ends t stOk ∧ d.nss = s.die.nss)) = true) := by decide +kernel

theorem witness_ReadsComplete_6 :
  let s : State := at' (under { die with nss := [(1, nsConv)] } (ioT (sqe 0x12 1 0 0 0 0)))
  let t : Nat := 9
  let e : SqEntry := sqe 0x12 1 0 0 0 0
  let x := s.die.tag t
  (s.die.ioTag t 0x12 e) ∧
  (s.die.pointerBad x e (4 * (e.cdw11.toNat + 1)) = none) ∧
  (holdsAfter (exec (.ioManagementReceive t) s) (fun d => decide (d.ends t stOk ∧ d.nss = s.die.nss)) = true) := by decide +kernel

theorem witness_ReadsComplete_7 :
  let s : State := at' (under { die with nss := [(1, nsConv)] } (ioT (sqe 0x1D 1 0 0 0 0)))
  let t : Nat := 9
  let e : SqEntry := sqe 0x1D 1 0 0 0 0
  let x := s.die.tag t
  let n := s.die.ns e.ns
  let ps := [0]
  (s.die.ioTag t 0x1D e) ∧
  (s.die.pointerBad x e (2 * (bitsOf e.cdw10 16 16 + 1)) = none) ∧
  ((∀ p ∈ ps.take (bitsOf e.cdw10 16 16 + 1), p % 8192 < n.handles ∧ n.rgset.getLsbD (p / 8192) = true)) ∧
  (holdsAfter (exec (.ioManagementSend t ps) s) (fun d => decide (d.ends t stOk ∧ d.tenants = s.die.tenants)) = true) := by decide +kernel

theorem witness_ReadsComplete_8 :
  let s : State := at' (under { die with nss := [(1, nsZoned)] } (ioT (sqe 0x79 1 0 0 0 16)))
  let t : Nat := 9
  let e : SqEntry := sqe 0x79 1 0 0 0 16
  (s.die.ioTag t 0x79 e) ∧
  (e.zsa = 0x10) ∧
  (holdsAfter (exec (.setZoneDescriptorExtension t) s) (fun d => decide (d.ends t stInvalidField ∧ d.nss = s.die.nss)) = true) := by decide +kernel

theorem witness_WritesTakeTheirSteps_1 :
  let s : State := at' (under dieOpen (ioT (sqe 1 1 999 0 0 0)))
  let t : Nat := 9
  let e : SqEntry := sqe 1 1 999 0 0 0
  let x := s.die.tag t
  let n := s.die.ns e.ns
  let add := heelAdded n e (x.wlba % n.zoneLbas) (s.die.noCrumbs e.ns (n.sectorsOf e.slba e.nlb))
  let d1 := ((s.die.takeTrays 1 x.fn 5 (some (t, x.gen)) (s.die.writeTrays x e)).getD (s.die, [])).1
  let ts := ((s.die.takeTrays 1 x.fn 5 (some (t, x.gen)) (s.die.writeTrays x e)).getD (s.die, [])).2
  (s.die.ioTag t 0x01 e) ∧
  (s.die.roNow e = none) ∧
  (s.die.rescueHolds add = false) ∧
  (s.die.pointerBad x e (e.nlb * n.lbaBytes) = none) ∧
  (s.die.takeTrays 1 x.fn 5 (some (t, x.gen)) (s.die.writeTrays x e) = some (d1, ts)) ∧
  (holdsAfter (exec (.write t) s) (fun d => decide (d = d1.hostWake.updTag t (fun y => { y with st := .pull, trays := ts }))) = true) := by decide +kernel

theorem witness_WritesTakeTheirSteps_2 :
  let s : State := at' (under dieOpen (ioT (sqe 0x7D 2 0 0 0 0)))
  let t : Nat := 9
  let e : SqEntry := sqe 0x7D 2 0 0 0 0
  let x := s.die.tag t
  let n := s.die.ns e.ns
  let add := heelAdded n e (x.wlba % n.zoneLbas) (s.die.noCrumbs e.ns (n.sectorsOf e.slba e.nlb))
  let d1 := ((s.die.takeTrays 1 x.fn 5 (some (t, x.gen)) (s.die.writeTrays x e)).getD (s.die, [])).1
  let ts := ((s.die.takeTrays 1 x.fn 5 (some (t, x.gen)) (s.die.writeTrays x e)).getD (s.die, [])).2
  (s.die.ioTag t 0x7D e) ∧
  (s.die.roNow e = none) ∧
  (s.die.rescueHolds add = false) ∧
  (s.die.pointerBad x e (e.nlb * n.lbaBytes) = none) ∧
  (s.die.takeTrays 1 x.fn 5 (some (t, x.gen)) (s.die.writeTrays x e) = some (d1, ts)) ∧
  (holdsAfter (exec (.zoneAppend t) s) (fun d => decide (d = d1.hostWake.updTag t (fun y => { y with st := .pull, trays := ts }))) = true) := by decide +kernel

theorem witness_WritesTakeTheirSteps_3 :
  let s : State := at' (under dieOpen { ioT (sqe 1 1 998 0 1 0) with st := .pull })
  let t : Nat := 9
  let e : SqEntry := sqe 1 1 998 0 1 0
  let x := s.die.tag t
  let n := s.die.ns e.ns
  let k := 0
  let data := [1, 2]
  let hm := []
  let un : Decodes := {}
  (s.die.awake = true) ∧
  (x.entry = some e) ∧
  (x.st = .pull) ∧
  (x.forwarded = false) ∧
  (s.die.qe.hold = false) ∧
  (n.isZoned = false) ∧
  (n.lbasPerSector = 1) ∧
  (s.die.roNow e = none) ∧
  (s.die.writeSlot n.owner = some k) ∧
  (s.die.countersLeft k e.nlb = true) ∧
  (holdsAfter (exec (.writeDataPulled ⟨t, un⟩ data hm) s) (fun d => decide ((d.tag t).st = .staged ∧ (d.tag t).ranges = [n.lockRange true e.slba e.nlb] ∧ (d.tag t).staged.length = e.nlb ∧ (d.tag t).trays = [] ∧ (d.slot k).next = (s.die.slot k).next + e.nlb ∧ (d.ns e.ns).map = n.map)) = true) := by decide +kernel

theorem witness_WritesTakeTheirSteps_4 :
  let s : State := at' (under dieOpen { ioT (sqe 1 1 999 0 0 0) with st := .staged, ranges := [(999, 1)], staged := [(999, 0)] })
  let t : Nat := 9
  let e : SqEntry := sqe 1 1 999 0 0 0
  let x := s.die.tag t
  let whole := ∀ c ∈ s.die.dc.chans, c.2.flips = []
  let un : Decodes := {}
  (s.die.awake = true) ∧
  (x.entry = some e) ∧
  (x.st = .staged) ∧
  (x.ranges ≠ []) ∧
  (s.die.lockRoom x.ranges = true) ∧
  (s.die.lockAhead e.ns x.order x.ranges = false) ∧
  (s.die.qe.hold = false) ∧
  (s.die.roNow e = none) ∧
  (whole) ∧
  (holdsAfter (exec (.rangeLockGrant ⟨t, un⟩) s) (fun d => decide ((d.tag t).ranges = [] ∧ (d.ends t stOk ∨ ((d.tag t).st = .committed ∧ ∀ r ∈ x.ranges, ({ tag := t, ns := e.ns, first := r.1, count := r.2 } : LockEntry) ∈ d.qe.locks)))) = true) := by decide +kernel

theorem witness_WritesTakeTheirSteps_5 :
  let s : State := at' (under dieOpen (ioT (sqe 8 1 999 0 0 0)))
  let t : Nat := 9
  let e : SqEntry := sqe 8 1 999 0 0 0
  let x := s.die.tag t
  (s.die.ioTag t 0x08 e) ∧
  (x.work = 0) ∧
  (holdsAfter (exec (.writeZeroes t) s) (fun d => decide (d = s.die.updTag t (fun y => { y with ranges := [(e.slba, e.nlb)], work := 1 }))) = true) := by decide +kernel

theorem witness_WritesTakeTheirSteps_6 :
  let s : State := at' (under dieOpen (ioT (sqe 9 1 0 4 0 0)))
  let t : Nat := 9
  let e : SqEntry := sqe 9 1 0 4 0 0
  let x := s.die.tag t
  let n := s.die.ns e.ns
  let rs : List (Nat × Nat) := [(999, 1)]
  let us := (rs.take (bitsOf e.cdw10 0 8 + 1)).filter (fun (r : Nat × Nat) => r.2 != 0)
  (s.die.ioTag t 0x09 e) ∧
  (x.work = 0) ∧
  (s.die.pointerBad x e (16 * (bitsOf e.cdw10 0 8 + 1)) = none) ∧
  ((∀ r ∈ us, r.1 + r.2 ≤ n.nsze)) ∧
  (s.die.checkAna n = none) ∧
  (holdsAfter (exec (.datasetManagement t rs) s) (fun d => decide (d.nss = s.die.nss ∧ if us = [] then d.ends t stOk else (d.tag t).ranges = us ∧ (d.tag t).st = .admitted)) = true) := by decide +kernel

theorem witness_WritesTakeTheirSteps_7 :
  let s : State := at' { dieOpen with nss := [(1, { nsConv with ruhmap := [0], dest := [(3, (0, some 0))], map := [(3, { typ := .staged, vmask := 1 })] })] }
  let whole := ∀ c ∈ s.die.dc.chans, c.2.flips = []
  let m := 1
  let l := 3
  let dst := (0, some 0)
  let g := 0
  let d1 := s.die
  (s.die.awake = true) ∧
  (whole) ∧
  (((s.die.ns m).entry l).typ = .staged) ∧
  (((s.die.ns m).entry l).vmask ≠ 0) ∧
  (dst = (s.die.ns m).drainDest l) ∧
  (s.die.rotate m dst = some (g, d1)) ∧
  ((d1.needRu g dst.1 .drain).isSome = true) ∧
  (holdsAfter (exec (.conventionalDrain m l) s) (fun d => decide (((d.ns m).entry l).typ = .inflight ∧ ((d.ns m).entry l).vmask = ((s.die.ns m).entry l).vmask)) = true) := by decide +kernel

theorem witness_WritesTakeTheirSteps_8 :
  let s : State := at' { dieOpen with nss := [(2, { nsZoned with zones := [(0, { st := .zsc, wp := 4, wpNext := 4, group := some 0, heelMask := 0xF, heelProt := 17 })] })], aon := { dieOpen.aon with time := 1000000 } }
  let whole := ∀ c ∈ s.die.dc.chans, c.2.flips = []
  let m := 2
  let z := 0
  (s.die.awake = true) ∧
  (whole) ∧
  ((s.die.zone m z).st = .zsc) ∧
  ((s.die.zone m z).closedAt + 1000000 ≤ s.die.now) ∧
  ((s.die.ns m).hasHeel z = true) ∧
  ((s.die.needRu ((s.die.zone m z).group.getD 0) (s.die.zone m z).heelRuh .heel).isSome = true) ∧
  (holdsAfter (exec (.heelSettle m z) s) (fun d => decide ((d.zone m z).settled = true ∧ (d.zone m z).heelMask = 0 ∧ (d.zone m z).wp = (s.die.zone m z).wp ∧ ((d.ns m).entry ((s.die.ns m).wpLoaf z)).typ = .inflight ∧ ((d.ns m).entry ((s.die.ns m).wpLoaf z)).vmask = ((s.die.ns m).entry ((s.die.ns m).wpLoaf z)).vmask ||| (s.die.zone m z).heelMask)) = true) := by decide +kernel

theorem witness_ZoneActionsMoveZones_1 :
  let s : State := at' (under { dieOpen with nss := [(1, zoneIn .zsc)] } { ioT (sqe 0x79 1 0 0 0 3) with gateOpen := true })
  let t : Nat := 9
  let e : SqEntry := sqe 0x79 1 0 0 0 3
  let z := (s.die.ns e.ns).zoneOf e.slba
  let y := s.die.zone e.ns z
  let r := 0
  ((s.die.ioTag t 0x79 e ∧ e.zsa = 3 ∧ (s.die.tag t).gateOpen = true ∧ e.selectAll = false)) ∧
  (y.st = .zsc) ∧
  ((match s.die.openCheck e.ns z false with | .ok _ => r == 0 | .error _ => false) = true) ∧
  (holdsAfter (exec (.zoneOpen t) s) (fun d => decide (d.ends t stOk ∧ (d.zone e.ns z).st = .zseo ∧ (d.zone e.ns z).wp = y.wp)) = true) := by decide +kernel

theorem witness_ZoneActionsMoveZones_2 :
  let s : State := at' (under { dieOpen with nss := [(1, zoneIn .zseo)] } { ioT (sqe 0x79 1 0 0 0 1) with gateOpen := true })
  let t : Nat := 9
  let e : SqEntry := sqe 0x79 1 0 0 0 1
  let z := (s.die.ns e.ns).zoneOf e.slba
  let y := s.die.zone e.ns z
  ((s.die.ioTag t 0x79 e ∧ e.zsa = 1 ∧ (s.die.tag t).gateOpen = true ∧ e.selectAll = false)) ∧
  ((y.st = .zsio ∨ y.st = .zseo)) ∧
  (holdsAfter (exec (.zoneClose t) s) (fun d => decide (d.ends t stOk ∧ (d.zone e.ns z).st = (if y.wp = 0 then .zse else .zsc) ∧ (s.die.writeThrough = false → (d.zone e.ns z).heelMask = y.heelMask))) = true) := by decide +kernel

theorem witness_ZoneActionsMoveZones_3 :
  let s : State := at' (under { dieOpen with nss := [(1, zoneIn .zsio)] } { ioT (sqe 0x79 1 0 0 0 2) with gateOpen := true })
  let t : Nat := 9
  let e : SqEntry := sqe 0x79 1 0 0 0 2
  let z := (s.die.ns e.ns).zoneOf e.slba
  let y := s.die.zone e.ns z
  ((s.die.ioTag t 0x79 e ∧ e.zsa = 2 ∧ (s.die.tag t).gateOpen = true ∧ e.selectAll = false)) ∧
  ((y.st = .zse ∨ y.st = .zsio ∨ y.st = .zseo ∨ y.st = .zsc)) ∧
  (holdsAfter (exec (.zoneFinish t) s) (fun d => decide (d.ends t stOk ∧ (d.zone e.ns z).st = .zsf ∧ (d.zone e.ns z).wp = (s.die.ns e.ns).zoneLbas)) = true) := by decide +kernel

theorem witness_ZoneActionsMoveZones_4 :
  let s : State := at' (under { dieOpen with nss := [(1, zoneIn .zsf)] } { ioT (sqe 0x79 1 0 0 0 4) with gateOpen := true })
  let t : Nat := 9
  let e : SqEntry := sqe 0x79 1 0 0 0 4
  let z := (s.die.ns e.ns).zoneOf e.slba
  let y := s.die.zone e.ns z
  ((s.die.ioTag t 0x79 e ∧ e.zsa = 4 ∧ (s.die.tag t).gateOpen = true ∧ e.selectAll = false)) ∧
  ((y.st = .zsio ∨ y.st = .zseo ∨ y.st = .zsc ∨ y.st = .zsf)) ∧
  (holdsAfter (exec (.zoneReset t) s) (fun d => decide (d.ends t stOk ∧ (d.zone e.ns z).st = .zse ∧ (d.zone e.ns z).wp = 0 ∧ (d.zone e.ns z).heelMask = 0)) = true) := by decide +kernel

theorem witness_ZoneActionsMoveZones_5 :
  let s : State := at' (under { dieOpen with nss := [(1, zoneIn .zsro)] } { ioT (sqe 0x79 1 0 0 0 5) with gateOpen := true })
  let t : Nat := 9
  let e : SqEntry := sqe 0x79 1 0 0 0 5
  let z := (s.die.ns e.ns).zoneOf e.slba
  let y := s.die.zone e.ns z
  ((s.die.ioTag t 0x79 e ∧ e.zsa = 5 ∧ (s.die.tag t).gateOpen = true ∧ e.selectAll = false)) ∧
  (y.st = .zsro) ∧
  (holdsAfter (exec (.zoneOffline t) s) (fun d => decide (d.ends t stOk ∧ (d.zone e.ns z).st = .zso)) = true) := by decide +kernel

theorem witness_MediaIsKept_1 :
  let s : State := at' { under die (ioT (sqe 2 1 0 0 0 0)) with se := { die.se with jobs := [(1, some { job0 with stage := .arrived, step := 1 })] } }
  let i : Nat := 1
  let j : Job := { job0 with stage := .arrived, step := 1 }
  let b := 96
  (s.die.awake = true) ∧
  (s.die.job i = some j) ∧
  (j.stage = .arrived) ∧
  (j.step = 1) ∧
  (b ≤ 96) ∧
  (holdsAfter (exec (.decodeDone i (.converged b)) s) (fun t => decide (t.job i = some { j with stage := .cipher } ∧ t.rc = s.die.rc ∧ t.qe = s.die.qe)) = true) := by decide +kernel

theorem witness_MediaIsKept_3 :
  let s : State := at' { die with rc := { die.rc with groups := [(0, grp)], rus := [(5, { st := .closed, k := 6 })] } }
  let i : Nat := 5
  let k : Nat := 0
  let u := { st := .closed, k := 6 }
  let un : Decodes := {}
  (s.die.awake = true) ∧
  ((s.die.group k).formed = true) ∧
  (s.die.rc.rus = [(i, u)]) ∧
  (u.st = .closed) ∧
  (u.group = k) ∧
  (u.rebuild = []) ∧
  (s.die.validCount i = 0) ∧
  (s.die.rc.rewrite = []) ∧
  (s.die.rc.refresh = []) ∧
  (s.die.rc.owner = []) ∧
  (s.die.rc.crumbSlots = []) ∧
  (s.die.rc.owed = []) ∧
  (holdsAfter (exec (.gcPass ⟨k, un⟩) s) (fun t => decide ((t.ru i).st = .collecting ∧ (t.ru i).stage = 1 ∧ (t.ru i).mark = s.die.journalMark)) = true) := by decide +kernel

theorem witness_MediaIsKept_4 :
  let s : State := at' { die with se := { die.se with rebuild := [(5, 3)] }, rc := { die.rc with rus := [(5, { st := .closed, k := 6, passed := [3], members := [{ port := 3, die := 0, block := 9 }] })] } }
  let i : Nat := 5
  let k : Nat := 3
  let m := { port := 3, die := 0, block := 9 }
  let un : Decodes := {}
  (s.die.awake = true) ∧
  (s.die.se.rebuild.contains (i, k) = true) ∧
  (s.die.reconWaits i = false) ∧
  ((s.die.ru i).st = .closed) ∧
  ((s.die.ru i).rebuild = []) ∧
  (s.die.rebuildNext = some i) ∧
  (m ∈ (s.die.ru i).members) ∧
  (m.port = k) ∧
  (s.die.validCount i * 4 < s.die.ruSectors i) ∧
  (holdsAfter (exec (.rebuildRu i ⟨k, un⟩) s) (fun t => decide (t.ru i = { s.die.ru i with st := .collecting, stage := 0 } ∧ t.se = s.die.se)) = true) := by decide +kernel

theorem witness_MediaIsKept_5 :
  let s : State := at' { die with se := { die.se with rebuild := [(5, 3)] }, rc := { die.rc with rus := [(5, { st := .closed, k := 6, passed := [3], members := [{ port := 4, die := 0, block := 9 }] })] } }
  let i : Nat := 5
  let k : Nat := 3
  let un : Decodes := {}
  (s.die.awake = true) ∧
  (s.die.se.rebuild.contains (i, k) = true) ∧
  (s.die.rebuildNeeds i k = false) ∧
  (holdsAfter (exec (.rebuildRu i ⟨k, un⟩) s) (fun t => decide (t.se.rebuild = s.die.se.rebuild.filter (fun e => e != (i, k)) ∧ t.rc = s.die.rc)) = true) := by decide +kernel

theorem witness_MediaIsKept_6 :
  let s : State := at' { die with bp := { die.bp with ports := [(3, port0)] }, rc := { die.rc with rus := [(5, { st := .closed, k := 6, passed := [0], members := [{ port := 3, die := 0, block := 9 }] })] } }
  let i : Nat := 5
  let k : Nat := 0
  let p := 3
  let dn := 0
  let bl := 9
  let pu := 0
  let cw := 47
  let n := 96
  let ag := false
  let un : Decodes := {}
  (s.die.awake = true) ∧
  ((s.die.port p).st = .online) ∧
  (cw < 48) ∧
  (s.die.ruOfBlock (blockKey p dn bl) = some (i, k)) ∧
  (((s.die.ru i).st = .closed ∨ (s.die.ru i).st = .opened)) ∧
  ((s.die.ru i).passed.contains (pu * 64 + k) = true) ∧
  (s.die.se.scrub.st ≠ 1) ∧
  (n ≤ 96) ∧
  (holdsAfter (exec (.mediaPatrol p dn bl pu ⟨cw, un⟩ (.converged n, ag)) s) (fun t => decide (t = s.die.countPage p dn bl ∧ (t.block (blockKey p dn bl)).reads = (s.die.block (blockKey p dn bl)).reads + 1)) = true) := by decide +kernel

theorem witness_MediaIsKept_8 :
  let s : State := at' { die with nss := [(1, { nsConv with crumbs := [(3, { st := .media })], map := [(0, { typ := .loaf, vmask := 1, heat := 2 })] })] }
  let i : Nat := 1
  let k : Nat := 0
  let un : Decodes := {}
  (s.die.awake = true) ∧
  ((s.die.ns i).alive = true) ∧
  ((∀ v ∈ (s.die.ns i).foldAt, v.1 = k → v.2 + s.die.gcProf.foldPeriod * 1000000 ≤ s.die.now)) ∧
  (((s.die.ns i).crumbs.any (fun c => c.1 / 16 == k && c.2.st != .free)) = true) ∧
  (2 ≤ ((s.die.ns i).entry k).heat) ∧
  (holdsAfter (exec (.foldScan i ⟨k, un⟩) s) (fun t => decide ((t.ns i).entry k = { (s.die.ns i).entry k with heat := ((s.die.ns i).entry k).heat - 1 } ∧ (t.ns i).crumbs = (s.die.ns i).crumbs)) = true) := by decide +kernel

theorem witness_JournalAndLogArePersisted_1 :
  let s : State := at' { die with te := { die.te with buf := [{ what := [.range 1 0 1] }] }, aon := { die.aon with time := 200 } }
  let e := s.die.te
  (s.die.awake = true) ∧
  (e.buf ≠ []) ∧
  (e.bufAt + 200 ≤ s.die.now) ∧
  (holdsAfter (exec .journalSegmentWrite s) (fun t => decide (t.te.seg = e.seg + 1 ∧ t.te.buf = e.buf.drop (segmentRecs e.buf).length ∧ t.te.retained = e.retained + 65536)) = true) := by decide +kernel

theorem witness_JournalAndLogArePersisted_2 :
  let s : State := at' { threeUp with te := { die.te with writing := [{ seq := 7, recs := [{ what := [.range 1 0 1] }], crc := 0, berths := [] }] } }
  let n : Nat := 7
  let e := s.die.te
  let w := { seq := 7, recs := [{ what := [.range 1 0 1] }], crc := 0, berths := [] }
  (s.die.awake = true) ∧
  (e.writing.find? (fun x => x.seq == n) = some w) ∧
  (s.die.mirrors.length = 3) ∧
  (holdsAfter (exec (.journalSegmentDurable n) s) (fun t => decide (t.te.writing = e.writing.filter (fun x => x.seq != n) ∧ t.te.durable = e.durable + recsOf w.recs ∧ ((∀ u ∈ s.die.qe.tags, u.2.st ≠ .committed) → t.te.buf = e.buf))) = true) := by decide +kernel

theorem witness_JournalAndLogArePersisted_3 :
  let s : State := at' { die with aon := { die.aon with time := 86400000000 } }
  let e := s.die.te
  (s.die.awake = true) ∧
  (e.ckpt = false) ∧
  (e.ckptEnd + 600000000 ≤ s.die.now) ∧
  (holdsAfter (exec .checkpointCycleStart s) (fun t => decide (t.te = { e with ckpt := true, sinceStart := 0, cycle := e.dirty.map (fun p => (p, s.die.mirrors)), dirty := [] })) = true) := by decide +kernel

theorem witness_JournalAndLogArePersisted_4 :
  let s : State := at' { threeUp with te := { die.te with ckpt := true } }
  let e := s.die.te
  (s.die.awake = true) ∧
  (e.ckpt = true) ∧
  (s.die.mirrors.length = 3) ∧
  (holdsAfter (exec .checkpointCycleComplete s) (fun t => decide (t.te.ckpt = false ∧ t.te.ckptEnd = s.die.now ∧ t.te.retained = e.sinceStart ∧ t.te.cycle = [])) = true) := by decide +kernel

theorem witness_JournalAndLogArePersisted_5 :
  let s : State := at' { die with aon := { die.aon with time := 86400000000 } }
  (s.die.awake = true) ∧
  (holdsAfter (exec .accountingWindow s) (fun t => decide (t.sch.window = s.die.sch.window + 1 ∧ t.sch.admitted = 0 ∧ t.sch.limit = s.die.admissionLimit ∧ t.sch.profile = s.die.sch.profileNext)) = true) := by decide +kernel

theorem witness_JournalAndLogArePersisted_6 :
  let s : State := at' { die with se := { die.se with scrub := { st := 1 } } }
  let n : Nat := 2
  (s.die.awake = true) ∧
  (n ≤ 2) ∧
  (s.die.se.scrub.st = 1) ∧
  (holdsAfter (exec (.scrubEnd n) s) (fun t => decide (t.se.scrub.st = 2 ∧ t.se.scrub.result = n ∧ t.se.scrubDone = t.se.scrub ∧ t.se.scrub.id = s.die.se.scrub.id)) = true) := by decide +kernel

theorem witness_JournalAndLogArePersisted_7 :
  let s : State := at' { die with lb := { die.lb with seg := [rec0] }, aon := { die.aon with time := 1000000 } }
  (s.die.awake = true) ∧
  (s.die.lb.seg ≠ []) ∧
  (s.die.lb.segAt + 1000000 ≤ s.die.now) ∧
  (holdsAfter (exec .logSegmentTimer s) (fun t => decide (t.lb.seg = [] ∧ t.lb.ring = s.die.lb.ring)) = true) := by decide +kernel

theorem witness_JournalAndLogArePersisted_8 :
  let s : State := at' { die with aon := { die.aon with time := 86400000000 } }
  (s.die.awake = true) ∧
  (s.die.imageOwed = true) ∧
  (holdsAfter (exec .bootImageWrite s) (fun t => decide (t.lb.image = s.die.lb.imageOf ∧ t.lb.imageAt = some s.die.now ∧ t.lb.ring = s.die.lb.ring)) = true) := by decide +kernel

theorem witness_JournalAndLogArePersisted_9 :
  let s : State := at' { die with aon := { die.aon with time := 86400000000 } }
  (s.die.awake = true) ∧
  (holdsAfter (exec .opsecPersist s) (fun t => decide (t.lb = { s.die.lb with opsecSaved := max s.die.lb.opsecSaved s.die.opsec })) = true) := by decide +kernel

theorem witness_DramChannelsWork_1 :
  let s : State := at' (chan { st := .active, cap0 := 32, cap1 := 32, wq := [(1, 0xFF)] })
  let c : Nat := 11
  let x := s.die.chan c
  (s.die.awake = true) ∧
  (x.draining = true ∨ (x.rq = [] ∧ (match x.readAt with | some a => decide (a + 1 ≤ s.die.now) | none => true) = true)) ∧
  (holdsAfter (exec (.dramWriteDrain c) s) (fun t => decide ((t.chan c).wq = x.wq.drop (if 48 ≤ x.wq.length then x.wq.length - 16 else 1) ∧ (t.chan c).merge = x.merge ∧ (t.chan c).st = x.st)) = true) := by decide +kernel

theorem witness_DramChannelsWork_2 :
  let s : State := at' { chan { st := .active, cap0 := 32, merge := [(5, 1, 0)] } with aon := { die.aon with time := 2 } }
  let c : Nat := 11
  let l : Nat := 5
  let x := s.die.chan c
  let m := 1
  let a := 0
  (s.die.awake = true) ∧
  (x.merge.find? (fun y => y.1 == l) = some (l, m, a)) ∧
  (a + 2 ≤ s.die.now) ∧
  (x.wq.length < 64) ∧
  (holdsAfter (exec (.mergeBufferTimeout c l) s) (fun t => decide ((t.chan c).wq = x.wq ++ [(l, m)] ∧ (t.chan c).merge.any (fun m => m.1 == l) = false)) = true) := by decide +kernel

theorem witness_DramChannelsWork_3 :
  let s : State := at' { chan { st := .active, cap0 := 32 } with dc := { (chan { st := .active, cap0 := 32 }).dc with granules := [(3, (11, 0))] } }
  let c : Nat := 11
  let l : Nat := 0
  let w : Nat := 7
  let x := s.die.chan c
  (s.die.awake = true) ∧
  (x.st = .active) ∧
  (l < x.lines) ∧
  (w < 8) ∧
  (x.rq = []) ∧
  ((s.die.dc.byteAt c l w).isSome = true) ∧
  (x.marked (l * 8 + w) = false) ∧
  ((∀ f ∈ x.flips, f.1 ≠ l * 8 + w)) ∧
  (holdsAfter (exec (.dramPatrol c l w .clean) s) (fun t => decide (t = if l + 1 = x.lines ∧ w = 7 then s.die.updChan c (fun y => { y with patrolAt := s.die.now }) else s.die)) = true) ∧
  (holdsAfter (exec (.dramPatrol c l w .corrected) s) (fun t => decide ((t.chan c).ce = satInc 0xFFFFFFFF x.ce ∧ (t.chan c).ue = x.ue ∧ (t.chan c).pbits = x.pbits)) = true) := by decide +kernel

theorem witness_DramChannelsWork_4 :
  let s : State := at' (chan { st := .active, cap0 := 32, cap1 := 32, wq := [(1, 0xFF)] })
  (s.die.awake = true) ∧
  (holdsAfter (exec .refreshWindow s) (fun t => decide (True)) = true) := by decide +kernel

theorem witness_DramChannelsWork_5 :
  let s : State := at' { die with dc := { die.dc with granules := [(3, (11, 0))], chans := [(11, { st := .vacating, cap0 := 32 }), (4, { st := .active, cap0 := 32 })] } }
  let c : Nat := 11
  let x := s.die.chan c
  let g := 3
  let k := 0
  let d := 4
  let h := 0
  (s.die.awake = true) ∧
  (s.die.dc.granules.find? (fun e => e.1 == g) = some (g, c, k)) ∧
  (x.st = .vacating) ∧
  (s.die.dc.roomiest = some d) ∧
  (d ≠ c) ∧
  (s.die.dc.freeSlot d = some h) ∧
  (holdsAfter (exec (.granuleCopyDone g []) s) (fun t => decide (Tbl.get (0, 0) t.dc.granules g = (d, h) ∧ (t.chan d).st = (s.die.chan d).st)) = true) := by decide +kernel

theorem witness_DramChannelsWork_6 :
  let s : State := at' (chan { st := .active, cap0 := 32, cap1 := 32, wq := [(1, 0xFF)] })
  let c : Nat := 11
  let x := s.die.chan c
  (s.die.awake = true) ∧
  (x.st = .active) ∧
  (holdsAfter (exec (.channelFailure c) s) (fun t => decide ((t.chan c).st = .failed ∧ (t.chan c).wq = [] ∧ (t.chan c).merge = [])) = true) := by decide +kernel

theorem witness_TraysAreShared_1 :
  let s : State := State.reset
  let u : Nat := 1
  let i : Nat := 3
  let z : Nat := 0
  let n : Nat := 0
  let b := 1
  let use := 0
  (s.die.awake = true) ∧
  (1 ≤ u) ∧
  (u ≤ 14) ∧
  (s.die.tp.fenced.contains (unitKeyOf u i) = false) ∧
  (sizeFor b = some z) ∧
  (s.die.mayTake z (s.die.tp.useOf use i) i = true) ∧
  (s.die.trayHead z = some n) ∧
  (holdsAfter (exec (.trayAlloc u i b use (s.die.linkWord z n)) s) (fun t => decide (t.tp.tray z n = { st := .held, mask := BitVec.ofNat 14 (2 ^ (u - 1)), inst := i, use := s.die.tp.useOf use i } ∧ t.lb = s.die.lb)) = true) := by decide +kernel

theorem witness_TraysAreShared_2 :
  let s : State := State.reset
  let u : Nat := 1
  let i : Nat := 3
  let z : Nat := 0
  let n : Nat := 0
  let b := 1
  let use := 0
  let w := s.die.linkWord z n + 1
  (s.die.awake = true) ∧
  (1 ≤ u) ∧
  (u ≤ 14) ∧
  (s.die.tp.fenced.contains (unitKeyOf u i) = false) ∧
  (sizeFor b = some z) ∧
  (s.die.mayTake z (s.die.tp.useOf use i) i = true) ∧
  (s.die.trayHead z = some n) ∧
  (w ≠ s.die.linkWord z n) ∧
  (holdsAfter (exec (.trayAlloc u i b use w) s) (fun t => decide ((t.tp.tray z n).st = .quarantined)) = true) := by decide +kernel

theorem witness_TraysAreShared_3 :
  let s : State := at' { die with tp := { die.tp with trays := [(4 * 65536, { st := .held, mask := 0x2000 })] } }
  let u : Nat := 14
  let i : Nat := 3
  let z : Nat := 4
  let n : Nat := 0
  let x := s.die.tp.tray z n
  let v := 1
  (s.die.awake = true) ∧
  (1 ≤ u) ∧
  (u ≤ 14) ∧
  (s.die.tp.fenced.contains (unitKeyOf u i) = false) ∧
  (x.heldBy u = true) ∧
  (1 ≤ v) ∧
  (v ≤ 14) ∧
  (holdsAfter (exec (.trayShare u i z n v) s) (fun t => decide ((t.tp.tray z n).heldBy v = true ∧ (t.tp.tray z n).heldBy u = true ∧ (t.tp.tray z n).use = x.use)) = true) := by decide +kernel

theorem witness_TraysAreShared_4 :
  let s : State := at' { die with tp := { die.tp with trays := [(4 * 65536, { st := .held, mask := 0x2001 })] } }
  let u : Nat := 14
  let i : Nat := 3
  let z : Nat := 4
  let n : Nat := 0
  let x := s.die.tp.tray z n
  (s.die.awake = true) ∧
  (1 ≤ u) ∧
  (u ≤ 14) ∧
  (s.die.tp.fenced.contains (unitKeyOf u i) = false) ∧
  (x.heldBy u = true) ∧
  (x.mask ≠ BitVec.ofNat 14 (2 ^ (u - 1))) ∧
  (holdsAfter (exec (.trayFree u i z n) s) (fun t => decide ((t.tp.tray z n).mask = x.mask &&& ~~~ BitVec.ofNat 14 (2 ^ (u - 1)) ∧ (t.tp.tray z n).st = .held)) = true) := by decide +kernel

theorem witness_TraysAreShared_5 :
  let s : State := at' { die with tp := { die.tp with trays := [(4 * 65536, { st := .held, mask := 0x2000 })] } }
  let u : Nat := 14
  let i : Nat := 3
  let z : Nat := 4
  let n : Nat := 0
  let x := s.die.tp.tray z n
  (s.die.awake = true) ∧
  (1 ≤ u) ∧
  (u ≤ 14) ∧
  (s.die.tp.fenced.contains (unitKeyOf u i) = false) ∧
  (x.heldBy u = true) ∧
  (x.mask = BitVec.ofNat 14 (2 ^ (u - 1))) ∧
  (s.die.bankLost (s.die.tp.bankOf z n) = false) ∧
  (holdsAfter (exec (.trayFree u i z n) s) (fun t => decide (t.tp.tray z n = {} ∧ (Tbl.get [] t.tp.heads z).head? = some n)) = true) := by decide +kernel

theorem witness_DramCommandsAct_1 :
  let s : State := at' (chan { st := .active, cap0 := 32 })
  let q : KReq := ask (le 1 11)
  let c := q.get 0 1
  let alone := ∀ i, i < 12 → i ≠ c → (s.die.chan i).st ≠ .vacating ∧ (s.die.chan i).st ≠ .rejoining
  (s.die.takes q 0x0C02 false 1 [(0, 1)] = true) ∧
  (c < 12) ∧
  ((s.die.chan c).st = .active) ∧
  (alone) ∧
  (s.die.dc.used c = 0) ∧
  (holdsAfter (exec (.dramVacate q) s) (fun t => decide (t.answered q.fn kOk ∧ (t.chan c).st = .vacated ∧ t.life.alert = true)) = true) := by decide +kernel

theorem witness_DramCommandsAct_2 :
  let s : State := at' { die with dc := { die.dc with granules := [(3, (11, 0))], chans := [(11, { st := .active, cap0 := 32 }), (4, { st := .active, cap0 := 32 })] } }
  let q : KReq := ask (le 1 11)
  let c := q.get 0 1
  let alone := ∀ i, i < 12 → i ≠ c → (s.die.chan i).st ≠ .vacating ∧ (s.die.chan i).st ≠ .rejoining
  (s.die.takes q 0x0C02 false 1 [(0, 1)] = true) ∧
  (c < 12) ∧
  ((s.die.chan c).st = .active) ∧
  (alone) ∧
  (0 < s.die.dc.used c) ∧
  (s.die.dc.used c ≤ sumBy (fun i => if i != c && (s.die.chan i).st == .active then s.die.dc.freeOn i else 0) (List.range 12)) ∧
  (holdsAfter (exec (.dramVacate q) s) (fun t => decide (t.stillRuns q.fn 0x0C02 ∧ (t.chan c).st = .vacating ∧ (t.fn q.fn).mbx.progTotal = s.die.dc.used c)) = true) := by decide +kernel

theorem witness_DramCommandsAct_3 :
  let s : State := at' (chan { st := .vacating, cap0 := 32 })
  let q : KReq := ask (le 1 11)
  let c := q.get 0 1
  (s.die.takes q 0x0C03 false 1 [(0, 1)] = true) ∧
  (c < 12) ∧
  ((s.die.chan c).st = .vacating) ∧
  (holdsAfter (exec (.dramCancel q) s) (fun t => decide (t.answered q.fn kOk ∧ (t.chan c).st = .active ∧ t.dc.granules = s.die.dc.granules)) = true) := by decide +kernel

theorem witness_DramCommandsAct_4 :
  let s : State := at' (chan { st := .vacated })
  let q : KReq := ask (le 1 11)
  let c := q.get 0 1
  let f := { ch := 11, dimms := 1, cap0 := 8, cap1 := 0, rate := 0, drfm := false, popOk := true, trainOk := true }
  (s.die.takes q 0x0C04 false 1 [(0, 1)] = true) ∧
  (c < 12) ∧
  ((s.die.chan c).st = .vacated) ∧
  (chanGood f = true) ∧
  (f.trainOk = true) ∧
  (holdsAfter (exec (.dramRejoin q f) s) (fun t => decide ((t.answered q.fn kOk ∨ t.stillRuns q.fn 0x0C04) ∧ (t.chan c).st = .active ∧ (t.chan c).cap0 = f.cap0 ∧ (t.chan c).cap1 = f.cap1 ∧ (t.chan c).pbits = [])) = true) := by decide +kernel

theorem witness_DramCommandsAct_5 :
  let s : State := at' (chan { st := .active, cap0 := 32 })
  let q : KReq := ask (le 2 8)
  (s.die.takes q 0x0C05 false 2 [(0, 2)] = true) ∧
  (8 ≤ q.get 0 2) ∧
  (q.get 0 2 ≤ 128) ∧
  (dramNeed s.die.needUser s.die.rawBytes (q.get 0 2) ≤ s.die.fittedDram) ∧
  (holdsAfter (exec (.proofSizeSet q) s) (fun t => decide (t.answered q.fn kOk ∧ t.dc = { s.die.dc with proofNext := q.get 0 2 })) = true) := by decide +kernel

theorem witness_DramCommandsAct_6 :
  let s : State := at' { chan { st := .active, cap0 := 32 } with mc := { die.mc with policy := 0, policyForce := 0 } }
  let q : KReq := ask (le 1 11 ++ padTo 22 [] ++ le 1 1)
  let c := q.get 0 1
  (s.die.takes q 0x0D01 false 24 [(0, 24)] = true) ∧
  (injectBad q = none) ∧
  (s.die.testLock = false) ∧
  (q.get 23 1 ≠ 0) ∧
  ((s.die.chan c).inject = none) ∧
  (holdsAfter (exec (.dramInject q) s) (fun t => decide (t.answered q.fn kOk)) = true) := by decide +kernel

theorem witness_BerthCommandsAct_1 :
  let s : State := at' { berth port0 with rc := { die.rc with groups := [(groupOf 1023, { grp with k := 6 })] } }
  let q : KReq := ask (le 2 1023)
  let d := s.die
  let p := q.get 0 2
  let x := d.port p
  (p < Config.ports) ∧
  (d.takes q 0x0B02 false 2 [(0, 2)] = true) ∧
  (x.st = .online) ∧
  ((d.drainNeeds p).length ≤ d.drainRoom p) ∧
  (holdsAfter (exec (.berthPrepare q) s) (fun t => decide (t.answered q.fn kOk ∧ (t.port p).st = .draining)) = true) := by decide +kernel

theorem witness_BerthCommandsAct_2 :
  let s : State := at' { berth { port0 with st := .draining } with se := { die.se with rebuild := [(5, 1023)] } }
  let q : KReq := ask (le 2 1023)
  let d := s.die
  let p := q.get 0 2
  let x := d.port p
  (p < Config.ports) ∧
  (d.takes q 0x0B04 false 2 [(0, 2)] = true) ∧
  (x.st = .draining) ∧
  (holdsAfter (exec (.berthCancel q) s) (fun t => decide (True)) = true) := by decide +kernel

theorem witness_BerthCommandsAct_3 :
  let s : State := at' (berth port0)
  let q : KReq := ask (le 2 1023)
  let d := s.die
  let p := q.get 0 2
  let x := d.port p
  (p < Config.ports) ∧
  (d.takes q 0x0B03 false 2 [(0, 2)] = true) ∧
  (x.st = .online) ∧
  (d.rusHeld p = []) ∧
  (d.qe.tags = []) ∧
  (d.openRusWith (fun u => u.members.any (fun m => m.port == p)) = []) ∧
  (x.outst = []) ∧
  (d.sch.queued = []) ∧
  (holdsAfter (exec (.berthRelease q) s) (fun t => decide (t.answered q.fn kOk ∧ (t.port p).st = .released ∧ (t.port p).asked lmgtRelease = true)) = true) := by decide +kernel

theorem witness_BerthCommandsAct_3_all :
  let s : State := at' (berth port0)
  let q : KReq := ask (le 2 1023)
  let d := s.die
  let p := q.get 0 2
  let x := d.port p
  ∀ g, (d.group g).formed = false := by
  intros
  rfl

theorem witness_BerthCommandsAct_4 :
  let s : State := at' (berth { port0 with st := .quarantine })
  let q : KReq := ask (le 2 1023 ++ le 1 1)
  let d := s.die
  let p := q.get 0 2
  let x := d.port p
  (p < Config.ports) ∧
  (d.takes q 0x0B05 false 3 [(0, 3)] = true) ∧
  ((x.st = .quarantine ∧ q.get 2 1 ≤ 1 ∨ x.st = .released ∧ q.get 2 1 = 0)) ∧
  (holdsAfter (exec (.berthAdmit q) s) (fun t => decide (t.answered q.fn kOk ∧ (t.port p).st = .powering ∧ (t.port p).pwrEn = true ∧ (t.port p).eraseSys = (q.get 2 1 == 1))) = true) := by decide +kernel

theorem witness_BerthCommandsAct_5 :
  let s : State := at' (berth { port0 with st := .fault, enabled := false })
  let q : KReq := ask (le 2 1023)
  let d := s.die
  let p := q.get 0 2
  let x := d.port p
  (p < Config.ports) ∧
  (d.takes q 0x0B06 false 2 [(0, 2)] = true) ∧
  (x.st = .fault) ∧
  (holdsAfter (exec (.berthClearFault q) s) (fun t => decide (t.answered q.fn kOk ∧ (t.port p).cause = 0 ∧ (t.port p).st = (if x.enabled then .powering else .present))) = true) := by decide +kernel

theorem witness_BerthCommandsAct_6 :
  let s : State := at' (berth { st := .present, enabled := false })
  let q : KReq := ask (le 2 1023 ++ le 1 1)
  let d := s.die
  let p := q.get 0 2
  (p < Config.ports) ∧
  (d.takes q 0x0B09 false 3 [(0, 3)] = true) ∧
  (q.get 2 1 ≤ 1) ∧
  (holdsAfter (exec (.portEnableSet q) s) (fun t => decide (t.answered q.fn kOk ∧ (t.port p).enabled = (q.get 2 1 == 1))) = true) := by decide +kernel

theorem witness_BerthCommandsAct_7 :
  let s : State := at' (berth port0)
  let q : KReq := ask (le 2 1023 ++ le 2 15 ++ le 4 2 ++ [1, 0x90])
  let d := s.die
  let p := q.get 0 2
  let x := d.port p
  let pp := pass0
  let returned := []
  (p < Config.ports) ∧
  (d.takes q 0x0B07 false 8 [(0, 3), (4, 2), (8, q.get 4 2)] = true) ∧
  (tunnelBad q = none) ∧
  (x.passport = some pp) ∧
  (d.portServes p = true) ∧
  (x.dfence.getLsbD (q.get 2 1) = false) ∧
  (q.get 2 1 < pp.dies) ∧
  (d.outstAt p (q.get 2 1) = []) ∧
  ((d.dsch (dieKey p (q.get 2 1))).tunnel = false) ∧
  ((d.dsch (dieKey p (q.get 2 1))).tunnelRsp = none) ∧
  (x.canSend = true) ∧
  (holdsAfter (exec (.berthTunnel q returned) s) (fun t => decide (t.stillRuns q.fn 0x0B07 ∧ (t.dsch (dieKey p (q.get 2 1))).tunnel = true)) = true) := by decide +kernel

theorem witness_BerthCommandsAct_8 :
  let s : State := at' { (berth port0) with sch := { die.sch with dies := [(dieKey 1023 15, { tunnel := true, tunnelRsp := some 0 })] }, funcs := [(0, { mbx := { st := .running, opcode := 0x0B07, seq := 7, held := true, cmd := some (ask (le 2 1023 ++ le 2 15 ++ le 4 2 ++ [1, 0x90])) } })] }
  let q : KReq := ask (le 2 1023 ++ le 2 15 ++ le 4 2 ++ [1, 0x90])
  let d := s.die
  let p := q.get 0 2
  let x := d.port p
  let pp := pass0
  let returned := []
  (p < Config.ports) ∧
  ((d.updMbx q.fn (fun m => { m with st := .idle })).takes q 0x0B07 false 8 [(0, 3), (4, 2), (8, q.get 4 2)] = true) ∧
  ((d.fn q.fn).mbx.st = .running) ∧
  ((d.fn q.fn).mbx.held = true) ∧
  ((d.fn q.fn).mbx.cmd = some q) ∧
  ((d.fn q.fn).mbx.opcode = 0x0B07) ∧
  ((d.fn q.fn).mbx.answers = []) ∧
  (tunnelBad q = none) ∧
  (x.passport = some pp) ∧
  (d.portServes p = true) ∧
  (x.dfence.getLsbD (q.get 2 1) = false) ∧
  (q.get 2 1 < pp.dies) ∧
  ((d.dsch (dieKey p (q.get 2 1))).tunnelRsp = some 0) ∧
  (holdsAfter (exec (.berthTunnel q returned) s) (fun t => decide ((t.dsch (dieKey p (q.get 2 1))).tunnelRsp = none ∧ (let n := tunnelReads (tunnelCycles q (q.get 4 2)); t.answeredWith q.fn kOk (le 2 n ++ le 2 0 ++ padTo n (if x.sysData.isEmpty then returned else x.sysData))))) = true) := by decide +kernel

theorem witness_WorkersComeAndGo_1 :
  let s : State := at' { die with ql := { die.ql with pos := [(15, { st := .offered, dsn := 77, lanes := 4 })] } }
  let q : KReq := ask (le 1 15)
  let d := s.die
  let w := q.get 0 1
  (d.takes q 0x0A02 false 1 [(0, 1)] = true) ∧
  (w < 16) ∧
  ((d.qpos w).st = .offered) ∧
  ((d.qpos w).recDsn = 0) ∧
  (holdsAfter (exec (.workerAdmit q) s) (fun t => decide (t.stillRuns q.fn 0x0A02 ∧ (t.qpos w).st = .joining ∧ (t.qpos w).recDsn = (d.qpos w).dsn)) = true) := by decide +kernel

theorem witness_WorkersComeAndGo_2 :
  let s : State := at' { die with fw := fwB .empty, ql := { die.ql with pos := [(15, { st := .joining, dsn := 77, lanes := 4 })] } }
  let d := s.die
  let i := 15
  (d.awake = true) ∧
  (d.life.manager = true) ∧
  (i < 16) ∧
  ((d.qpos i).st = .joining) ∧
  (d.qe.hold = false) ∧
  (holdsAfter (exec (.joinComplete i) s) (fun t => decide ((t.qpos i).st = .serving ∧ (t.qpos i).fwVer = d.fw.runVer)) = true) := by decide +kernel

theorem witness_WorkersComeAndGo_3 :
  let s : State := at' { die with ql := { die.ql with pos := [(15, { st := .serving, dsn := 77, lanes := 4 })] } }
  let q : KReq := ask (le 1 15)
  let d := s.die
  let w := q.get 0 1
  (d.takes q 0x0A03 false 1 [(0, 1)] = true) ∧
  (d.life.manager = true) ∧
  (w < 16) ∧
  ((d.qpos w).st = .serving) ∧
  ((w % 4 = 0 → ∀ i ∈ [w + 1, w + 2, w + 3], (d.qpos i).st = .retired ∨ (d.qpos i).st = .absent ∨ (d.qpos i).st = .lost)) ∧
  (holdsAfter (exec (.workerRetire q) s) (fun t => decide (t.stillRuns q.fn 0x0A03 ∧ (t.qpos w).st = .leaving)) = true) := by decide +kernel

theorem witness_WorkersComeAndGo_4 :
  let s : State := at' { die with ql := { die.ql with pos := [(15, { st := .adopting, dsn := 77, lanes := 4 })] } }
  let q : KReq := ask (le 1 15)
  let d := s.die
  let w := q.get 0 1
  let img := {}
  (d.takes q 0x0A04 false 1 [(0, 1)] = true) ∧
  (d.life.manager = true) ∧
  (w < 16) ∧
  ((d.qpos w).st = .adopting) ∧
  (holdsAfter (exec (.berthAdopt (q, img)) s) (fun t => decide (t.stillRuns q.fn 0x0A04 ∧ .wireMgmt w (.kanexCommand 0x0A04 (some q)) ∈ t.out ∧ t.rc = d.rc)) = true) := by decide +kernel

theorem witness_WorkersComeAndGo_5 :
  let s : State := at' { worker with ql := { worker.ql with pos := [(15, { st := .adopting })] } }
  let q : KReq := ask (le 1 15)
  let d := s.die
  let w := q.get 0 1
  let img : AdoptImage := { reserved := [(3, 2)] }
  (d.takes q 0x0A04 false 1 [(0, 1)] = true) ∧
  (d.life.manager = false) ∧
  (w < 16) ∧
  ((d.qpos d.life.quayId).st = .adopting) ∧
  (holdsAfter (exec (.berthAdopt (q, img)) s) (fun t => decide (t.answered q.fn kOk ∧ (t.qpos d.life.quayId).st = .absent)) = true) := by decide +kernel

theorem witness_WorkersComeAndGo_6 :
  let s : State := at' { die with ql := { die.ql with pos := [(15, { st := .offered, dsn := 77, lanes := 4 })] } }
  let q : KReq := ask (le 2 3 ++ le 2 190)
  let d := s.die
  let w := q.get 0 1
  (d.takes q 0x0A05 false 4 [(0, 1), (2, 2)] = true) ∧
  (hierProfileBad q = none) ∧
  (holdsAfter (exec (.hierProfileSet q) s) (fun t => decide (t.applied d q.fn ∧ t.sch.profileNext = w ∧ t.ql.hierProfile = some (w, q.get 2 2))) = true) := by decide +kernel

theorem witness_WorkersComeAndGo_7 :
  let s : State := at' worker
  let d := s.die
  let e := dock0
  (d.settledP0 = true) ∧
  (d.life.manager = false) ∧
  (holdsAfter (exec (.workerUpstreamLoss e) s) (fun t => decide (t.life.phase = .parked)) = true) := by decide +kernel

theorem witness_WorkersComeAndGo_8 :
  let s : State := at' { worker with aon := { die.aon with pstate := 3 } }
  let d := s.die
  let e := dock0
  (d.awake = true) ∧
  (d.aon.pstate = 3) ∧
  (d.aon.entering = false) ∧
  (d.aon.committed = false) ∧
  (d.life.manager = false) ∧
  (holdsAfter (exec (.workerUpstreamLoss e) s) (fun t => decide (t.life.phase = .parked ∧ t.ql.upstream = false ∧ t.nss = d.nss)) = true) := by decide +kernel

theorem witness_QuayLinksCarry_4 :
  let s : State := at' { die with ql := { die.ql with pos := [(12, { st := .serving, lanes := 8, dsn := 5, recDsn := 5 }), (15, { st := .serving, lanes := 8, dsn := 77, recDsn := 77 })] } }
  let i : Nat := 15
  let d := s.die
  let p := d.qpos i
  let m := d.life.manager
  (s.die.awake = true) ∧
  (m = true) ∧
  (i < 16) ∧
  (i % 4 ≠ 0) ∧
  (p.st = .serving) ∧
  (p.recDsn ≠ 0) ∧
  (p.cause ≠ 6) ∧
  (d.qe.tags = []) ∧
  (d.fw.live = false) ∧
  (holdsAfter (exec (.quayLinkLost i) s) (fun y => decide ((y.qpos i).st = .lost ∧ (y.qpos i).cause = 5 ∧ (y.qpos i).lanes = 0)) = true) := by decide +kernel

theorem witness_QuayLinksCarry_4_all :
  let s : State := at' { die with ql := { die.ql with pos := [(12, { st := .serving, lanes := 8, dsn := 5, recDsn := 5 }), (15, { st := .serving, lanes := 8, dsn := 77, recDsn := 77 })] } }
  let i : Nat := 15
  let d := s.die
  let p := d.qpos i
  let m := d.life.manager
  ∀ n, (d.fn n).aers = [] := by
  intros
  rfl

theorem witness_QuayLinksCarry_5 :
  let s : State := at' { die with ql := { die.ql with pos := [(12, { st := .serving, lanes := 8, dsn := 5, recDsn := 5 }), (15, { st := .serving, lanes := 8, dsn := 77, recDsn := 77 })] } }
  let i : Nat := 15
  let d := s.die
  let p := d.qpos i
  (s.die.awake = true) ∧
  (d.hasLink i = true) ∧
  (p.times = []) ∧
  (holdsAfter (exec (.quayTimeLockLost i) s) (fun y => decide (y.qpos i = { p with retrains := satInc 0xFFFF p.retrains, times := [d.now] })) = true) := by decide +kernel

theorem witness_QuayLinksCarry_6 :
  let s : State := at' { die with ql := { die.ql with pos := [(12, { st := .serving, lanes := 8, dsn := 5, recDsn := 5 }), (15, { st := .serving, lanes := 8, dsn := 77, recDsn := 77 })] } }
  let i : Nat := 15
  let d := s.die
  let p := d.qpos i
  (s.die.awake = true) ∧
  (d.hasLink i = true) ∧
  (p.times = []) ∧
  (holdsAfter (exec (.quayLinkSilence i) s) (fun y => decide (y.qpos i = { p with retrains := satInc 0xFFFF p.retrains, times := [d.now] } ∧ (y.rung 4 i).step = 1)) = true) := by decide +kernel

theorem witness_QuayLinksCarry_7 :
  let s : State := at' { die with ql := { die.ql with pos := [(12, { st := .serving, lanes := 8, dsn := 5, recDsn := 5 }), (15, { st := .serving, lanes := 8, dsn := 77, recDsn := 77 })] } }
  let i : Nat := 15
  let d := s.die
  let p := d.qpos i
  let n := 4
  (s.die.awake = true) ∧
  (n < p.lanes) ∧
  (n = 4 ∨ n = 2) ∧
  (p.times = []) ∧
  (holdsAfter (exec (.quayLaneNarrow i n) s) (fun y => decide ((y.qpos i).lanes = n ∧ (y.qpos i).st = p.st ∧ (y.qpos i).retrains = satInc 0xFFFF p.retrains)) = true) := by decide +kernel

theorem witness_QuayLinksCarry_8 :
  let s : State := at' { die with ql := { die.ql with pos := [(12, { st := .serving, lanes := 8, dsn := 5, recDsn := 5 }), (15, { st := .serving, lanes := 8, dsn := 77, recDsn := 77 })] } }
  let i : Nat := 15
  let d := s.die
  (s.die.awake = true) ∧
  (holdsAfter (exec (.quayFlitCrcDiscard i) s) (fun y => decide (y = { d with ql := { d.ql with crc := (d.ql.crc + 1) % 2 ^ 32 } })) = true) := by decide +kernel

theorem witness_QuayLinksCarry_9 :
  let s : State := at' { worker with nss := [(1, { nsConv with home := 1 })] }
  let t : Nat := 65279
  let d := s.die
  let x := d.tag t
  let m := d.life.manager
  let g := 5
  let fn := 3
  let cls := 1
  let e := sqe 0 1 0 0 0 0
  let s0 := 5
  let dl := 6
  let dlv := false
  (s.die.awake = true) ∧
  (m = false) ∧
  (t < Config.tags) ∧
  ((d.ns e.ns).alive = true) ∧
  (x.st = .free) ∧
  (rwOpcodes.contains e.opc = false) ∧
  (holdsAfter (exec (.quayCmd ⟨t, g⟩ ⟨fn, cls⟩ e s0 dl dlv) s) (fun y => decide ((y.tag t).st = .admitted ∧ (y.tag t).gen = g ∧ (y.tag t).fn = fn ∧ (y.tag t).stamp.cls = cls ∧ (y.tag t).entry = some e ∧ (y.tag t).stamp.s0 = s0 ∧ (y.tag t).stamp.deadline = dl)) = true) := by decide +kernel

theorem witness_QuayLinksCarry_10 :
  let s : State := at' (under die { ioT (sqe 2 1 100 0 1 0) with forwarded := true })
  let t : Nat := 9
  let d := s.die
  let x := d.tag t
  let m := d.life.manager
  let e := sqe 2 1 100 0 1 0
  let off := 0
  let data := [7, 8]
  let hm := [9]
  (s.die.awake = true) ∧
  (m = true) ∧
  (x.entry = some e) ∧
  (x.forwarded = true) ∧
  (x.live = true) ∧
  (e.opc = 0x02) ∧
  (off + data.length ≤ e.nlb) ∧
  ((d.qe.hold = false ∨ x.st = .ret)) ∧
  (d.stopsHere t = none) ∧
  (holdsAfter (exec (.quayData ⟨t, x.gen⟩ off data hm false) s) (fun y => decide ((y.tag t).st = .ret)) = true) := by decide +kernel

theorem witness_QuayLinksCarry_11 :
  let s : State := at' { die with ql := { die.ql with pos := [(12, { st := .serving, lanes := 8, dsn := 5, recDsn := 5 }), (15, { st := .serving, lanes := 8, dsn := 77, recDsn := 77 })] } }
  let t : Nat := 9
  let d := s.die
  let x := d.tag t
  let g := 1
  let off := 0
  let data := []
  let hm := []
  let b := false
  (s.die.awake = true) ∧
  (x.gen ≠ g) ∧
  (holdsAfter (exec (.quayData ⟨t, g⟩ off data hm b) s) (fun y => decide (y = { d with qe := { d.qe with stale := d.qe.stale + 1 } })) = true) := by decide +kernel

theorem witness_QuayLinksCarry_12 :
  let s : State := at' (under die { ioT (sqe 2 1 100 0 1 0) with forwarded := true })
  let t : Nat := 9
  let d := s.die
  let x := d.tag t
  let m := d.life.manager
  let c : QuayCplMsg := { sct := 2, sc := 0x81, dnr := true, dw0 := 5, dw1 := 1, errLba := 101 }
  (s.die.awake = true) ∧
  (m = true) ∧
  (x.forwarded = true) ∧
  (x.live = true) ∧
  (x.st ≠ .posting) ∧
  (x.target = none) ∧
  (d.qe.hold = false) ∧
  (d.stopsHere t = none) ∧
  (holdsAfter (exec (.quayCpl ⟨t, x.gen⟩ c) s) (fun y => decide (y.ends t (c.sct, c.sc) ∧ (y.tag t).dw0 = c.dw0 ∧ (y.tag t).errLba = c.errLba)) = true) := by decide +kernel

theorem witness_QuayLinksCarry_13 :
  let s : State := at' { die with ql := { die.ql with pos := [(12, { st := .serving, lanes := 8, dsn := 5, recDsn := 5 }), (15, { st := .serving, lanes := 8, dsn := 77, recDsn := 77 })] } }
  let t : Nat := 9
  let d := s.die
  let x := d.tag t
  let g := 1
  let c : QuayCplMsg := { sct := 2, sc := 0x81, dnr := true, dw0 := 5, dw1 := 1, errLba := 101 }
  (s.die.awake = true) ∧
  (x.gen ≠ g) ∧
  (holdsAfter (exec (.quayCpl ⟨t, g⟩ c) s) (fun y => decide (y = { d with qe := { d.qe with stale := d.qe.stale + 1 } })) = true) := by decide +kernel

theorem witness_QuayLinksCarry_14 :
  let s : State := at' worker
  let i : Nat := 15
  let d := s.die
  let m := d.life.manager
  let w := [(0, 5)]
  (s.die.awake = true) ∧
  (m = false) ∧
  (holdsAfter (exec (.quayMgmt i (.weights w)) s) (fun y => decide (y.sch = { d.sch with wNext := some w } ∧ y.tenants = d.tenants)) = true) := by decide +kernel

theorem witness_QuayLinksCarry_15 :
  let s : State := at' { die with ql := { die.ql with pos := [(12, { st := .serving, lanes := 8, dsn := 5, recDsn := 5 }), (15, { st := .serving, lanes := 8, dsn := 77, recDsn := 77 })] } }
  let i : Nat := 15
  let d := s.die
  let p := d.qpos i
  let m := d.life.manager
  let cap := 2 ^ 40
  let ps := 3
  let g := 1
  let used := []
  let keys := [(0, 1, 2, 3)]
  (s.die.awake = true) ∧
  (m = true) ∧
  (i < 16) ∧
  (holdsAfter (exec (.quayMgmt i (.summary cap ps g used keys)) s) (fun y => decide (y.qpos i = { p with userCap := cap, pstate := ps % 4, formed := g, keys := keys })) = true) := by decide +kernel

theorem witness_QuayLinksCarry_16 :
  let s : State := at' worker
  let d := s.die
  let m := d.life.manager
  let f := none
  let k := 4095
  let key := 99
  (s.die.awake = true) ∧
  (m = false) ∧
  (k < 4096) ∧
  ((d.slot k).st = .empty) ∧
  (holdsAfter (exec (.quayKey f k (.slot key 1)) s) (fun y => decide ((y.slot k).st = .write ∧ (y.slot k).key = key ∧ (y.slot k).epoch = (d.slot k).epoch + 1)) = true) := by decide +kernel

theorem witness_QuayLinksCarry_17 :
  let s : State := at' worker
  let d := s.die
  let m := d.life.manager
  let us := 12
  (s.die.awake = true) ∧
  (m = false) ∧
  (holdsAfter (exec (.quayTime us) s) (fun y => decide (y.ql.timeOffset = (us : Int) - ((d.aon.time - d.aon.zero : Nat) : Int))) = true) := by decide +kernel

theorem witness_MailboxRunsOneCommand_2 :
  let s : State := at' (pf { mbx := { st := .running, opcode := 0x0701, seq := 5 } })
  let n : Nat := 0
  let m := (s.die.fn n).mbx
  let rejected := s.die.updMbx n (fun x => { x with event := x.event ||| 4#3 })
  let q : KReq := ask []
  let p : Nat × Bool × (KReq → Instr) := (0x0101, false, .identify)
  (s.die.awake = true) ∧
  (n < Config.functions) ∧
  (s.die.mbxPresent n = true) ∧
  (s.die.mbxUnavailable n = false) ∧
  (m.st = .running) ∧
  (q.fn = n) ∧
  (m.held = false ∨ m.cmd ≠ some q) ∧
  (holdsAfter (exec (p.2.2 q) s) (fun t => decide (t = rejected)) = true) := by decide +kernel

theorem witness_MailboxRunsOneCommand_3 :
  let s : State := at' (pf { mbx := { st := .running, opcode := 0x0701, seq := 5 } })
  let n : Nat := 0
  let m := (s.die.fn n).mbx
  let rejected := s.die.updMbx n (fun x => { x with event := x.event ||| 4#3 })
  let seq := 6
  (s.die.awake = true) ∧
  (n < Config.functions) ∧
  (s.die.mbxPresent n = true) ∧
  (s.die.mbxUnavailable n = false) ∧
  (m.st = .running) ∧
  (m.seq ≠ seq % 65536) ∧
  (holdsAfter (exec (.abandon n seq) s) (fun t => decide (t = rejected)) = true) := by decide +kernel

theorem witness_StoppingMailboxIsBusy_1 :
  let s : State := at' (pf { mbx := { st := .done, stopping := true, classFrom := 0 } })
  let n : Nat := 0
  let m := (s.die.fn n).mbx
  let q : KReq := ask []
  let p : Nat × Bool × (KReq → Instr) := (0x0101, false, .identify)
  (s.die.life.phase = .ready) ∧
  (n < Config.functions) ∧
  (s.die.mbxPresent n = true) ∧
  (s.die.mbxUnavailable n = false) ∧
  (m.st ≠ .running) ∧
  (s.die.mbxStopping n = true) ∧
  (q.fn = n) ∧
  (s.die.standing q p.1 = false) ∧
  (holdsAfter (exec (p.2.2 q) s) (fun t => decide ((t.fn n).mbx.st = .done)) = true) := by decide +kernel

theorem witness_StoppingMailboxIsBusy_2 :
  let s : State := at' { pf { mbx := { stopping := true } } with aon := { die.aon with time := 1000000 } }
  let n : Nat := 0
  let m := (s.die.fn n).mbx
  (m.classFrom + 1000000 ≤ s.die.now) ∧
  (s.die.mbxStopping n = false) := by decide +kernel

theorem witness_BoundQueueIsNotDeleted :
  let s : State := at' (under { die with funcs := [(0, { cqs := [(3, { size := 2 })], sqs := [(1, { size := 2, cq := 3 })] })] } (adminT (sqe 4 0 3 0 0 0)))
  let t : Nat := 9
  let e : SqEntry := sqe 4 0 3 0 0 0
  let k : Nat := 1
  let q : Sq := { size := 2, cq := 3 }
  let f := s.die.fn (s.die.tag t).fn
  (s.die.adminTag t 0x04 e) ∧
  (e.qid ≠ 0) ∧
  ((f.cq e.qid).size ≠ 0) ∧
  ((k, q) ∈ f.sqs) ∧
  (q.size ≠ 0) ∧
  (q.cq = e.qid) ∧
  (holdsAfter (exec (.deleteIoCq t) s) (fun u => decide (u.ends t (1, 0x0C) ∧ u.funcs = s.die.funcs)) = true) := by decide +kernel

theorem witness_AbortLimitIsSixteen_1 :
  let s : State := at' { die with qe := { die.qe with tags := (9, { adminT (sqe 8 0 1 0 0 0) with order := 16 }) :: (List.range 16).map (fun i => (100 + i, { adminT (sqe 8 0 1 0 0 0) with order := i })) } }
  let t : Nat := 9
  let e : SqEntry := sqe 8 0 1 0 0 0
  let x := s.die.tag t
  let older := (s.die.qe.tags.filter (fun u => u.1 != t && u.2.st != .free && u.2.fn == x.fn && u.2.adminOpc == 0x08 && decide (u.2.order < x.order))).length
  (s.die.adminTag t 0x08 e) ∧
  (x.target = none) ∧
  (16 ≤ older) ∧
  (holdsAfter (exec (.abort t) s) (fun u => decide (u.ends t (1, 0x03) ∧ u = s.die.finish t (1, 0x03))) = true) := by decide +kernel

theorem witness_AbortLimitIsSixteen_2 :
  let s : State := at' { die with qe := { die.qe with tags := (9, { adminT (sqe 8 0 1 0 0 0) with order := 15 }) :: (List.range 15).map (fun i => (100 + i, { adminT (sqe 8 0 1 0 0 0) with order := i })) } }
  let t : Nat := 9
  let e : SqEntry := sqe 8 0 1 0 0 0
  let x := s.die.tag t
  let older := (s.die.qe.tags.filter (fun u => u.1 != t && u.2.st != .free && u.2.fn == x.fn && u.2.adminOpc == 0x08 && decide (u.2.order < x.order))).length
  (s.die.adminTag t 0x08 e) ∧
  (x.target = none) ∧
  (older < 16) ∧
  (holdsAfter (exec (.abort t) s) (fun u => decide (¬ u.ends t (1, 0x03))) = true) := by decide +kernel

theorem witness_ChecksChangeOnlyTheAnswer_1 :
  let d : Die := die
  let q : KReq := { ask [] with dptr := 1 }
  let c : KCmd := { op := 0x0701, body := fun d => .ok d [] }
  let bulk := c.op == 0x0403 || c.op == 0x0902 || (catRow c.op).isNone
  let reached := d.life.phase == .ready && decide (q.fn < Config.functions) && d.mbxPresent q.fn && !d.mbxUnavailable q.fn && (d.fn q.fn).mbx.st != .running && !d.standing q c.op && !d.mbxStopping q.fn && !d.qe.hold && (d.tenant q.fn).alive && q.dbSeq == q.seq
  let o := 24
  (reached = true) ∧
  (kHeaderBad q bulk = some o) := by decide +kernel

theorem witness_ChecksChangeOnlyTheAnswer_2 :
  let d : Die := { die with tenants := [(0, Tenant.owner), (3, Tenant.owner)], link := { die.link with vfEnable := true, numVfs := 7 } }
  let q : KReq := { ask [] with tfunc := 5, fn := 3 }
  let c : KCmd := { op := 0x0204, body := fun d => .ok d [] }
  let bulk := c.op == 0x0403 || c.op == 0x0902 || (catRow c.op).isNone
  let reached := d.life.phase == .ready && decide (q.fn < Config.functions) && d.mbxPresent q.fn && !d.mbxUnavailable q.fn && (d.fn q.fn).mbx.st != .running && !d.standing q c.op && !d.mbxStopping q.fn && !d.qe.hold && (d.tenant q.fn).alive && q.dbSeq == q.seq
  (reached = true) ∧
  (kHeaderBad q bulk = none) ∧
  ((catRow c.op).isSome = true) ∧
  ((kPriv c.op = 0 ∧ q.fn ≠ 0 ∨ kForeign q (kPriv c.op) = true)) := by decide +kernel

theorem witness_ResetMeetsTheInvariants_1 :
  let d := State.reset.die
  (d.ownerAlive = true) := by decide +kernel

theorem witness_ResetMeetsTheInvariants_2 :

  (State.reset.pending = []) := by decide +kernel

theorem witness_ResetMeetsTheInvariants_3 :
  let d := State.reset.die
  (d.qe.tags = []) := by decide +kernel

/-! ## Witnesses written by hand -/

/-- A sector whose tag is the one its key gives. -/
def tagged : Sector :=
  { md := { tag := Config.gcmTag (die.keyOf 1 0) (ivOf 0 0) ({} : SMeta).aad (({} : SMeta).hmeta ++ (0 : SectorData)) } }

/-- A job whose sector is in a cipher lane. -/
def jobCipher : Job := { job0 with stage := .cipher, sec := tagged }

theorem witness_MediaIsKept_2 :
    let s := at' { under die (ioT (sqe 2 1 0 0 0 0)) with se := { die.se with jobs := [(1, some jobCipher)] } }
    s.die.awake = true ∧ s.die.job 1 = some jobCipher ∧ jobCipher.stage = .cipher ∧ s.die.tagVerifies jobCipher.ns jobCipher.sec = true
      ∧ s.die.selfOk jobCipher.ns jobCipher.sect jobCipher.sec = true :=
  ⟨by decide +kernel, rfl, rfl, beq_self_eq_true _, by decide +kernel⟩

/-- A die whose PF mailbox runs a command. -/
def dieRunning : Die := pf { mbx := { st := .running, opcode := 0x0701, seq := 5 } }

theorem witness_MailboxRunsOneCommand_1 :
    let m := (dieRunning.fn 0).mbx
    dieRunning.awake = true ∧ (0 < Config.functions) ∧ dieRunning.fnPresent 0 = true ∧ dieRunning.mbxUnavailable 0 = false ∧ m.st = .running
      ∧ (ask []).fn = 0 ∧ m.held = false ∧ dieRunning.kanex (ask []) { op := 0x0701, body := fun d => .ok d [] }
        = dieRunning.updMbx 0 (fun x => { x with event := x.event ||| 4#3 }) := by
  refine ⟨by decide +kernel, by decide, by decide +kernel, by decide +kernel, rfl, rfl, rfl, ?_⟩
  exact of_decide_eq_true (by decide +kernel)

theorem witness_MailboxRunsOneCommand_4 :
    let m := (dieRunning.fn 0).mbx
    { ((dieRunning.updMbx 0 (fun x => { x with event := x.event ||| 4#3 })).fn 0).mbx with event := m.event } = m := by decide +kernel

theorem witness_ResetMeetsTheInvariants_4 : ∀ n, (State.reset.die.fn n).mbx.st = .idle := fun _ => rfl

theorem witness_ResetMeetsTheInvariants_5 : ∀ k, (State.reset.die.slot k).st = .empty := fun _ => rfl

theorem witness_ResetMeetsTheInvariants_6 : (3 : Nat) ≠ 0 ∧ (State.reset.die.tenant 3).alive = false := by decide +kernel

theorem witness_SettingsKeepTheRest_1 :
    let q := ask (le 4 5)
    die.takes q 0x0104 false 4 [(0, 4)] = true ∧ q.get 0 4 < 8
      ∧ holdsAfter (exec (.policySet q) State.reset) (fun t => t.mc.policy == 5 && t.answered 0 kOk) = true := by decide +kernel

theorem witness_SettingsKeepTheRest_2 :
    let q := ask [2]
    die.takes q 0x0502 false 1 [(0, 1)] = true ∧ holdsAfter (exec (.profileSet q) State.reset) (fun t => t.answered 0 kOk) = true := by
  decide +kernel

theorem witness_SettingsKeepTheRest_3 :
    let q := ask (le 2 40)
    die.takes q 0x0503 false 2 [(0, 2)] = true ∧ holdsAfter (exec (.powerCapSet q) State.reset) (fun t => t.sameButAnswer { die with sch := t.sch }) = true := by
  decide +kernel

theorem witness_SettingsKeepTheRest_4 :
    let q := ask (le 2 30)
    die.takes q 0x0705 false 2 [(0, 2)] = true ∧ holdsAfter (exec (.patrolSet q) State.reset) (fun t => t.sameButAnswer { die with rc := t.rc }) = true := by
  decide +kernel

theorem witness_SettingsKeepTheRest_5 :
    let q := ask (le 2 60)
    die.takes q 0x0B0A false 2 [(0, 2)] = true ∧ holdsAfter (exec (.rejoinWindowSet q) State.reset) (fun t => t.sameButAnswer { die with se := t.se }) = true := by
  decide +kernel

theorem witness_SettingsKeepTheRest_6 :
    let q := ask [20, 20, 20, 20, 20]
    die.takes q 0x0C06 false 5 [(0, 5)] = true ∧ holdsAfter (exec (.traySplitSet q) State.reset) (fun t => t.sameButAnswer { die with tp := t.tp }) = true := by
  decide +kernel

theorem witness_BerthFlitsKeepTheRest :
    ({ pending := [], die := die } : State) = State.reset
      ∧ holdsAfter (exec (.nakRepeat 1023) (at' { berth { port0 with nak := true } with aon := { die.aon with time := 4 } })) (fun t => t.out != die.out && t.bp.ports.length == 1) = true := by
  decide +kernel

theorem witness_MemoryReadsWhatWasWritten :
    Memory.wf [] = true ∧ Memory.write [] 5 7 = [(5, 7)] ∧ Memory.read [(5, 7)] 5 = 7 ∧ Memory.read [(5, 7)] 6 = 0
      ∧ Memory.write [(5, 7)] 5 0 = [] := by decide +kernel

theorem witness_EqualAreasAreEqualData : Memory.wf [(1, 9), (5, 7)] = true ∧ Memory.wf [(5, 7), (1, 9)] = false ∧ Memory.wf [(5, 0)] = false := by
  decide +kernel

theorem witness_OwnerIsNeverDeleted :
    State.reset.die.ownerAlive = true
      ∧ holdsAfter (step { State.reset with pending := [.tenantDelete (ask (le 4 0))] }) (fun t => t.ownerAlive) = true := by decide +kernel

theorem witness_StepRunsFrontCommand :
    step { State.reset with pending := [.flitCrcError, .gcPass ⟨0, {}⟩] } = exec .flitCrcError { State.reset with pending := [.gcPass ⟨0, {}⟩] } := by rfl

theorem witness_OnlyDebugIsRefused :
    (match exec (.jtagInstruction false 0) (at' { die with mc := { die.mc with policyForce := 0 } }) with | .refused r => r == .jtagDebug | _ => false) = true
      ∧ holdsAfter (exec (.jtagInstruction true 0) State.reset) (fun _ => true) = true := by decide +kernel

theorem witness_NoWordSpellsACommand : decodeTableWord 32 0 = none ∧ State.reset.withFetchWord 32 0 = State.reset := ⟨rfl, rfl⟩

/-! ## WellFormed: a term of each command family is well formed, and each check refuses a term -/

theorem test_wf_accepts :
    [.powerOnReset boot0, .coldRstNFall dock0, .read 9, .flr 2047, .ucieTraining ucie0, .tenantGet (ask []), .slotIbi 127 0 0 0,
      .creditInit 3 4095 4095, .selftestSlice 2 543 true true].all Instr.wf = true := by decide +kernel

/-! Firmware: a signing key is opaque, so the kernel cannot compare it; these witnesses rest on a key being itself. -/

/-- The firmware with a complete image in slot B, with a session of NVMe or none; what a verification finds good, of a part that may be
switched live or not; and what it leaves. -/
def fwC (n : Bool) : Fw := { (fwB .complete) with session := if n then some (1, true) else none }
def goodFor (live : Bool) : VerifyFacts := if live then good else { good with manifest := padTo 64 (le 1 1 ++ le 1 0 ++ le 2 0 ++ le 4 256 ++ le 4 64 ++ le 4 9) }
def fwV (live : Bool) : Fw := (fwC true).setSlot 1 { (fwC true).slot 1 with st := .verified, parts := manifestOf (goodFor live).manifest 1 }
def dieCommit (c10 : Nat) : Die := under { charged with fw := fwC true } (adminT (sqe 0x10 0 c10 0 0 0))

theorem good_accepted (f : Fw) (v : VerifyFacts) (h : f.revoked = 0) (k : v.signer = Config.signKey 0) : f.accepts v.signer = true := by
  simp [Fw.accepts, k, h, List.range, List.range.loop]

theorem good_image (n l : Bool) : (fwC n).imageGood ((fwC n).slot 1).image (goodFor l) = true := by
  unfold Fw.imageGood
  rw [good_accepted _ _ (by cases n <;> rfl) (by cases l <;> rfl)]
  cases n <;> cases l <;> decide +kernel

theorem good_verify (l : Bool) : (fwC true).verify 1 (goodFor l) = (fwV l, kOk) := by
  unfold Fw.verify
  simp only []
  rw [good_image true l]
  cases l <;> decide +kernel

theorem witness_FirmwareIsUpdated_4 :
    let q := ask (le 1 2)
    let s := at' { charged with fw := fwC false }
    let f := s.die.fw
    (s.die.takes q 0x0903 false 1 [(0, 1)] = true ∧ q.get 0 1 = 2 ∧ (f.slot 1).st = .complete ∧
      good.badBlocks.all (fun b => decide ((f.slot 1).image.nblocks ≤ b)) = true ∧ f.act.svnFloor ≤ (f.slot 1).image.svn) ∧
      f.imageGood (f.slot 1).image good = true :=
  ⟨by decide +kernel, good_image false true⟩

/-- What the four actions of a Firmware Commit ask of the state, for an action's dword 10. -/
def commitReady (c10 : Nat) : Bool :=
  let s := at' (dieCommit c10)
  let e := sqe 0x10 0 c10 0 0 0
  decide (s.die.adminTag 9 0x10 e ∧ s.die.updateLock = false ∧ (match s.die.commitSlot e with | .ok j => decide (j = 1) | _ => false) = true
    ∧ (s.die.fw.slot 1).inUse = false ∧ s.die.lowEnergy = false ∧ s.die.activationMoving = false ∧ s.die.fw.onTrial = false)

theorem witness_FirmwareCommandsComplete_2 :
    (commitReady 2 = true ∧ bitsOf (sqe 0x10 0 2 0 0 0).cdw10 3 3 = 0) ∧ ((at' (dieCommit 2)).die.fw.verify 1 (goodFor true)).2 = kOk :=
  ⟨by decide +kernel, congrArg (·.2) (good_verify true)⟩

theorem witness_FirmwareCommandsComplete_3 :
    (commitReady 10 = true ∧ bitsOf (sqe 0x10 0 10 0 0 0).cdw10 3 3 = 1) ∧ ((at' (dieCommit 10)).die.fw.verify 1 (goodFor true)).2 = kOk :=
  ⟨by decide +kernel, congrArg (·.2) (good_verify true)⟩

theorem witness_FirmwareCommandsComplete_4 :
    (commitReady 18 = true ∧ bitsOf (sqe 0x10 0 18 0 0 0).cdw10 3 3 = 2) ∧ ((at' (dieCommit 18)).die.fw.verify 1 (goodFor true)).2 = kOk :=
  ⟨by decide +kernel, congrArg (·.2) (good_verify true)⟩

theorem witness_FirmwareCommandsComplete_5 :
    (commitReady 26 = true ∧ bitsOf (sqe 0x10 0 26 0 0 0).cdw10 3 3 = 3
      ∧ ({ (dieCommit 26) with fw := fwV true } : Die).liveAllowed 1 = true) ∧ (at' (dieCommit 26)).die.fw.verify 1 (goodFor true) = (fwV true, kOk) :=
  ⟨by decide +kernel, (good_verify true)⟩

theorem witness_FirmwareCommandsComplete_6 :
    (commitReady 26 = true ∧ bitsOf (sqe 0x10 0 26 0 0 0).cdw10 3 3 = 3 ∧ ({ (dieCommit 26) with fw := fwV false } : Die).liveAllowed 1 = false)
      ∧ (at' (dieCommit 26)).die.fw.verify 1 (goodFor false) = (fwV false, kOk) := ⟨by decide +kernel, good_verify false⟩

/-! The die's own serial number is opaque: the serial number of the die at the other end of a Quay link is one that it is not. -/

/-- A serial number that is neither this die's nor zero. -/
def otherDsn : BitVec 64 := if Config.dsn = 77 then 78 else 77
theorem other_dsn : otherDsn ≠ Config.dsn ∧ otherDsn ≠ 0 := by 
  unfold otherDsn
  split
  · next h => rw [h]; decide
  · next h => exact ⟨fun e => h e.symm, by decide⟩

theorem witness_QuayLinksCarry_1 :
    let id : QuayIdent := { ident with dsn := otherDsn }
    State.reset.die.awake = true ∧ State.reset.die.life.manager = true ∧ State.reset.die.reachable 12 = true ∧ State.reset.die.life.refclkLost = []
      ∧ (id.dsn ≠ Config.dsn ∧ id.dsn ≠ 0) ∧ identCause (portOf 12) 12 { ident with quayId := 12, dsn := otherDsn } = 0 :=
  ⟨by decide +kernel, rfl, by decide +kernel, rfl, other_dsn, by rfl⟩

theorem witness_QuayLinksCarry_2 :
    let id : QuayIdent := { ident with quayId := 12, stepping := 0xA0, dsn := otherDsn }
    State.reset.die.awake = true ∧ State.reset.die.life.manager = true ∧ State.reset.die.reachable 12 = true ∧ State.reset.die.life.refclkLost = []
      ∧ (id.dsn ≠ Config.dsn ∧ id.dsn ≠ 0) ∧ identCause (portOf 12) 12 id = 2 :=
  ⟨by decide +kernel, rfl, by decide +kernel, rfl, other_dsn, by rfl⟩

theorem witness_QuayLinksCarry_3 :
    let id : QuayIdent := { ident with worker := false, dsn := otherDsn }
    worker.awake = true ∧ worker.life.manager = false ∧ (15 = worker.life.quayId) ∧ (id.dsn ≠ Config.dsn ∧ id.dsn ≠ 0) ∧ id.certOk = true :=
  ⟨by decide +kernel, rfl, by decide +kernel, other_dsn, rfl⟩

/-- How long media keeps its data is a free value: the time of this witness is that value itself. -/
theorem witness_MediaIsKept_7 :
    let d := { threeUp with rc := { die.rc with rus := [(5, { st := .closed, k := 6, members := [{ port := 3, die := 0, block := 9 }] })] } }
    let s := at' { d with aon := { d.aon with time := d.retention 3 } }
    s.die.awake = true ∧ (s.die.ruOfBlock (blockKey 3 0 9)).isSome = true ∧ (s.die.block (blockKey 3 0 9)).prog + s.die.retention 3 ≤ s.die.now :=
  ⟨rfl, by decide +kernel, Nat.le_of_eq (Nat.zero_add _)⟩
theorem test_wf_refuses_function : Instr.wf (.flr 2048) = false := by decide +kernel

theorem test_wf_refuses_tag : Instr.wf (.read 65536) = false := by decide +kernel

theorem test_wf_refuses_port : Instr.wf (.pwrAck 1024) = false := by decide +kernel

theorem test_wf_refuses_die_of_a_berth : Instr.wf (.mediaPatrol 0 16 0 0 ⟨0, {}⟩ (.failed, false)) = false := by decide +kernel

theorem test_wf_refuses_block : Instr.wf (.retentionRefreshDue 0 0 8192) = false := by decide +kernel

theorem test_wf_refuses_physical_unit : Instr.wf (.mediaPatrol 0 0 0 2048 ⟨0, {}⟩ (.failed, false)) = false := by decide +kernel

theorem test_wf_refuses_code_word : Instr.wf (.mediaPatrol 0 0 0 0 ⟨48, {}⟩ (.failed, false)) = false := by decide +kernel

theorem test_wf_refuses_channel : Instr.wf (.dramWriteDrain 12) = false := by decide +kernel

theorem test_wf_refuses_dram_unit : Instr.wf (.dramPatrol 0 0 8 .clean) = false := by decide +kernel

theorem test_wf_refuses_core : Instr.wf (.eoi 17 0) = false := by decide +kernel

theorem test_wf_refuses_event_source : Instr.wf (.eventClaim 4096) = false := by decide +kernel

theorem test_wf_refuses_nsid_zero : Instr.wf (.heelSettle 0 0) = false := by decide +kernel

theorem test_wf_refuses_nsid_width : Instr.wf (.conventionalDrain 4294967296 0) = false := by decide +kernel

theorem test_wf_refuses_position : Instr.wf (.quayLinkLost 16) = false := by decide +kernel

theorem test_wf_refuses_queue_width : Instr.wf (.sqFetchFail 0 65536) = false := by decide +kernel

theorem test_wf_refuses_unit_kind : Instr.wf (.selftestSlice 7 0 true true) = false := by decide +kernel

theorem test_wf_refuses_unit_of_its_kind : Instr.wf (.selftestSlice 1 104 true true) = false := by decide +kernel

theorem test_wf_refuses_level : Instr.wf (.ladderIdleReset 11 0) = false := by decide +kernel

theorem test_wf_refuses_subsystem_zero : Instr.wf (.handshakeStall 0 0 true dock0) = false := by decide +kernel

theorem test_wf_refuses_subsystem : Instr.wf (.handshakeStall 15 0 true dock0) = false := by decide +kernel

theorem test_wf_refuses_stalled_unit : Instr.wf (.handshakeStall 1 4096 true dock0) = false := by decide +kernel

theorem test_wf_refuses_event_data : Instr.wf (.evtTempWarn 0 256 { hdr := hdr0, value := 0 }) = false := by decide +kernel

theorem test_wf_refuses_request_function : Instr.wf (.identify { ask [] with fn := 2048 }) = false := by decide +kernel

theorem test_wf_refuses_request_seq : Instr.wf (.identify { ask [] with seq := 65536 }) = false := by decide +kernel

theorem test_wf_refuses_request_doorbell : Instr.wf (.identify { ask [] with dbSeq := 65536 }) = false := by decide +kernel

theorem test_wf_refuses_request_len : Instr.wf (.identify { ask [] with len := 4294967296 }) = false := by decide +kernel

theorem test_wf_refuses_request_target : Instr.wf (.identify { ask [] with tfunc := 65536 }) = false := by decide +kernel

theorem test_wf_refuses_request_die : Instr.wf (.identify { ask [] with tdie := 256 }) = false := by decide +kernel

theorem test_wf_refuses_request_reserved : Instr.wf (.identify { ask [] with rsv11 := 256 }) = false := by decide +kernel

theorem test_wf_refuses_request_offset : Instr.wf (.identify { ask [] with roffset := 4294967296 }) = false := by decide +kernel

theorem test_wf_refuses_request_payload : Instr.wf (.identify { ask [] with len := 1 }) = false := by decide +kernel

theorem test_wf_refuses_dock_steps : Instr.wf (.coldRstNFall { dock0 with steps := 8 }) = false := by decide +kernel

theorem test_wf_refuses_dock_ends : Instr.wf (.coldRstNFall { dock0 with ends := [] }) = false := by decide +kernel

theorem test_wf_refuses_modules : Instr.wf (.ucieTraining { ucie0 with rates := [] }) = false := by decide +kernel

theorem test_wf_refuses_module_rate : Instr.wf (.ucieTraining { ucie0 with rates := List.replicate 8 (some 6) }) = false := by decide +kernel

theorem test_wf_refuses_module_repaired : Instr.wf (.ucieTraining { ucie0 with repaired := [(8, 0)] }) = false := by decide +kernel

theorem test_wf_refuses_start_units : Instr.wf (.powerOnReset { boot0 with failedUnits := [(7, 0)] }) = false := by decide +kernel

theorem test_wf_refuses_start_sensors : Instr.wf (.powerOnReset { boot0 with temps := [] }) = false := by decide +kernel

theorem test_wf_refuses_start_channels : Instr.wf (.powerOnReset { boot0 with chans := [{ ch := 12, dimms := 1, cap0 := 0, cap1 := 0, rate := 0, drfm := true, popOk := true, trainOk := true }] }) = false := by decide +kernel

theorem test_wf_refuses_start_dimms : Instr.wf (.powerOnReset { boot0 with chans := [{ ch := 0, dimms := 3, cap0 := 0, cap1 := 0, rate := 0, drfm := true, popOk := true, trainOk := true }] }) = false := by decide +kernel

theorem test_wf_refuses_refclk : Instr.wf (.refclkLoss 4 ucie0) = false := by decide +kernel

theorem test_wf_refuses_island : Instr.wf (.gatedIslandWake 52) = false := by decide +kernel

theorem test_wf_refuses_register_offset : Instr.wf (.gatedRegisterAccess 0 2097152 false 0 true) = false := by decide +kernel

theorem test_wf_refuses_module : Instr.wf (.laneError 8 0 ucie0) = false := by decide +kernel

theorem test_wf_refuses_lane : Instr.wf (.laneError 0 64 ucie0) = false := by decide +kernel

theorem test_wf_refuses_bar : Instr.wf (.registerWrite 0 6 0 4 0) = false := by decide +kernel

theorem test_wf_refuses_access_size : Instr.wf (.registerWrite 0 0 0 3 0) = false := by decide +kernel

theorem test_wf_refuses_read_status : Instr.wf (.hostReadFailure 0 8) = false := by decide +kernel

theorem test_wf_refuses_vector : Instr.wf (.moderationTimerDue 0 2048) = false := by decide +kernel

theorem test_wf_refuses_ranges : Instr.wf (.datasetManagement 9 (List.replicate 257 default)) = false := by decide +kernel

theorem test_wf_refuses_training_step : Instr.wf (.trainingStepTimeout 0 11) = false := by decide +kernel

theorem test_wf_refuses_credit : Instr.wf (.creditInit 0 4096 0) = false := by decide +kernel

theorem test_wf_refuses_slot_controller : Instr.wf (.slotPoll 128 0 0 0) = false := by decide +kernel

theorem test_wf_refuses_silent_controller : Instr.wf (.slotControllerSilent 128) = false := by decide +kernel

theorem test_wf_refuses_lane_pair : Instr.wf (.cipherSectorDone 0 104 .disagree true) = false := by decide +kernel

theorem test_wf_refuses_granule : Instr.wf (.granuleCopyDone 4194304 []) = false := by decide +kernel

theorem test_wf_refuses_tray_user : Instr.wf (.trayFree 256 0 0 0) = false := by decide +kernel

theorem test_wf_refuses_scrub_reason : Instr.wf (.scrubEnd 256) = false := by decide +kernel

theorem test_wf_refuses_pace_monitors : Instr.wf (.paceSample []) = false := by decide +kernel

theorem test_wf_refuses_sensors : Instr.wf (.sensorSample [] dock0) = false := by decide +kernel

theorem test_wf_refuses_breakwater_volts : Instr.wf (.breakwaterSample 65536) = false := by decide +kernel

theorem test_wf_refuses_test_capacitance : Instr.wf (.breakwaterTestEnd 0 0 16777216) = false := by decide +kernel

theorem test_wf_refuses_quay_lanes : Instr.wf (.quayLaneNarrow 0 9) = false := by decide +kernel

theorem test_wf_refuses_quay_port : Instr.wf (.quayLinkTraining 4 0 { worker := true, quayId := 0, dsn := 0, stepping := 0, fwVer := 0, sysid := 0, sysidOk := true, certOk := true } 8 true) = false := by decide +kernel

theorem test_wf_refuses_key_sequence : Instr.wf (.quayKey none 4096 (.slot 0 0)) = false := by decide +kernel

theorem test_wf_refuses_time_width : Instr.wf (.quayTime (2 ^ 64)) = false := by decide +kernel

theorem test_wf_refuses_address : Instr.wf (.i3cDynamicAddressAssign 128) = false := by decide +kernel

theorem test_wf_refuses_opcode : Instr.wf (.unknownCommand (ask []) 65536) = false := by decide +kernel

theorem test_wf_refuses_wake_bank : Instr.wf (.wakeSource 0 [71] [] []) = false := by decide +kernel

theorem test_wf_refuses_flit_header : Instr.wf (.nopReceived 0 { ft := 16, long := false, ackv := false, nak := false, seq := 0, ack := 0, crs := 0, crl := 0 }) = false := by decide +kernel

theorem test_wf_refuses_operation : Instr.wf (.nandOpTimeout 0 65536 true) = false := by decide +kernel

theorem test_wf_refuses_bar_address : Instr.wf (.outOfBarRequest 0 (2 ^ 64) true) = false := by decide +kernel

theorem test_wf_refuses_vfs : Instr.wf (.vfEnableWrite true 65536) = false := by decide +kernel

theorem test_wf_refuses_detach_list : Instr.wf (.namespaceDetach 9 (List.replicate 2048 0)) = false := by decide +kernel

theorem test_wf_refuses_training_set : Instr.wf (.ts1Received 0 { bytes := [] }) = false := by decide +kernel

theorem test_wf_refuses_verify_manifest : Instr.wf (.firmwareCommitVerify 9 { good with manifest := [] }) = false := by decide +kernel

theorem test_wf_refuses_passport_length : Instr.wf (.wakeSource 0 [] [] [{ port := 0, passport := { raw := [] }, labels := [], rate32 := true }]) = false := by decide +kernel

theorem test_wf_refuses_label_length : Instr.wf (.wakeSource 0 [] [] [{ port := 0, passport := pass0, labels := [{ raw := [] }], rate32 := true }]) = false := by decide +kernel

theorem test_wf_refuses_rdata_payload : Instr.wf (.rdataReceived 0 hdr0 { otag := 0, die := 0, plane := 0, level := 0, cw := 0, offset := 0, last := true, vlen := 0, payload := List.replicate 513 0 }) = false := by decide +kernel

theorem test_wf_refuses_image_header : Instr.wf (.firmwareImageDownload 9 true [] []) = false := by decide +kernel

theorem test_wf_refuses_metadata_of_data : Instr.wf (.writeDataPulled ⟨9, {}⟩ [] [0]) = false := by decide +kernel

theorem test_wf_refuses_share_class : Instr.wf (.quayCmd ⟨9, 0⟩ ⟨0, 4⟩ (sqe 0 1 0 0 0 0) 0 0 false) = false := by decide +kernel

end Sys2Proof.Tests
end

/-! SUPPORT. What the answer of a mailbox writes (R366, R367, R373), said once, and the checks of the frame that a request which its
mailbox takes meets first (R383). -/

namespace Sys2Proof.Machine

/-! ## What an answer leaves as it was -/

theorem Die.sameButAnswer_refl (d : Die) : d.sameButAnswer d := rfl

theorem Die.sameButAnswer_trans {t e d : Die} (h : t.sameButAnswer e) (k : e.sameButAnswer d) : t.sameButAnswer d := by
  unfold Die.sameButAnswer at h k
  rw [← h] at k
  exact k

theorem Die.updFn_sameButAnswer (d : Die) (n : Nat) (f : Func → Func) : (d.updFn n f).sameButAnswer d := rfl

theorem Die.updMbx_sameButAnswer (d : Die) (n : Nat) (f : Mbx → Mbx) : (d.updMbx n f).sameButAnswer d := rfl

theorem Die.islandWake_sameButAnswer (d : Die) (i : Nat) : (d.islandWake i).sameButAnswer d := by
  unfold Die.islandWake; split <;> rfl

theorem Die.emit_sameButAnswer (d : Die) (o : Out) : (d.emit o).sameButAnswer d := by
  unfold Die.emit; cases o.isTlp <;> rfl

theorem Die.quayMgmtSend_sameButAnswer (d : Die) (p : Nat) (m : QuayMgmtMsg) : (d.quayMgmtSend p m).sameButAnswer d :=
  Die.sameButAnswer_trans (Die.emit_sameButAnswer _ _) (d.islandWake_sameButAnswer _)

theorem Die.sendVec_sameButAnswer (d : Die) (n v : Nat) : (d.sendVec n v).sameButAnswer d := by
  unfold Die.sendVec; dsimp only; split
  · exact d.sameButAnswer_refl
  · split
    · exact d.updFn_sameButAnswer n _
    · exact Die.sameButAnswer_trans (Die.emit_sameButAnswer _ _) (d.updFn_sameButAnswer n _)

theorem Die.countVec_sameButAnswer (d : Die) (n v : Nat) (u a : Bool) : (d.countVec n v u a).sameButAnswer d := by
  unfold Die.countVec; dsimp only; split
  · split
    · exact Die.sameButAnswer_trans (Die.sendVec_sameButAnswer _ n v) (d.updFn_sameButAnswer n _)
    · exact d.updFn_sameButAnswer n _
  · exact d.sameButAnswer_refl

theorem Die.mbxEvent_sameButAnswer (d : Die) (n i : Nat) (send : Bool) : (d.mbxEvent n i send).sameButAnswer d := by
  unfold Die.mbxEvent; dsimp only; split
  · exact Die.sameButAnswer_trans (Die.countVec_sameButAnswer _ _ _ _ _) (d.updMbx_sameButAnswer n _)
  · exact d.updMbx_sameButAnswer n _

/-! ## What signalling an answer leaves of the mailboxes -/

@[simp] theorem Die.fn_islandWake (d : Die) (i m : Nat) : (d.islandWake i).fn m = d.fn m := by
  unfold Die.islandWake; split <;> rfl

@[simp] theorem Die.fn_emit (d : Die) (o : Out) (m : Nat) : (d.emit o).fn m = d.fn m := by simp [Die.fn]

@[simp] theorem Die.fn_quayMgmtSend (d : Die) (p : Nat) (x : QuayMgmtMsg) (m : Nat) : (d.quayMgmtSend p x).fn m = d.fn m := by
  simp [Die.quayMgmtSend]

/-- A vector's registers are none of the mailbox. -/
@[simp] theorem Die.mbx_updFn_updVec (d : Die) (n v m : Nat) (f : Vec → Vec) : ((d.updFn n (fun g => g.updVec v f)).fn m).mbx = (d.fn m).mbx := by
  rw [Die.fn_updFn]; split
  · subst m; rfl
  · rfl

@[simp] theorem Die.mbx_sendVec (d : Die) (n v m : Nat) : ((d.sendVec n v).fn m).mbx = (d.fn m).mbx := by
  unfold Die.sendVec; dsimp only; split
  · rfl
  · split <;> simp

@[simp] theorem Die.mbx_countVec (d : Die) (n v m : Nat) (u a : Bool) : ((d.countVec n v u a).fn m).mbx = (d.fn m).mbx := by
  unfold Die.countVec; dsimp only; split
  · split <;> simp
  · rfl

/-- An event raises its bit in MBX_EVENT of its own mailbox and changes nothing else of any mailbox (R366). -/
theorem Die.mbx_mbxEvent (d : Die) (n i m : Nat) (send : Bool) : ((d.mbxEvent n i send).fn m).mbx =
    if m = n then { (d.fn n).mbx with event := (d.fn n).mbx.event ||| BitVec.ofNat 3 (2 ^ i) } else (d.fn m).mbx := by
  unfold Die.mbxEvent; dsimp only; split
  · rw [Die.mbx_countVec, Die.mbx_updMbx]
  · rw [Die.mbx_updMbx]

/-! ## A response (R366, R373, R374) -/

theorem Die.respondFull_sameButAnswer (d : Die) (n st : Nat) (synth more : Bool) (detail total : Nat) (payload : List Byte) :
    (d.respondFull n st synth more detail total payload).sameButAnswer d := by
  unfold Die.respondFull; dsimp only
  refine Die.sameButAnswer_trans (Die.mbxEvent_sameButAnswer _ _ _ _) ?_
  split
  · exact d.updMbx_sameButAnswer n _
  · exact Die.sameButAnswer_trans (Die.quayMgmtSend_sameButAnswer _ _ _) (d.updMbx_sameButAnswer n _)

/-- The response area as respondFull writes it. -/
def Die.response (d : Die) (n st : Nat) (synth more : Bool) (detail total : Nat) (payload : List Byte) : KResp :=
  let m := (d.fn n).mbx
  { opcode := m.opcode, seq := m.seq, status := st, synth := synth, more := more, detail := detail, total := total,
    elapsed := min 0xFFFFFFFF ((d.now - m.accepted) / 1000), payload := payload }

/-- The mailbox after a response: DONE, with the response in its area. -/
theorem Die.respondFull_mbx (d : Die) (n st : Nat) (synth more : Bool) (detail total : Nat) (payload : List Byte) :
    let m := ((d.respondFull n st synth more detail total payload).fn n).mbx
    m.st = .done ∧ m.resp = some (d.response n st synth more detail total payload) := by
  dsimp only
  unfold Die.respondFull Die.response
  dsimp only
  rw [Die.mbx_mbxEvent, if_pos rfl]
  split <;> simp [Die.mbx_updMbx]

/-- Tenants, namespaces, keys, settings and the data path are parts that no answer writes. -/
theorem Die.sameButAnswer_parts {t d : Die} (h : t.sameButAnswer d) :
    t.tenants = d.tenants ∧ t.nss = d.nss ∧ t.cl = d.cl ∧ t.mc = d.mc ∧ t.rc = d.rc ∧ t.te = d.te ∧ t.sch = d.sch ∧ t.qe = d.qe := by
  rw [← h]
  exact ⟨rfl, rfl, rfl, rfl, rfl, rfl, rfl, rfl⟩

theorem Die.deniedRecord_only_lb (d : Die) (n op : Nat) : d.deniedRecord n op = { d with lb := (d.deniedRecord n op).lb } :=
  d.record_only_lb _ _ _ _

/-- NOT_PERMITTED: but for the logbook, where its record goes, nothing changes but the answer (R382). -/
theorem Die.kanexDenied_sameButAnswer (d : Die) (n op : Nat) :
    (d.kanexDenied n op).sameButAnswer { d with lb := (d.deniedRecord n op).lb } := by
  rw [← d.deniedRecord_only_lb]
  exact Die.respondFull_sameButAnswer _ _ _ _ _ _ _ _

/-! ## Acceptance, and the checks that refuse a request (R368 to R372, R382, R383) -/

/-- A request that its mailbox takes and that has passed checks 1 and 2 of R383: its header is looked at next. -/
def Die.reachesHeader (d : Die) (q : KReq) (op : Nat) : Bool :=
  d.life.phase == .ready && decide (q.fn < Config.functions) && d.mbxPresent q.fn && !d.mbxUnavailable q.fn
    && (d.fn q.fn).mbx.st != .running && !d.standing q op && !d.mbxStopping q.fn && !d.qe.hold && (d.tenant q.fn).alive && q.dbSeq == q.seq

theorem Die.takesFrame_eq (d : Die) (q : KReq) (op : Nat) (bulk : Bool) :
    d.takesFrame q op bulk = (d.reachesHeader q op && (kHeaderBad q bulk).isNone) := rfl

theorem Die.accepted_sameButAnswer (d : Die) (q : KReq) (op : Nat) : (d.accepted q op).sameButAnswer d := rfl

@[simp] theorem Die.accepted_tenant (d : Die) (q : KReq) (op n : Nat) : (d.accepted q op).tenant n = d.tenant n := rfl

/-- A request that its mailbox takes goes on to the checks. -/
theorem Die.kanex_eq_checks {d : Die} {q : KReq} {c : KCmd} (h : d.reachesHeader q c.op = true) :
    d.kanex q c = (d.accepted q c.op).kanexChecks q c := by
  simp only [Die.reachesHeader, Bool.and_eq_true, Bool.not_eq_true', beq_iff_eq, bne_iff_ne, decide_eq_true_eq] at h
  obtain ⟨⟨⟨⟨⟨⟨⟨⟨⟨phase, number⟩, present⟩, available⟩, idle⟩, fresh⟩, stopped⟩, unheld⟩, -⟩, -⟩ := h
  have serves : d.phaseServes q.fn c.op = true := by simp [Die.phaseServes, phase]
  unfold Die.kanex
  refine (if_neg (not_or.mpr ⟨Nat.not_le.mpr number, by simp [present]⟩)).trans ?_
  refine (if_neg (by simp [serves])).trans ?_
  refine (if_neg (by simp [available])).trans ?_
  refine (if_neg idle).trans ?_
  refine (if_neg (Bool.eq_false_iff.mp fresh)).trans ?_
  refine (if_neg (by simp [stopped])).trans ?_
  exact if_neg (by simp [unheld])

/-- Check 3: a wrong header field (R369). -/
theorem Die.kanexChecks_of_badHeader {d : Die} {q : KReq} {c : KCmd} {o : Nat} (alive : (d.tenant q.fn).alive = true) (seq : q.dbSeq = q.seq)
    (bad : kHeaderBad q (c.op == 0x0403 || c.op == 0x0902 || (catRow c.op).isNone) = some o) :
    d.kanexChecks q c = d.respondFull q.fn kBadParameter false false o 0 [] := by
  simp [Die.kanexChecks, alive, seq, bad]

/-- Check 5: a privilege that is missing (R382). -/
theorem Die.kanexChecks_of_unprivileged {d : Die} {q : KReq} {c : KCmd} (alive : (d.tenant q.fn).alive = true) (seq : q.dbSeq = q.seq)
    (good : kHeaderBad q (c.op == 0x0403 || c.op == 0x0902 || (catRow c.op).isNone) = none) (known : (catRow c.op).isSome = true)
    (foreign : kPriv c.op = 0 ∧ q.fn ≠ 0 ∨ kForeign q (kPriv c.op) = true) : d.kanexChecks q c = d.kanexDenied q.fn c.op := by
  have known' : ¬ (catRow c.op).isNone = true := by simpa [Option.isSome_iff_ne_none] using known
  unfold Die.kanexChecks
  rw [if_neg (by simp [alive]), if_neg (by simp [seq]), good]
  dsimp only
  rw [if_neg known', if_pos foreign]

section
variable {d : Die} {q : KReq} {c : KCmd} (h : d.reachesHeader q c.op = true)
include h

theorem Die.reachesHeader_alive : (d.tenant q.fn).alive = true := by
  simp only [Die.reachesHeader, Bool.and_eq_true] at h; exact h.1.2

theorem Die.reachesHeader_seq : q.dbSeq = q.seq := by
  simp only [Die.reachesHeader, Bool.and_eq_true, beq_iff_eq] at h; exact h.2

/-- A request whose header is wrong ends in its answer, on the die that has taken it. -/
theorem Die.kanex_of_badHeader {o : Nat} (bad : kHeaderBad q (c.op == 0x0403 || c.op == 0x0902 || (catRow c.op).isNone) = some o) :
    d.kanex q c = (d.accepted q c.op).respondFull q.fn kBadParameter false false o 0 [] := by
  rw [Die.kanex_eq_checks h]
  exact Die.kanexChecks_of_badHeader (by simp [Die.reachesHeader_alive h]) (Die.reachesHeader_seq h) bad

/-- A request without the privilege ends in NOT_PERMITTED, on the die that has taken it. -/
theorem Die.kanex_of_unprivileged (good : kHeaderBad q (c.op == 0x0403 || c.op == 0x0902 || (catRow c.op).isNone) = none)
    (known : (catRow c.op).isSome = true) (foreign : kPriv c.op = 0 ∧ q.fn ≠ 0 ∨ kForeign q (kPriv c.op) = true) :
    d.kanex q c = (d.accepted q c.op).kanexDenied q.fn c.op := by
  rw [Die.kanex_eq_checks h]
  exact Die.kanexChecks_of_unprivileged (by simp [Die.reachesHeader_alive h]) (Die.reachesHeader_seq h) good known foreign

end

/-- Settles O50: a request that reaches check 3 ends in the answer of the check that refuses it, and an answer, with the record of a
NOT_PERMITTED, writes none of the parts named. -/
theorem checksChangeOnlyTheAnswer : Obligations.ChecksChangeOnlyTheAnswer := by
  intro d q c bulk reached hr
  have reaches : d.reachesHeader q c.op = true := hr
  refine ⟨fun o bad => ?_, fun good known foreign => ?_⟩
  · rw [Die.kanex_of_badHeader reaches bad]
    obtain ⟨done, resp⟩ := (d.accepted q c.op).respondFull_mbx q.fn kBadParameter false false o 0 []
    exact ⟨⟨done, by rw [resp]; rfl⟩,
      Die.sameButAnswer_trans (Die.respondFull_sameButAnswer _ _ _ _ _ _ _ _) (d.accepted_sameButAnswer q c.op), _, resp, rfl⟩
  · rw [Die.kanex_of_unprivileged reaches good known foreign]
    have kept := Die.sameButAnswer_parts ((d.accepted q c.op).kanexDenied_sameButAnswer q.fn c.op)
    obtain ⟨-, resp⟩ := ((d.accepted q c.op).deniedRecord q.fn c.op).respondFull_mbx q.fn kNotPermitted true false 0 0 []
    exact ⟨⟨_, resp, rfl⟩, kept⟩

end Sys2Proof.Machine

/-! SUPPORT. The command path (file 03): admin commands on queues, Abort, doorbells and the moderation of vectors. -/

namespace Sys2Proof.Machine

/-! ## Commands that act on an awake die -/

/-- A command that acts where the die is awake completes there with the die its effect gives. -/
theorem completes_of_run {i : Instr} {s : State} {f : Die → Die} {P : Die → Prop} (run : exec i s = s.run f)
    (awake : s.die.awake = true) (h : P (f s.die)) : Completes i s P :=
  ⟨{ s with die := f s.die }, run.trans (s.run_awake f awake), rfl, h⟩

/-- An admin command not yet acted on acts at its step. -/
theorem Die.admin_of_adminTag {d : Die} {t opc : Nat} {e : SqEntry} (h : d.adminTag t opc e) (f : Tag → SqEntry → Die) :
    d.admin t opc f = f (d.tag t) e := by
  obtain ⟨st, isOpc, entry, unheld, -⟩ := h
  simp only [Die.admin, entry]
  exact if_pos ⟨st, isOpc, unheld⟩

theorem Die.adminTag_awake {d : Die} {t opc : Nat} {e : SqEntry} (h : d.adminTag t opc e) : d.awake = true := by
  obtain ⟨-, -, -, -, awake⟩ := h
  exact awake

/-! ## What the tags, functions and queues read after an update -/

@[simp] theorem Die.fn_updFn_self (d : Die) (n : Nat) (f : Func → Func) : (d.updFn n f).fn n = f (d.fn n) := by simp [Die.fn_updFn]

theorem Die.fn_updFn_ne (d : Die) {n m : Nat} (f : Func → Func) (h : m ≠ n) : (d.updFn n f).fn m = d.fn m := by simp [Die.fn_updFn, h]

@[simp] theorem Die.tag_updFn (d : Die) (n t : Nat) (f : Func → Func) : (d.updFn n f).tag t = d.tag t := rfl

@[simp] theorem Die.fn_updTag (d : Die) (t n : Nat) (f : Tag → Tag) : (d.updTag t f).fn n = d.fn n := rfl

@[simp] theorem Die.tag_updTag_self (d : Die) (t : Nat) (f : Tag → Tag) : (d.updTag t f).tag t = f (d.tag t) := by simp [Die.tag_updTag]

@[simp] theorem Die.fn_finish (d : Die) (t n : Nat) (st : Status) : (d.finish t st).fn n = d.fn n := rfl

/-- The end of a command with a status fixes it in POSTING (R85). -/
theorem Die.finish_ends (d : Die) (t : Nat) (st : Status) : (d.finish t st).ends t st := by simp [Die.finish, Die.ends]

@[simp] theorem Func.cq_updCq_self (f : Func) (y : Nat) (g : Cq → Cq) : (f.updCq y g).cq y = g (f.cq y) := Tbl.get_upd_self _ _ _ _

theorem Func.cq_updCq_ne (f : Func) {y z : Nat} (g : Cq → Cq) (h : z ≠ y) : (f.updCq y g).cq z = f.cq z := Tbl.get_upd_ne _ _ _ h

@[simp] theorem Func.sqs_updCq (f : Func) (y : Nat) (g : Cq → Cq) : (f.updCq y g).sqs = f.sqs := rfl

@[simp] theorem Func.sq_updSq_self (f : Func) (y : Nat) (g : Sq → Sq) : (f.updSq y g).sq y = g (f.sq y) := Tbl.get_upd_self _ _ _ _

theorem Func.sq_updSq_ne (f : Func) {y z : Nat} (g : Sq → Sq) (h : z ≠ y) : (f.updSq y g).sq z = f.sq z := Tbl.get_upd_ne _ _ _ h

@[simp] theorem Func.cqs_updSq (f : Func) (y : Nat) (g : Sq → Sq) : (f.updSq y g).cqs = f.cqs := rfl

@[simp] theorem Func.vec_updVec_self (f : Func) (v : Nat) (g : Vec → Vec) : (f.updVec v g).vec v = g (f.vec v) := Tbl.get_upd_self _ _ _ _

/-- A turn that is cut changes nothing else (R71). -/
theorem Die.cutTurn_only (d : Die) : d.cutTurn = { d with qe := { d.qe with turn := d.cutTurn.qe.turn } } := by
  unfold Die.cutTurn; split <;> rfl

@[simp] theorem Die.fn_cutTurn (d : Die) (n : Nat) : d.cutTurn.fn n = d.fn n := by rw [Die.cutTurn_only]; rfl

@[simp] theorem Die.tags_cutTurn (d : Die) : d.cutTurn.qe.tags = d.qe.tags := by rw [Die.cutTurn_only]

@[simp] theorem Die.tag_finishDw0_self (d : Die) (t : Nat) (st : Status) (w : Word) :
    (d.finishDw0 t st w).tag t = { d.tag t with st := .posting, sct := st.1, sc := st.2, dw0 := w } := Die.tag_updTag_self _ _ _

@[simp] theorem Die.out_emit (d : Die) (o : Out) : (d.emit o).out = o :: d.out := by rw [Die.emit_eq]

@[simp] theorem Die.tag_cutTurn (d : Die) (t : Nat) : d.cutTurn.tag t = d.tag t := by rw [Die.cutTurn_only]; rfl

@[simp] theorem Die.tag_updTenant (d : Die) (n t : Nat) (f : Tenant → Tenant) : (d.updTenant n f).tag t = d.tag t := rfl

@[simp] theorem Die.fn_updTenant (d : Die) (n m : Nat) (f : Tenant → Tenant) : (d.updTenant n f).fn m = d.fn m := rfl

@[simp] theorem Die.tag_emit (d : Die) (o : Out) (t : Nat) : (d.emit o).tag t = d.tag t := by simp [Die.tag]

/-- An island that wakes changes the lifecycle alone (R18). -/
theorem Die.islandWake_only_life (d : Die) (i : Nat) : d.islandWake i = { d with life := (d.islandWake i).life } := by
  unfold Die.islandWake; split <;> rfl

@[simp] theorem Die.islandWake_qe (d : Die) (i : Nat) : (d.islandWake i).qe = d.qe := by rw [Die.islandWake_only_life]
@[simp] theorem Die.islandWake_funcs (d : Die) (i : Nat) : (d.islandWake i).funcs = d.funcs := by rw [Die.islandWake_only_life]
@[simp] theorem Die.islandWake_tenants (d : Die) (i : Nat) : (d.islandWake i).tenants = d.tenants := by rw [Die.islandWake_only_life]
@[simp] theorem Die.islandWake_sch (d : Die) (i : Nat) : (d.islandWake i).sch = d.sch := by rw [Die.islandWake_only_life]

/-! ## Creating and deleting I/O queues (R70, R107, R108) -/

/-- One completion queue of a function written with the end of a command that makes or deletes it: every other queue and function is as before. -/
theorem Die.cq_written_frame (d : Die) (n y t : Nat) (c : Cq) :
    let u := (d.updFn n (·.updCq y fun _ => c)).finish t stOk
    ((∀ m, m ≠ n → u.fn m = d.fn m) ∧ u.ends t stOk) ∧ (u.fn n).cq y = c ∧ (u.fn n).sqs = (d.fn n).sqs ∧ ∀ z, z ≠ y → (u.fn n).cq z = (d.fn n).cq z := by
  refine ⟨⟨fun m hm => by simp [Die.fn_updFn_ne _ _ hm], Die.finish_ends _ _ _⟩, by simp, by simp, fun z hz => ?_⟩
  simp [Func.cq_updCq_ne _ _ hz]

/-- One submission queue of a function written likewise. -/
theorem Die.sq_written_frame (d : Die) (n y t : Nat) (q : Sq) :
    let u := (d.updFn n (·.updSq y fun _ => q)).finish t stOk
    ((∀ m, m ≠ n → u.fn m = d.fn m) ∧ u.ends t stOk) ∧ (u.fn n).sq y = q ∧ (u.fn n).cqs = (d.fn n).cqs ∧ ∀ z, z ≠ y → (u.fn n).sq z = (d.fn n).sq z := by
  refine ⟨⟨fun m hm => by simp [Die.fn_updFn_ne _ _ hm], Die.finish_ends _ _ _⟩, by simp, by simp, fun z hz => ?_⟩
  simp [Func.sq_updSq_ne _ _ hz]

section
variable {d : Die} {t : Nat} {e : SqEntry}

theorem Die.createCq_of_free (h : d.adminTag t 0x05 e) (nonzero : e.qid ≠ 0) (allocated : e.qid ≤ (d.tenant (d.tag t).fn).qpairs)
    (unused : ((d.fn (d.tag t).fn).cq e.qid).size = 0) (size : 2 ≤ e.qsize) (contiguous : bitsOf e.cdw11 0 1 = 1)
    (vector : bitsOf e.cdw11 16 16 < (d.tenant (d.tag t).fn).vectors) :
    d.createCq t = (d.updFn (d.tag t).fn (·.updCq e.qid fun _ =>
      { size := e.qsize, vector := bitsOf e.cdw11 16 16, ien := bitsOf e.cdw11 1 1 == 1 })).finish t stOk := by
  rw [Die.createCq, Die.admin_of_adminTag h]
  dsimp only
  rw [if_neg (by simp [nonzero, unused, Nat.not_lt.mpr allocated]), if_neg (Nat.not_lt.mpr size), if_neg (by simp [contiguous]),
    if_neg (Nat.not_le.mpr vector)]
  rfl

theorem Die.createSq_of_free (h : d.adminTag t 0x01 e) (nonzero : e.qid ≠ 0) (allocated : e.qid ≤ (d.tenant (d.tag t).fn).qpairs)
    (unused : ((d.fn (d.tag t).fn).sq e.qid).size = 0) (size : 2 ≤ e.qsize) (contiguous : bitsOf e.cdw11 0 1 = 1)
    (ioCq : bitsOf e.cdw11 16 16 ≠ 0) (cqMade : ((d.fn (d.tag t).fn).cq (bitsOf e.cdw11 16 16)).size ≠ 0) :
    d.createSq t = (d.updFn (d.tag t).fn (·.updSq e.qid fun _ => { size := e.qsize, cq := bitsOf e.cdw11 16 16 })).finish t stOk := by
  rw [Die.createSq, Die.admin_of_adminTag h]
  dsimp only
  rw [if_neg (by simp [nonzero, unused, Nat.not_lt.mpr allocated]), if_neg (Nat.not_lt.mpr size), if_neg (by simp [ioCq, cqMade]),
    if_neg (by simp [contiguous])]
  rfl

theorem Die.deleteCq_of_unbound (h : d.adminTag t 0x04 e) (nonzero : e.qid ≠ 0) (made : ((d.fn (d.tag t).fn).cq e.qid).size ≠ 0)
    (unbound : ∀ x ∈ (d.fn (d.tag t).fn).sqs, x.2.size = 0 ∨ x.2.cq ≠ e.qid) :
    d.deleteCq t = (d.updFn (d.tag t).fn (·.updCq e.qid fun _ => {})).finish t stOk := by
  have none_bound : (d.fn (d.tag t).fn).sqs.any (fun s => s.2.size != 0 && s.2.cq == e.qid) = false :=
    List.any_eq_false.mpr fun x hx => by simpa [Decidable.or_iff_not_imp_left] using unbound x hx
  rw [Die.deleteCq, Die.admin_of_adminTag h]
  dsimp only
  rw [if_neg (by simp [nonzero, made]), if_neg (by simp [none_bound])]
  rfl

/-- R108: a submission queue still bound to it keeps a completion queue. -/
theorem Die.deleteCq_of_bound {k : Nat} {q : Sq} (h : d.adminTag t 0x04 e) (nonzero : e.qid ≠ 0)
    (made : ((d.fn (d.tag t).fn).cq e.qid).size ≠ 0) (mem : (k, q) ∈ (d.fn (d.tag t).fn).sqs) (used : q.size ≠ 0) (bound : q.cq = e.qid) :
    d.deleteCq t = d.finish t stQueueDeletion := by
  rw [Die.deleteCq, Die.admin_of_adminTag h]
  dsimp only
  rw [if_neg (by simp [nonzero, made]), if_pos (List.any_eq_true.mpr ⟨(k, q), mem, by simp [used, bound]⟩)]

/-- R107 for a queue with no command in flight: nothing is ended, and the queue goes at once. -/
theorem Die.deleteSq_of_idle (h : d.adminTag t 0x00 e) (nonzero : e.qid ≠ 0) (made : ((d.fn (d.tag t).fn).sq e.qid).size ≠ 0)
    (idle : ∀ x ∈ d.qe.tags, x.2.st = .free ∨ x.2.fn ≠ (d.tag t).fn ∨ x.2.sq ≠ e.qid) :
    d.deleteSq t = (((d.updFn (d.tag t).fn (·.updSq e.qid (fun q => { q with deleting := true, tail := q.head }))).cutTurn).updFn (d.tag t).fn
      (·.updSq e.qid fun _ => {})).finish t stOk := by
  have none_mine : ∀ x ∈ d.qe.tags, (x.2.st != .free && x.2.fn == (d.tag t).fn && x.2.sq == e.qid) = false := fun x hx => by
    simpa [Decidable.or_iff_not_imp_left] using idle x hx
  have none_early : d.qe.tags.filter (fun u => (u.2.st != .free && u.2.fn == (d.tag t).fn && u.2.sq == e.qid) && u.2.early) = [] :=
    List.filter_eq_nil_iff.mpr fun x hx => by simp [none_mine x hx]
  rw [Die.deleteSq, Die.admin_of_adminTag h]
  dsimp only
  rw [if_neg (by simp [nonzero, made]), Die.tags_cutTurn, Die.updFn_qe, none_early]
  exact if_neg (by simpa using none_mine)

end

/-- Settles O9: each command ends in one queue written, which leaves every other queue of the function and every other function. -/
theorem adminQueuesChange : Obligations.AdminQueuesChange := by
  intro s t e f others
  refine ⟨fun h nonzero allocated unused size contiguous vector => ?_, fun h nonzero allocated unused size contiguous ioCq cqMade => ?_,
    fun h nonzero made unbound => ?_, fun h nonzero made idle => ?_⟩
  · refine completes_of_run (f := (·.createCq t)) rfl (Die.adminTag_awake h) ?_
    rw [Die.createCq_of_free h nonzero allocated unused size contiguous vector]
    exact s.die.cq_written_frame f e.qid t _
  · refine completes_of_run (f := (·.createSq t)) rfl (Die.adminTag_awake h) ?_
    rw [Die.createSq_of_free h nonzero allocated unused size contiguous ioCq cqMade]
    exact s.die.sq_written_frame f e.qid t _
  · refine completes_of_run (f := (·.deleteCq t)) rfl (Die.adminTag_awake h) ?_
    rw [Die.deleteCq_of_unbound h nonzero made unbound]
    obtain ⟨rest, gone, sqs, cqs⟩ := s.die.cq_written_frame f e.qid t {}
    exact ⟨rest, congrArg Cq.size gone, sqs, cqs⟩
  · refine completes_of_run (f := (·.deleteSq t)) rfl (Die.adminTag_awake h) ?_
    rw [Die.deleteSq_of_idle h nonzero made idle]
    obtain ⟨⟨fns, ends⟩, gone, cqs, sqs⟩ := Die.sq_written_frame
      (s.die.updFn f (·.updSq e.qid (fun q => { q with deleting := true, tail := q.head }))).cutTurn f e.qid t {}
    refine ⟨⟨fun n hn => (fns n hn).trans ?_, ends⟩, congrArg Sq.size gone, cqs.trans (by simp), fun y hy => (sqs y hy).trans ?_⟩
    · rw [Die.fn_cutTurn, Die.fn_updFn_ne _ _ hn]
    · rw [Die.fn_cutTurn, Die.fn_updFn_self, Func.sq_updSq_ne _ _ hy]

/-- Settles O48: a bound submission queue is found in the function's table, and only the tag is written. -/
theorem boundQueueIsNotDeleted : Obligations.BoundQueueIsNotDeleted := by
  intro s t e k q f h nonzero made mem used bound
  refine completes_of_run (f := (·.deleteCq t)) rfl (Die.adminTag_awake h) ?_
  rw [Die.deleteCq_of_bound h nonzero made mem used bound]
  exact ⟨Die.finish_ends _ _ _, rfl⟩

/-! ## Abort (R100 to R104) -/

section
variable {d : Die} {t : Nat} {e : SqEntry}

/-- The Abort commands of the same controller that are older than a tag's and outstanding (R100). -/
def Die.olderAborts (d : Die) (t : Nat) : Nat :=
  (d.qe.tags.filter (fun u => u.1 != t && u.2.st != .free && u.2.fn == (d.tag t).fn && u.2.adminOpc == 0x08
    && decide (u.2.order < (d.tag t).order))).length

/-- A successful end does not report the limit of Abort commands. -/
theorem Die.not_abortLimit_of_finishDw0 (d : Die) (t : Nat) (w : Word) : ¬ (d.finishDw0 t stOk w).ends t stAbortLimit := by
  simp [Die.ends, stOk, stAbortLimit]

theorem Die.abort_of_limit (h : d.adminTag t 0x08 e) (fresh : (d.tag t).target = none) (limit : 16 ≤ d.olderAborts t) :
    d.abort t = d.finish t stAbortLimit := by
  rw [Die.abort, Die.admin_of_adminTag h]
  dsimp only
  rw [if_neg (by simp [fresh])]
  exact if_pos limit

/-- Within the limit an Abort ends with success, or waits for the worker that runs its target. -/
theorem Die.abort_below_limit (h : d.adminTag t 0x08 e) (fresh : (d.tag t).target = none) (below : d.olderAborts t < 16) :
    ¬ (d.abort t).ends t stAbortLimit := by
  unfold Die.olderAborts at below
  rw [Die.abort, Die.admin_of_adminTag h]
  dsimp only
  rw [if_neg (by simp [fresh]), if_neg (Nat.not_le.mpr below)]
  split
  · split
    · exact Die.not_abortLimit_of_finishDw0 _ _ _
    · split
      · simp [Die.ends]
      · exact Die.not_abortLimit_of_finishDw0 _ _ _
  · exact Die.not_abortLimit_of_finishDw0 _ _ _

end

/-- Settles O49: the sixteenth older Abort ends the command at once; below that it ends with success or waits. -/
theorem abortLimitIsSixteen : Obligations.AbortLimitIsSixteen := by
  intro s t e x older h fresh
  refine ⟨fun limit => ?_, fun below => ?_⟩ <;> refine completes_of_run (f := (·.abort t)) rfl (Die.adminTag_awake h) ?_
  · rw [Die.abort_of_limit h fresh limit]
    exact ⟨Die.finish_ends _ _ _, rfl⟩
  · exact Die.abort_below_limit h fresh below

/-! ## Doorbells and moderation (R69, R399 to R403) -/

theorem Die.sqDoorbell_of_inside (d : Die) (n y : Nat) (w : Word) (inside : bitsOf w 0 16 < ((d.fn n).sq y).size) :
    d.sqDoorbell n y w true = d.updFn n (·.updSq y (fun q => { q with
      tail := bitsOf w 0 16
      rungs := if bitsOf w 0 16 = q.tail then q.rungs else q.rungs ++ [((bitsOf w 0 16 + q.size - q.tail) % q.size, d.now)] })) := by
  unfold Die.sqDoorbell
  dsimp only
  rw [if_neg (Nat.ne_zero_of_lt inside), if_neg (by simp [inside])]

theorem Die.cqDoorbell_of_inside (d : Die) (n y : Nat) (w : Word) (inside : bitsOf w 0 16 < ((d.fn n).cq y).size) :
    d.cqDoorbell n y w true = d.updFn n (·.updCq y (fun q => { q with head := bitsOf w 0 16 })) := by
  unfold Die.cqDoorbell
  dsimp only
  rw [if_neg (Nat.ne_zero_of_lt inside), if_neg (by simp [inside])]

/-- A vector that the host may reach has its message sent (R401, R403). -/
theorem Die.sendVec_of_unmasked (d : Die) (n v : Nat) (d0 : (d.fn n).d3 = false) (all : (d.fn n).funcMask = false)
    (one : ((d.fn n).vec v).mask = false) :
    d.sendVec n v = (d.updFn n (·.updVec v (fun y => { y with pba := false, count := 0, due := none }))).emit
      (.msix n v ((d.fn n).vec v).addr ((d.fn n).vec v).data) := by
  unfold Die.sendVec
  dsimp only
  rw [if_neg (by simp [d0]), if_neg (by simp [all, one])]

theorem Die.moderationDue_of_due {d : Die} {n v due : Nat} (h : ((d.fn n).vec v).due = some due) (past : due ≤ d.now)
    (enabled : (d.fn n).msixEn = true) : d.moderationDue n v = d.sendVec n v := by
  unfold Die.moderationDue
  rw [h]
  exact if_pos ⟨past, enabled⟩

/-- The fields of a QE_VMOD value within their widths read back from it (R400). -/
theorem bitsOf_vmod {thr time mode : Nat} (hthr : thr < 256) (htime : time < 1024) (hmode : mode < 8) :
    let x : Word := BitVec.ofNat 32 (thr + 256 * time + 2 ^ 18 * mode)
    bitsOf x 0 8 = thr ∧ bitsOf x 8 10 = time ∧ bitsOf x 18 3 = mode ∧ bitsOf x 21 11 = 0 := by
  simp only [bitsOf, BitVec.toNat_ofNat]
  omega

theorem bitsOf_lt {w : Nat} (x : BitVec w) (lo n : Nat) : bitsOf x lo n < 2 ^ n := Nat.mod_lt _ (Nat.two_pow_pos n)

/-- Settles O19: each register's write is stored, clamped by the fields' widths, and the vector's message is the last output. -/
theorem vectorsAreModerated : Obligations.VectorsAreModerated := by
  intro s n y v w awake
  have thr : max 1 (bitsOf w 0 8) < 256 := by have := bitsOf_lt w 0 8; omega
  have time : min 1000 (bitsOf w 8 10) < 1024 := by omega
  refine ⟨fun inside => ?_, fun inside => ?_, fun present held => ?_, fun beyond => ?_, fun present => ?_,
    fun due h past enabled d0 all one => ?_⟩
  · refine completes_of_run (f := (·.sqDoorbell n y w true)) rfl awake ?_
    rw [Die.sqDoorbell_of_inside _ _ _ _ inside]
    simp
  · refine completes_of_run (f := (·.cqDoorbell n y w true)) rfl awake ?_
    rw [Die.cqDoorbell_of_inside _ _ _ _ inside]
    simp
  · refine completes_of_run (f := (·.vmodWrite n v w)) rfl awake ?_
    rw [Die.vmodWrite, if_pos ⟨held, present⟩]
    simpa using bitsOf_vmod thr time (bitsOf_lt w 18 3)
  · exact completes_of_run (f := (·.vmodWrite n v w)) rfl awake (if_neg (by simp [Nat.not_lt.mpr beyond]))
  · refine completes_of_run (f := (·.ndefWrite n w)) rfl awake ?_
    rw [Die.ndefWrite, if_pos present]
    obtain ⟨isThr, isTime, -⟩ := bitsOf_vmod thr time (Nat.zero_lt_succ 7)
    simpa using And.intro isThr isTime
  · refine completes_of_run (f := (·.moderationDue n v)) rfl awake ?_
    rw [Die.moderationDue_of_due h past enabled, Die.sendVec_of_unmasked _ _ _ d0 all one]
    simp

end Sys2Proof.Machine

/-! SUPPORT. The life of a command under its tag (R71 to R87, R116, R135): fetch, admission, the zone gate, posting and its timers. -/

namespace Sys2Proof

/-- An entry that a table lists written again as it stands leaves the table as it is. -/
theorem Tbl.set_get_of_ne {α : Type} (d : α) : ∀ (t : Tbl α) (k : Nat), Tbl.get d t k ≠ d → Tbl.set t k (Tbl.get d t k) = t
  | [], _, h => absurd rfl h
  | (a, b) :: r, k, h => by
    by_cases same : k = a
    · simp [Tbl.get, Tbl.set, same]
    · simp only [Tbl.get, Tbl.set, if_neg same] at h ⊢
      rw [Tbl.set_get_of_ne d r k h]

end Sys2Proof

namespace Sys2Proof.Machine

/-! ## A command bound to its tag keeps it through the checks of R121 -/

/-- A tag holds a command fetched from a queue, working or with its status fixed, and the queue stands at a head. -/
structure Die.Bound (d : Die) (t n q : Nat) (e : SqEntry) (gen : BitVec 8) (head : Nat) : Prop where
  entry : (d.tag t).entry = some e
  fn : (d.tag t).fn = n
  sq : (d.tag t).sq = q
  gen : (d.tag t).gen = gen
  st : (d.tag t).st = .bound ∨ (d.tag t).st = .posting
  head : ((d.fn n).sq q).head = head

/-- A change of a tag that leaves its command there, working as before or with its status fixed. -/
def Tag.KeepsCommand (f : Tag → Tag) : Prop :=
  ∀ x, (f x).entry = x.entry ∧ (f x).fn = x.fn ∧ (f x).sq = x.sq ∧ (f x).gen = x.gen ∧ ((f x).st = x.st ∨ (f x).st = .posting)

namespace Die.Bound
variable {d u : Die} {t n q head : Nat} {e : SqEntry} {gen : BitVec 8}

theorem of_same (h : d.Bound t n q e gen head) (qe : u.qe = d.qe) (funcs : u.funcs = d.funcs) : u.Bound t n q e gen head := by
  have tag : u.tag t = d.tag t := by rw [Die.tag, qe]; rfl
  have fn : u.fn n = d.fn n := by rw [Die.fn, funcs]; rfl
  obtain ⟨entry, isFn, sq, gen, st, head⟩ := h
  rw [← tag] at entry isFn sq gen st
  rw [← fn] at head
  exact ⟨entry, isFn, sq, gen, st, head⟩

theorem updTag (h : d.Bound t n q e gen head) (m : Nat) {f : Tag → Tag} (keeps : Tag.KeepsCommand f) :
    (d.updTag m f).Bound t n q e gen head := by
  obtain ⟨entry, isFn, sq, gen, st, head⟩ := h
  by_cases same : t = m
  · subst same
    obtain ⟨entry', fn', sq', gen', st'⟩ := keeps (d.tag t)
    have tag := d.tag_updTag_self t f
    refine ⟨by rw [tag, entry', entry], by rw [tag, fn', isFn], by rw [tag, sq', sq], by rw [tag, gen', gen], ?_, head⟩
    rw [tag]
    rcases st' with working | fixed
    · rwa [working]
    · exact .inr fixed
  · have tag : (d.updTag m f).tag t = d.tag t := by rw [Die.tag_updTag, if_neg same]
    rw [← tag] at entry isFn sq gen st
    exact ⟨entry, isFn, sq, gen, st, head⟩

theorem finish (h : d.Bound t n q e gen head) (m : Nat) (st : Status) : (d.finish m st).Bound t n q e gen head :=
  h.updTag m fun _ => ⟨rfl, rfl, rfl, rfl, .inr rfl⟩

theorem finishDw0 (h : d.Bound t n q e gen head) (m : Nat) (st : Status) (w : Word) : (d.finishDw0 m st w).Bound t n q e gen head :=
  h.updTag m fun _ => ⟨rfl, rfl, rfl, rfl, .inr rfl⟩

theorem updFn (h : d.Bound t n q e gen head) (m : Nat) {f : Func → Func} (sqs : ∀ x, (f x).sqs = x.sqs) :
    (d.updFn m f).Bound t n q e gen head := by
  have queues : ((d.updFn m f).fn n).sq q = (d.fn n).sq q := by
    rw [Die.fn_updFn]; split
    · subst n; rw [Func.sq, sqs]; rfl
    · rfl
  obtain ⟨entry, isFn, sq, gen, st, head⟩ := h
  exact ⟨entry, isFn, sq, gen, st, by rw [queues, head]⟩

theorem post (h : d.Bound t n q e gen head) (m : Nat) (a : Aen) : (d.post m a).Bound t n q e gen head := by
  unfold Die.post; dsimp only; split
  · split
    · exact h.updFn m fun _ => rfl
    · exact Die.Bound.finishDw0 (h.updFn m fun _ => by rfl) _ _ _
  · exact h.updFn m fun _ => rfl

theorem record (h : d.Bound t n q e gen head) (code sev inst : Nat) (p : List Byte) : (d.record code sev inst p).Bound t n q e gen head :=
  h.of_same (by rw [Die.record_only_lb]) (by rw [Die.record_only_lb])

theorem vendorEvent (h : d.Bound t n q e gen head) (info page : Nat) : (d.vendorEvent info page).Bound t n q e gen head := by
  unfold Die.vendorEvent; split
  · exact foldl_keeps (fun x : Die => x.Bound t n q e gen head) _ (fun _ m hx => hx.post m _) _ _ h
  · exact h.of_same (by simp [Die.quayMgmtSend]) (by simp [Die.quayMgmtSend])

theorem spaceRecords (h : d.Bound t n q e gen head) (m nsid : Nat) (y : SqEntry) (st : Status) :
    (d.spaceRecords m nsid y st).Bound t n q e gen head := by
  unfold Die.spaceRecords; dsimp only; split
  · split
    · exact (h.record _ _ _ _).vendorEvent _ _
    · exact h
  · split
    · exact h.record _ _ _ _
    · exact h

theorem updZone (h : d.Bound t n q e gen head) (m z : Nat) (f : Zone → Zone) : (d.updZone m z f).Bound t n q e gen head :=
  h.of_same rfl rfl

theorem openZone (h : d.Bound t n q e gen head) (nsid z : Nat) (r : Option Nat × Option Nat) (st : ZState) :
    (d.openZone nsid z r st).Bound t n q e gen head := by
  unfold Die.openZone; dsimp only
  cases r.2 <;> exact h.of_same rfl rfl

/-- Steps 6 to 9 of R121. -/
theorem checkLate (h : d.Bound t n q e gen head) (m : Nat) (y : SqEntry) : (d.checkLate m y).Bound t n q e gen head := by
  have passed : ∀ {u : Die} (w : Nat), u.Bound t n q e gen head → (u.updTag m (fun x => { x with wlba := w, gated := false })).Bound t n q e gen head :=
    fun _ hu => hu.updTag m fun _ => ⟨rfl, rfl, rfl, rfl, .inl rfl⟩
  unfold Die.checkLate; dsimp only
  split
  · exact h.finish _ _
  split
  · exact h.finish _ _
  split
  · exact h.finish _ _
  split
  · exact h.finish _ _
  split
  · split
    · exact (h.spaceRecords _ _ _ _).finish _ _
    · split
      · refine Die.Bound.updZone (Die.Bound.updTag (h.openZone _ _ _ _) m ?_) _ _ _
        exact fun _ => ⟨rfl, rfl, rfl, rfl, .inl rfl⟩
      · exact passed _ h
  · exact passed _ h

theorem fdpEvent (h : d.Bound t n q e gen head) (type ruh : Nat) : (d.fdpEvent type ruh).Bound t n q e gen head := by
  unfold Die.fdpEvent; split <;> exact h.of_same rfl rfl

theorem checkEntry (h : d.Bound t n q e gen head) (fn sq m : Nat) (y : SqEntry) : (d.checkEntry fn sq m y).Bound t n q e gen head := by
  unfold Die.checkEntry
  split
  · split
    · exact h.finish _ _
    · split
      · exact h.finish _ _
      · exact h
  split
  · refine Die.Bound.finish ?_ _ _
    split
    · exact h.fdpEvent _ _
    · exact h
  split
  · exact h
  split
  · exact h
  split
  · exact h.finish _ _
  split
  · exact h.finish _ _
  split
  · exact h.finish _ _
  split
  · exact h.updTag m fun _ => ⟨rfl, rfl, rfl, rfl, .inl rfl⟩
  split
  · exact h.updTag m fun _ => ⟨rfl, rfl, rfl, rfl, .inl rfl⟩
  split
  · exact h.checkLate _ _
  · exact h

end Die.Bound

/-! ## Fetch (R71, R72) -/

/-- An entry taken from its queue is bound to the tag, and the queue's head moves on. -/
theorem Die.bindTag_bound (d : Die) (n q t : Nat) (e : SqEntry) :
    (d.bindTag n q t e).Bound t n q e (d.tag t).gen ((((d.fn n).sq q).head + 1) % ((d.fn n).sq q).size) := by
  unfold Die.bindTag
  dsimp only
  generalize stamped : Die.stampFor _ n _ _ _ _ = r
  obtain ⟨qe, funcs⟩ : r.2.qe = d.qe ∧ r.2.funcs = d.funcs := by
    rw [← stamped]; split <;> exact ⟨rfl, rfl⟩
  exact {
    entry := by simp [Die.tag, Tbl.get_set_self]
    fn := by simp [Die.tag, Tbl.get_set_self]
    sq := by simp [Die.tag, Tbl.get_set_self]
    gen := by simp [Die.tag, Tbl.get_set_self, qe]
    st := by simp [Die.tag, Tbl.get_set_self]
    head := by
      rw [Die.fn_cutTurn, Die.fn_updTenant, Die.fn_updFn_self, Func.sq_updSq_self]
      simp [Die.fn, funcs, Sq.take] }

theorem Die.fetch_bound {d : Die} {n q t : Nat} (e : SqEntry) (unheld : d.qe.hold = false) (serving : d.qe.stopped = false)
    (isTag : t < Config.tags) (isFree : (d.tag t).st = .free) (due : d.fetchDue n q = true) :
    (d.fetch n q t e).Bound t n q e (d.tag t).gen ((((d.fn n).sq q).head + 1) % ((d.fn n).sq q).size) := by
  unfold Die.fetch
  rw [if_pos ⟨unheld, serving, isTag, isFree, due⟩]
  have bound : (d.hostWake.bindTag n q t e).Bound t n q e (d.tag t).gen ((((d.fn n).sq q).head + 1) % ((d.fn n).sq q).size) :=
    d.hostWake.bindTag_bound n q t e
  exact iteInduction (motive := fun u : Die => u.Bound ..) (fun _ => bound.finish _ _) (fun _ => bound.checkEntry _ _ _ _)

/-! ## Admission (R85, R289, R302) -/

/-- What a command's later charges and counts of its admission leave: its tag, the count of those admitted and the tenants. -/
def Die.sameAdmission (u d : Die) : Prop := u.qe.tags = d.qe.tags ∧ u.sch.admitted = d.sch.admitted ∧ u.tenants = d.tenants

theorem Die.quayOut_sameAdmission (d : Die) (p : Nat) (o : Out) : (d.quayOut p o).sameAdmission d := by
  simp [Die.sameAdmission, Die.quayOut]

theorem Die.cutTurn_sameAdmission (d : Die) : d.cutTurn.sameAdmission d := by
  rw [Die.cutTurn_only]; exact ⟨rfl, rfl, rfl⟩

theorem Die.sameAdmission_trans {u v d : Die} (h : u.sameAdmission v) (k : v.sameAdmission d) : u.sameAdmission d :=
  let ⟨tags, admitted, tenants⟩ := h
  let ⟨tags', admitted', tenants'⟩ := k
  ⟨tags.trans tags', admitted.trans admitted', tenants.trans tenants'⟩

/-- The die with a tag's command admitted and counted in the window, before its tenant is charged. -/
def Die.countedIn (d : Die) (t : Nat) (e : SqEntry) : Die :=
  let u := d.updTag t (fun y => { y with st := .admitted, ranges := if y.ioOpc = 0x08 then [(e.slba, e.nlb)] else y.ranges })
  { u with sch := { u.sch with admitted := u.sch.admitted + 1 } }

section
variable {d : Die} {t : Nat} {e : SqEntry} (entry : (d.tag t).entry = some e) (bound : (d.tag t).st = .bound)
  (unheld : d.qe.hold = false) (serving : d.qe.stopped = false) (room : d.admitHeld (d.tag t) e = false)
include entry bound unheld serving room

theorem Die.admitCmd_of_admin (admin : (d.tag t).sq = 0) : d.admitCmd t = d.countedIn t e := by
  simp only [Die.admitCmd, entry]
  rw [if_pos ⟨bound, unheld, serving, room⟩, if_pos admin]
  rfl

/-- Behind the charge of an I/O command come a turn that may end, the reads and writes counted per group, and its message to a worker. -/
theorem Die.admitCmd_of_io (io : (d.tag t).sq ≠ 0) :
    (d.admitCmd t).sameAdmission ((d.countedIn t e).updTenant (d.tag t).fn (fun y => y.charge (d.chargeOf e))) := by
  have charged := Die.cutTurn_sameAdmission ((d.countedIn t e).updTenant (d.tag t).fn (fun y => y.charge (d.chargeOf e)))
  simp only [Die.admitCmd, entry]
  rw [if_pos ⟨bound, unheld, serving, room⟩, if_neg io]
  split
  · refine Die.sameAdmission_trans (Die.quayOut_sameAdmission _ _ _) ?_
    split
    · split <;> exact charged
    · exact charged
  · split
    · split <;> exact charged
    · exact charged

/-- A command admitted: its tag, the count of the window, and its charge (R85, R289, R302). -/
theorem Die.admitCmd_admits :
    let x := d.tag t
    (d.admitCmd t).tag t = { x with st := .admitted, ranges := if x.ioOpc = 0x08 then [(e.slba, e.nlb)] else x.ranges } ∧
    (d.admitCmd t).sch.admitted = d.sch.admitted + 1 ∧
    (d.admitCmd t).tenants = if x.sq = 0 then d.tenants else (d.updTenant x.fn (fun y => y.charge (d.chargeOf e))).tenants := by
  intro x
  by_cases admin : x.sq = 0
  · rw [Die.admitCmd_of_admin entry bound unheld serving room admin, if_pos admin]
    exact ⟨Die.tag_updTag_self _ _ _, rfl, rfl⟩
  · obtain ⟨tags, admitted, tenants⟩ := Die.admitCmd_of_io entry bound unheld serving room admin
    rw [if_neg admin, admitted, tenants, Die.tag, tags]
    exact ⟨Die.tag_updTag_self _ _ _, rfl, rfl⟩

end

/-! ## The zone gate (R135) -/

/-- A tag in flight written as it stands leaves the die as it is. -/
theorem Die.updTag_of_same {d : Die} {t : Nat} {f : Tag → Tag} (same : f (d.tag t) = d.tag t) (inUse : (d.tag t).entry.isSome = true) :
    d.updTag t f = d := by
  have listed : d.tag t ≠ {} := fun h => by simp [h] at inUse
  have tags : Tbl.upd {} d.qe.tags t f = d.qe.tags := by
    rw [Tbl.upd, ← Die.tag, same]
    exact Tbl.set_get_of_ne _ _ _ listed
  rw [Die.updTag, tags]

theorem Die.gateOpen_of_first {d : Die} {t : Nat} {e : SqEntry} (entry : (d.tag t).entry = some e) (live : (d.tag t).live = true)
    (io : (d.tag t).sq ≠ 0) (here : (d.tag t).forwarded = false) (ungated : (d.tag t).gated = false) (action : e.opc = 0x79)
    (clear : d.gateShut e (d.tag t).order = false) (done : d.earlierDone e false (d.tag t).order = true) :
    d.gateOpen t = d.updTag t (fun y => { y with gateOpen := true }) := by
  have unchanged : d.updTag t (fun y => { y with gated := false }) = d := Die.updTag_of_same (by rw [← ungated]) (by rw [entry]; rfl)
  have unchecked : ¬ ((d.tag t).gated && rwOpcodes.contains e.opc) = true := by simp [ungated]
  simp only [Die.gateOpen, entry]
  rw [if_pos ⟨live, io, here⟩, if_neg (by simp [clear]), if_neg unchecked, unchanged]
  exact if_pos ⟨action, done⟩

/-! ## Posting (R73, R81 to R85) -/

@[simp] theorem Die.tag_freeTag_self (d : Die) (t : Nat) : (d.freeTag t).tag t = (d.tag t).freed := by
  unfold Die.freeTag; dsimp only; split <;> exact Die.tag_updTag_self _ _ _

@[simp] theorem Die.fn_freeTag (d : Die) (t n : Nat) : (d.freeTag t).fn n = d.fn n := by simp [Die.fn]

@[simp] theorem Die.tag_checkShutdown (d : Die) (n t : Nat) : (d.checkShutdown n).tag t = d.tag t := by
  unfold Die.checkShutdown; split <;> rfl

@[simp] theorem Die.out_checkShutdown (d : Die) (n : Nat) : (d.checkShutdown n).out = d.out := by
  unfold Die.checkShutdown; split <;> rfl

@[simp] theorem Die.cqs_checkShutdown (d : Die) (n m : Nat) : ((d.checkShutdown n).fn m).cqs = (d.fn m).cqs := by
  unfold Die.checkShutdown; split
  · rw [Die.fn_updFn]; split
    · subst m; rfl
    · rfl
  · rfl

@[simp] theorem Die.tag_countVec (d : Die) (n v t : Nat) (u a : Bool) : (d.countVec n v u a).tag t = d.tag t := by
  rw [Die.countVec_only]; rfl

/-- A vector's registers are none of the completion queues. -/
@[simp] theorem Die.cqs_updFn_updVec (d : Die) (n v m : Nat) (f : Vec → Vec) : ((d.updFn n (fun g => g.updVec v f)).fn m).cqs = (d.fn m).cqs := by
  rw [Die.fn_updFn]; split
  · subst m; rfl
  · rfl

@[simp] theorem Die.cqs_sendVec (d : Die) (n v m : Nat) : ((d.sendVec n v).fn m).cqs = (d.fn m).cqs := by
  unfold Die.sendVec; dsimp only; split
  · rfl
  · split <;> simp

@[simp] theorem Die.cqs_countVec (d : Die) (n v m : Nat) (u a : Bool) : ((d.countVec n v u a).fn m).cqs = (d.fn m).cqs := by
  unfold Die.countVec; dsimp only; split
  · split <;> simp
  · rfl

theorem Die.mem_out_sendVec {d : Die} {o : Out} (h : o ∈ d.out) (n v : Nat) : o ∈ (d.sendVec n v).out := by
  unfold Die.sendVec; dsimp only; split
  · exact h
  · split
    · exact h
    · simp [h]

/-- A message of a vector takes back nothing that was sent. -/
theorem Die.mem_out_countVec {d : Die} {o : Out} (h : o ∈ d.out) (n v : Nat) (u a : Bool) : o ∈ (d.countVec n v u a).out := by
  unfold Die.countVec; dsimp only; split
  · split
    · exact Die.mem_out_sendVec (by simp [h]) _ _
    · exact h
  · exact h

/-- A latency counted changes the scheduler alone (R290). -/
theorem Die.countLatency_only_sch (d : Die) (t : Nat) : d.countLatency t = { d with sch := (d.countLatency t).sch } := by
  unfold Die.countLatency; dsimp only; split <;> rfl

@[simp] theorem Die.tag_countLatency (d : Die) (t m : Nat) : (d.countLatency t).tag m = d.tag m := by rw [Die.countLatency_only_sch]; rfl

@[simp] theorem Die.fn_countLatency (d : Die) (t n : Nat) : (d.countLatency t).fn n = d.fn n := by rw [Die.countLatency_only_sch]; rfl

@[simp] theorem Die.reportOf_countLatency (d : Die) (t : Nat) (x : Tag) (e : SqEntry) : (d.countLatency t).reportOf x e = d.reportOf x e := by
  rw [Die.countLatency_only_sch]; rfl

/-- A tag stands as given, a completion queue has its tail at a slot, and an output is among those sent. -/
structure Die.Written (d : Die) (t n k : Nat) (x : Tag) (tail : Nat) (o : Out) : Prop where
  tag : d.tag t = x
  tail : ((d.fn n).cq k).tail = tail
  out : o ∈ d.out

namespace Die.Written
variable {d : Die} {t n k tail : Nat} {x : Tag} {o : Out}

theorem of_emit (d : Die) (t : Nat) (o : Out) {f : Func → Func} (h : ((f (d.fn n)).cq k).tail = tail) :
    (((d.countLatency t).emit o).updFn n f).Written t n k (d.tag t) tail o :=
  ⟨by simp, by simpa using h, by simp⟩

theorem countVec (h : d.Written t n k x tail o) (m v : Nat) (u a : Bool) : (d.countVec m v u a).Written t n k x tail o :=
  ⟨by simp [h.tag], by simpa [Func.cq] using h.tail, Die.mem_out_countVec h.out _ _ _ _⟩

theorem freed (h : d.Written t n k x tail o) (m : Nat) : ((d.freeTag t).checkShutdown m).Written t n k x.freed tail o :=
  ⟨by simp [h.tag], by simpa [Func.cq] using h.tail, by simpa using h.out⟩

end Die.Written

/-- The entry of a finished command is written at its queue's tail, and the tag is freed (R73, R83). -/
theorem Die.postCompletion_written {d : Die} {t : Nat} {e : SqEntry} (entry : (d.tag t).entry = some e) (posting : (d.tag t).st = .posting)
    (manager : d.life.manager = true) :
    let x := d.tag t
    let f := d.fn x.fn
    let k := (f.sq x.sq).cq
    let c := f.cq k
    c.size ≠ 0 → (c.tail + 1) % c.size ≠ c.head → d.abortWaits x e = false →
    (d.postCompletion t).Written t x.fn k x.freed ((c.tail + 1) % c.size)
      (.cqe x.fn k x.sq e.cid c.tail x.dw0 (d.reportOf x e) (f.sq x.sq).head c.phase x.sct x.sc (entersErrorLog (x.sct, x.sc))
        (dnr (x.sq == 0) (x.sct, x.sc))) := by
  intro x f k c made room settled
  simp only [Die.postCompletion, entry]
  rw [if_neg (by simp [manager]), if_pos ⟨posting, made, room, settled⟩, Die.reportOf_countLatency]
  refine Die.Written.freed (iteInduction (motive := fun u : Die => u.Written ..) (fun _ => Die.Written.countVec ?_ ..) (fun _ => ?_)) _
  all_goals exact Die.Written.of_emit _ _ _ (by simp [Func.cq, Func.updCq, c, k, f, x])

/-! ## Timers (R87, R116) -/

/-- A command that fails ends with its status (R83). -/
theorem Die.failTag_ends (d : Die) (t : Nat) (st : Status) : (d.failTag t st).ends t st := Die.finish_ends _ _ _

theorem Die.timeout_ends {d : Die} {t : Nat} {e : SqEntry} (entry : (d.tag t).entry = some e) (live : (d.tag t).live = true)
    (late : (d.tag t).fetched + Config.ceilingUs ≤ d.now) (noAer : (d.tag t).adminOpc ≠ 0x0C) : (d.timeout t).ends t stInternalTimeout := by
  simp only [Die.timeout, entry]
  rw [if_pos ⟨live, late, noAer⟩]
  exact Die.failTag_ends _ _ _

theorem Die.failFast_ends {d : Die} {t dl : Nat} {e : SqEntry} (entry : (d.tag t).entry = some e) (isDl : ffDeadline (d.tag t) e = some dl)
    (missed : dl < d.now) (bound : (d.tag t).st = .bound) (unheld : d.qe.hold = false) : (d.failFast t).ends t stDeadline := by
  simp only [Die.failFast, entry, isDl]
  rw [if_pos ⟨missed, .inl bound, unheld⟩]
  exact Die.failTag_ends _ _ _

/-- Settles O34: a fetch leaves its command bound through the checks, the charge and the counts of an admission leave its tag, a gate is
opened on an unchanged die, a message sent after an entry takes nothing of it back, and a failing command ends last with its status. -/
theorem commandsLiveUnderTags : Obligations.CommandsLiveUnderTags := by
  intro s t n q e awake x c
  refine ⟨fun unheld serving isTag isFree due => ?_, fun entry bound unheld serving room => ?_,
    fun entry live io here ungated action clear done => ?_, fun entry posting manager made room settled => ?_,
    fun entry live late noAer => ?_, fun dl entry isDl missed bound unheld => ?_⟩
  · obtain ⟨entry, fn, sq, gen, st, head⟩ := Die.fetch_bound e unheld serving isTag isFree due
    exact completes_of_run (f := (·.fetch n q t e)) rfl awake ⟨entry, fn, sq, gen, st, head⟩
  · exact completes_of_run (f := (·.admitCmd t)) rfl awake (Die.admitCmd_admits entry bound unheld serving room)
  · refine completes_of_run (f := (·.gateOpen t)) rfl awake ?_
    rw [Die.gateOpen_of_first entry live io here ungated action clear done]
    exact Die.tag_updTag_self _ _ _
  · refine completes_of_run (f := (·.postCompletion t)) rfl awake ?_
    obtain ⟨freed, tail, cqe⟩ := Die.postCompletion_written entry posting manager made room settled
    rw [freed]
    exact ⟨rfl, rfl, rfl, tail, cqe⟩
  · exact completes_of_run (f := (·.timeout t)) rfl awake (Die.timeout_ends entry live late noAer)
  · exact completes_of_run (f := (·.failFast t)) rfl awake (Die.failFast_ends entry isDl missed bound unheld)

end Sys2Proof.Machine

/-! SUPPORT. The owner's commands (file 07): what a request that reaches its command's own part can change besides the answer (R373, R376,
R383), and the passport of a port that has come back to PRESENT (R227, R228). -/

namespace Sys2Proof.Machine

/-! ## The ends of a command write its answer alone (R323, R373, R376) -/

theorem Die.gathered_sameButAnswer (d : Die) (n : Nat) : (d.gathered n).sameButAnswer d := by
  unfold Die.gathered; dsimp only; split
  · exact d.respondFull_sameButAnswer _ _ _ _ _ _ _
  · exact d.sameButAnswer_refl

theorem Die.answerOf_sameButAnswer (d : Die) (n g st : Nat) : (d.answerOf n g st).sameButAnswer d :=
  Die.sameButAnswer_trans (Die.gathered_sameButAnswer _ n) (d.updMbx_sameButAnswer n _)

theorem Die.kanexEnd_sameButAnswer (d : Die) (n st detail : Nat) (payload : List Byte) : (d.kanexEnd n st detail payload).sameButAnswer d := by
  unfold Die.kanexEnd; split
  · exact d.respondFull_sameButAnswer _ _ _ _ _ _ _
  · exact d.answerOf_sameButAnswer _ _ _

theorem Die.awaitAll_sameButAnswer (d : Die) (n : Nat) : (d.awaitAll n).sameButAnswer d := by
  unfold Die.awaitAll; split
  · exact d.sameButAnswer_refl
  · exact d.updMbx_sameButAnswer n _

theorem Die.appliedHere_sameButAnswer (d : Die) (n : Nat) (payload : List Byte) : (d.appliedHere n payload).sameButAnswer d := by
  refine Die.sameButAnswer_trans ?_ (d.awaitAll_sameButAnswer n)
  unfold Die.appliedHere; dsimp only; split
  · exact Die.respondFull_sameButAnswer _ _ _ _ _ _ _ _
  · exact Die.sameButAnswer_trans (Die.answerOf_sameButAnswer _ _ _ _) (Die.updMbx_sameButAnswer _ n _)

theorem Die.kanexForward_sameButAnswer (d : Die) (g op : Nat) (q : Option KReq) : (d.kanexForward g op q).sameButAnswer d :=
  d.quayMgmtSend_sameButAnswer _ _

/-- A request sent on to any number of workers. -/
theorem Die.foldl_kanexForward_sameButAnswer (op : Nat) (q : Option KReq) (ps : List Nat) (d : Die) :
    (ps.foldl (fun (x : Die) p => x.kanexForward (p + 2) op q) d).sameButAnswer d :=
  foldl_keeps (·.sameButAnswer d) _ (fun _ _ h => Die.sameButAnswer_trans (Die.kanexForward_sameButAnswer _ _ _ _) h) ps d d.sameButAnswer_refl

/-- The die that a command's own part hands to its answer. -/
def KAns.die : KAns → Die
  | .ans e .. | .paged e .. | .go e _ | .wait e | .all e _ => e

theorem kanexRun_sameButAnswer (n roffset : Nat) (a : KAns) : (kanexRun n roffset a).sameButAnswer a.die := by
  cases a with
  | ans e st detail payload => exact e.kanexEnd_sameButAnswer _ _ _ _
  | paged e total size item =>
    unfold kanexRun; dsimp only; split <;> exact e.respondFull_sameButAnswer _ _ _ _ _ _ _
  | go e total => exact e.updMbx_sameButAnswer n _
  | wait e => exact e.updMbx_sameButAnswer n _
  | all e payload => exact e.appliedHere_sameButAnswer n payload

/-- Refused for a field or carried out: but for the answer, the die is the old one or the command's (R387). -/
theorem Die.kanexHere_sameButAnswer (d : Die) (q : KReq) (c : KCmd) :
    (d.kanexHere q c).sameButAnswer d ∨ (d.kanexHere q c).sameButAnswer (c.body d).die := by
  unfold Die.kanexHere; split
  · exact .inl (d.kanexEnd_sameButAnswer _ _ _ _)
  · split
    · exact .inl (d.kanexEnd_sameButAnswer _ _ _ _)
    · exact .inr (kanexRun_sameButAnswer _ _ _)

/-! ## A request that reaches its command's own part (R368 to R372, R376, R383) -/

section
variable {d : Die} {q : KReq} {c : KCmd}

theorem Die.awake_of_takes {op need : Nat} {acts : Bool} {used : List (Nat × Nat)} (h : d.takes q op acts need used = true) : d.awake = true := by
  simp only [Die.takes, Die.takesHeader, Die.takesFrame, Bool.and_eq_true] at h
  simp [Die.awake, h]

/-- Check 6 for a request that names this die. -/
theorem Die.kanexRoute_here (tdie : q.tdie = 0) (acts : c.acts = true → (d.tenant (kTenant q)).alive = true) :
    d.kanexRoute q c = d.kanexHere q c := by
  have here : d.tdieGroup q.tdie = d.anaGroup := by simp [Die.tdieGroup, tdie]
  have present : d.diePresent d.anaGroup = true := by simp [Die.diePresent]
  unfold Die.kanexRoute
  rw [if_neg (by simp [tdie]), if_neg (by simp [tdie]), here, if_neg (by simp [present]), if_neg (by simpa using acts), if_pos rfl]

/-- Checks 1 to 6 of R383 passed: what is left is the command's own part, on the die that has taken the request. -/
theorem Die.kanex_of_takes (h : d.takes q c.op c.acts c.need c.used = true) : d.kanex q c = (d.accepted q c.op).kanexHere q c := by
  simp only [Die.takes, Die.takesHeader, Die.takesFrame_eq, Bool.and_eq_true, Option.isNone_iff_eq_none] at h
  obtain ⟨⟨⟨⟨⟨⟨⟨reaches, good⟩, known⟩, owner⟩, own⟩, tdie⟩, acts⟩, -⟩ := h
  have known' : (catRow c.op).isNone = false := by simpa using known
  rw [Die.kanex_eq_checks reaches, Die.kanexChecks, Die.accepted_tenant, if_neg (by simp [Die.reachesHeader_alive reaches]),
    if_neg (by simp [Die.reachesHeader_seq reaches]), known', Bool.or_false, good]
  dsimp only
  rw [if_neg (by simp), if_neg (by simpa using And.intro (by simpa [Decidable.or_iff_not_imp_left] using owner) own)]
  exact Die.kanexRoute_here (by simpa using tdie) (by simpa [Decidable.or_iff_not_imp_left] using acts)

/-- With every field right the command is carried out. -/
theorem Die.kanex_runs (h : d.takes q c.op c.acts c.need c.used = true) (good : c.bad (d.accepted q c.op) = none) :
    d.kanex q c = kanexRun q.fn q.roffset (c.body (d.accepted q c.op)) := by
  rw [Die.kanex_of_takes h, Die.kanexHere]
  simp only [Die.takes, takesPayload, Bool.and_eq_true, decide_eq_true_eq, Option.isNone_iff_eq_none] at h
  obtain ⟨-, long, zero⟩ := h
  rw [if_neg (by omega), zero, good]
  rfl

end

/-! ## A setting's command changes its field and its answer -/

/-- A command whose own part writes one field, which no answer does: the die it gives is the old one with the field as it now reads, but for
the answer. `set` writes the field into the old die. -/
theorem setting_keeps_the_rest {α : Type} {s t : State} {q : KReq} {c : KCmd} (field : Die → α) (set : α → Die) (new : α)
    (ran : s.run (·.kanex q c) = .next t) (taken : s.die.takes q c.op c.acts c.need c.used = true)
    (noAnswer : ∀ {x y : Die}, x.sameButAnswer y → field x = field y) (reads : ∀ v, field (set v) = v) (unset : set (field s.die) = s.die)
    (body : (c.body (s.die.accepted q c.op)).die.sameButAnswer (set new)) :
    t.die.sameButAnswer (set (field t.die)) ∧ t.pending = s.pending := by
  rw [s.run_awake _ (Die.awake_of_takes taken), Die.kanex_of_takes taken] at ran
  injection ran with ran
  subst ran
  have holds_of : ∀ {x : Die} {v : α}, x.sameButAnswer (set v) → x.sameButAnswer (set (field x)) := fun {x v} h => by
    rwa [noAnswer h, reads]
  refine ⟨?_, rfl⟩
  rcases (s.die.accepted q c.op).kanexHere_sameButAnswer q c with kept | done
  · refine holds_of (v := field s.die) ?_
    rw [unset]
    exact Die.sameButAnswer_trans kept (s.die.accepted_sameButAnswer q c.op)
  · exact holds_of (Die.sameButAnswer_trans done body)

/-- The policy stored and sent to the workers that serve (R385). -/
theorem Die.policySet_sameButAnswer (d : Die) (q : KReq) :
    let w := BitVec.ofNat 32 (q.get 0 4)
    (d.policySet q).die.sameButAnswer { d with mc := { d.mc with policy := w, policyForce := d.mc.policyForce ||| w } } :=
  Die.foldl_kanexForward_sameButAnswer _ _ _ _

/-- Settles O51: each command's own part writes its field into the die that took the request, and the answer writes nothing of it. -/
theorem settingsKeepTheRest : Obligations.SettingsKeepTheRest := by
  intro s q t d same
  refine ⟨fun taken _ ran => ?_, fun taken ran => ?_, fun taken ran => ?_, fun taken ran => ?_, fun taken ran => ?_, fun taken ran => ?_⟩
  · exact setting_keeps_the_rest (fun x => (x.mc.policy, x.mc.policyForce))
      (fun v => { d with mc := { d.mc with policy := v.1, policyForce := v.2 } })
      (BitVec.ofNat 32 (q.get 0 4), d.mc.policyForce ||| BitVec.ofNat 32 (q.get 0 4)) ran taken
      (congrArg fun x : Die => (x.mc.policy, x.mc.policyForce)) (fun _ => rfl) rfl
      (Die.sameButAnswer_trans (Die.policySet_sameButAnswer _ q) rfl)
  · exact setting_keeps_the_rest (·.sch.profileNext) (fun v => { d with sch := { d.sch with profileNext := v } }) (q.get 0 1) ran taken
      (congrArg fun x : Die => x.sch.profileNext) (fun _ => rfl) rfl rfl
  · exact setting_keeps_the_rest (·.sch.leanCap) (fun v => { d with sch := { d.sch with leanCap := v } }) (q.get 0 2) ran taken
      (congrArg fun x : Die => x.sch.leanCap) (fun _ => rfl) rfl rfl
  · exact setting_keeps_the_rest (·.rc.patrolDays) (fun v => { d with rc := { d.rc with patrolDays := v } }) (q.get 0 2) ran taken
      (congrArg fun x : Die => x.rc.patrolDays) (fun _ => rfl) rfl rfl
  · exact setting_keeps_the_rest (·.se.rejoin) (fun v => { d with se := { d.se with rejoin := v } }) (q.get 0 2) ran taken
      (congrArg fun x : Die => x.se.rejoin) (fun _ => rfl) rfl rfl
  · exact setting_keeps_the_rest (·.tp.splitNext) (fun v => { d with tp := { d.tp with splitNext := v } })
      ((List.range 5).map fun i => q.get i 1) ran taken (congrArg fun x : Die => x.tp.splitNext) (fun _ => rfl) rfl rfl

/-! ## A passport of a port whose fault was cleared (R227, R228) -/

/-- A command that ends in the step that took it, with no other die's answer awaited: DONE, with its response. -/
theorem Die.kanexEnd_accepted_mbx (d : Die) (q : KReq) (op st detail : Nat) (payload : List Byte) :
    let m := (((d.accepted q op).kanexEnd q.fn st detail payload).fn q.fn).mbx
    m.st = .done ∧ m.resp = some ((d.accepted q op).response q.fn st false false detail 0 payload) := by
  have alone : ((d.accepted q op).fn q.fn).mbx.answers = [] := by
    have taken := d.mbx_updMbx q.fn q.fn (·.taken q op d.now (d.freeVal % 17))
    rw [if_pos rfl] at taken
    exact congrArg Mbx.answers taken
  rw [Die.kanexEnd, alone]
  exact Die.respondFull_mbx _ _ _ _ _ _ _ _

theorem Die.berthPassport_of_present {d : Die} {p : Nat} (real : p < Config.ports) (st : (d.port p).st = .present) :
    d.berthPassport p = .no d kStateConflict := by
  unfold Die.berthPassport
  dsimp only
  rw [if_neg (by simp [st, Nat.not_le.mpr real]), if_pos (.inl st)]

/-- Port 1023 in a FAULT reached after its passport was read, disabled by the owner. -/
def Die.faultedBerth : Die :=
  State.reset.die.updPort 1023 (fun x => { x with st := .fault, enabled := false, passport := some { raw := List.replicate 512 0 } })

/-- The die after the owner's BERTH_CLEAR_FAULT: the port waits in PRESENT, disabled, with the passport last read. -/
def Die.clearedBerth : Die := (Die.faultedBerth.berthClear 1023).die

theorem Die.clearedBerth_port : (Die.clearedBerth.port 1023).st = .present ∧
    (Die.clearedBerth.port 1023).passport = some { raw := List.replicate 512 0 } := ⟨rfl, rfl⟩

/-- The owner's BERTH_PASSPORT of port 1023. -/
def passportRequest : KReq :=
  { fn := 0, dbSeq := 7, seq := 7, len := 2, tfunc := 0xFFFF, tdie := 0, rsv11 := 0, rsv20 := 0, roffset := 0, dlen := 0, dptr := 0,
    payload := le 2 1023 }

theorem passportRequest_port : passportRequest.get 0 2 = 1023 := rfl

theorem Die.clearedBerth_takes : Die.clearedBerth.takes passportRequest 0x0B08 false 2 [(0, 2)] = true := rfl

/-- What BERTH_PASSPORT adds to the frame of a request (R387). -/
def passportCmd (q : KReq) : KCmd := { op := 0x0B08, need := 2, used := [(0, 2)], body := fun d => d.berthPassport (q.get 0 2) }

theorem exec_berthPassport (q : KReq) (s : State) : exec (.berthPassport q) s = s.run (·.kanex q (passportCmd q)) := rfl

/-- BERTH_PASSPORT of a port in PRESENT answers STATE_CONFLICT, whatever passport the port holds (R228). -/
theorem Die.kanex_passport_conflicts {d : Die} {q : KReq} (taken : d.takes q 0x0B08 false 2 [(0, 2)] = true) (real : q.get 0 2 < Config.ports)
    (st : (d.port (q.get 0 2)).st = .present) : (d.kanex q (passportCmd q)).answeredWith q.fn kStateConflict [] := by
  have body : (passportCmd q).body (d.accepted q 0x0B08) = .no (d.accepted q 0x0B08) kStateConflict := Die.berthPassport_of_present real st
  rw [Die.kanex_runs (c := passportCmd q) taken rfl]
  refine (congrArg (fun a => (kanexRun q.fn q.roffset a).answeredWith q.fn kStateConflict []) body).mpr ?_
  obtain ⟨done, resp⟩ := d.kanexEnd_accepted_mbx q 0x0B08 kStateConflict 0 []
  exact ⟨done, congrArg (Option.map fun r : KResp => (r.status, r.synth, r.payload)) resp⟩

/-- Refutes O5: the clause of BERTH_PASSPORT excepts ABSENT alone, but a port whose fault was cleared waits in PRESENT with the passport it
holds, and in PRESENT the command answers STATE_CONFLICT as R228 lists. -/
theorem not_ownerServiceTakes : ¬ Obligations.OwnerServiceTakes := by
  intro h
  obtain ⟨-, -, passport, -⟩ := h { die := Die.clearedBerth } passportRequest
  obtain ⟨present, read⟩ := Die.clearedBerth_port
  rw [passportRequest_port] at passport
  obtain ⟨t, ran, -, ⟨-, ok⟩, -⟩ := passport Die.clearedBerth_takes (by decide) (by rw [present]; decide) _ read
  rw [exec_berthPassport, State.run_awake { die := Die.clearedBerth } _ (Die.awake_of_takes Die.clearedBerth_takes)] at ran
  injection ran with ran
  subst ran
  obtain ⟨-, conflict⟩ := Die.kanex_passport_conflicts Die.clearedBerth_takes (by decide) present
  exact absurd (congrArg (Option.map Prod.fst) (ok.symm.trans conflict)) (by decide)

end Sys2Proof.Machine

/-! SUPPORT. Tenants: what the tables of the die read after reset, and what a manager's word of a tenant's record makes of a worker's own
copy of it (R293). -/

namespace Sys2Proof.Machine

/-! ## The tables after reset -/

@[simp] theorem State.reset_fn (n : Nat) : State.reset.die.fn n = {} := rfl

@[simp] theorem State.reset_slot (k : Nat) : State.reset.die.slot k = {} := rfl

theorem State.reset_tenant (n : Nat) : State.reset.die.tenant n = if n = 0 then Tenant.owner else {} := rfl

@[simp] theorem State.reset_ownerAlive : State.reset.die.ownerAlive = true := rfl

/-- Settles O56: every table but the tenants' is empty after reset, so each entry reads its default; the tenants' lists the owner alone. -/
theorem resetMeetsTheInvariants : Obligations.ResetMeetsTheInvariants := by
  have areas (n : Nat) : (State.reset.die.fn n).mbx.req = [] := by rw [State.reset_fn]
  refine ⟨State.reset_ownerAlive, rfl, rfl, fun n => ⟨?_, ?_, ?_, fun a => ?_⟩, fun k => ?_, fun n other => ?_⟩
  · rw [areas]; rfl
  · rw [State.reset_fn]
  · rw [State.reset_fn]
  · rw [areas]; rfl
  · rw [State.reset_slot]
  · rw [State.reset_tenant, if_neg other]

/-! ## A tenant's record told to a worker -/

/-- On a worker a tenant exists after QUAY_MGMT brings its record exactly when the message says so, whichever tenant it is (R293). -/
theorem Die.quayMgmt_tenant_alive {d : Die} (worker : d.life.manager = false) (q n : Nat) (alive : Bool) (rec : List Byte) :
    ((d.quayMgmt q (.tenant n alive rec)).tenant n).alive = alive := by
  have copied : d.quayMgmt q (.tenant n alive rec)
      = d.updTenant n (fun t => { (t.withRecord (recordReq rec) 0 0xFFFFFFFF n) with alive := alive }) := if_neg (by simp [worker])
  rw [copied, Die.tenant_updTenant, if_pos rfl]

/-- The step of an awake die that finds such a message in front of its queue. -/
theorem step_quayMgmt {d : Die} (awake : d.awake = true) (q : Nat) (m : QuayMgmtMsg) (r : List Instr) :
    step { die := d, pending := .quayMgmt q m :: r } = .next { die := d.quayMgmt q m, pending := r } :=
  State.run_awake { die := d, pending := r } (·.quayMgmt q m) awake

/-- The die after reset as the worker at position 15, which hears a manager. -/
def Die.workerAfterReset : Die :=
  { State.reset.die with life := { State.reset.die.life with manager := false, quayId := 15 }, ql := { State.reset.die.ql with upstream := true } }

/-- The word that tells a worker tenant 0's record with the tenant deleted. -/
def ownerDeletedWord : QuayMgmtMsg := .tenant 0 false (State.reset.die.tenantRecord 0)

/-- Refutes O57: a worker takes the existence of every tenant from the QUAY_MGMT message that tells it the record, tenant 0's too. No manager
whose own tenant 0 exists sends the message of the counterexample, but the statement leaves open what a message says, and Instr.wf asks only
for its position. -/
theorem not_ownerIsNeverDeleted : ¬ Obligations.OwnerIsNeverDeleted := by
  intro h
  have kept := h { die := Die.workerAfterReset, pending := [.quayMgmt 15 ownerDeletedWord] } _ rfl (step_quayMgmt rfl 15 ownerDeletedWord [])
  have deleted : (Die.workerAfterReset.quayMgmt 15 ownerDeletedWord).ownerAlive = false := Die.quayMgmt_tenant_alive rfl 15 0 false _
  exact Bool.false_ne_true (deleted.symm.trans kept)

end Sys2Proof.Machine

/-! SUPPORT. The DRAM channels (file 11): what reads, writes, patrol, copies and a failure leave of the channels (R334 to R356). -/

namespace Sys2Proof

/-- A table reads its default where it lists no entry. -/
theorem Tbl.get_of_unlisted {α : Type} (d : α) (t : Tbl α) (k : Nat) (h : ∀ e ∈ t, e.1 ≠ k) : Tbl.get d t k = d := by
  induction t with
  | nil => rfl
  | cons e r ih =>
    obtain ⟨head, rest⟩ := List.forall_mem_cons.mp h
    rw [Tbl.get, if_neg (Ne.symm head), ih rest]

/-- An entry of a table after one was written is that one or was there before. -/
theorem Tbl.mem_set {α : Type} {t : Tbl α} {k : Nat} {v : α} {e : Nat × α} (h : e ∈ Tbl.set t k v) : e = (k, v) ∨ e ∈ t := by
  induction t with
  | nil => exact .inl (List.mem_singleton.mp h)
  | cons a r ih =>
    unfold Tbl.set at h
    split at h
    · exact (List.mem_cons.mp h).imp_right (List.mem_cons_of_mem _)
    · rcases List.mem_cons.mp h with rfl | rest
      · exact .inr List.mem_cons_self
      · exact (ih rest).imp_right (List.mem_cons_of_mem _)

end Sys2Proof

namespace Sys2Proof.Machine

/-! ## What an update of one channel leaves -/

/-- A channel of the DRAM controller, as Die.chan reads it. -/
abbrev Dc.chan (c : Dc) (i : Nat) : Chan := Tbl.get {} c.chans i

theorem Die.chan_eq (d : Die) (i : Nat) : d.chan i = d.dc.chan i := rfl

theorem Dc.chan_upd (c : Dc) (ch i : Nat) (f : Chan → Chan) : (c.upd ch f).chan i = if i = ch then f (c.chan ch) else c.chan i :=
  Tbl.get_upd _ _ _ _ _

@[simp] theorem Dc.chan_upd_self (c : Dc) (ch : Nat) (f : Chan → Chan) : (c.upd ch f).chan ch = f (c.chan ch) := Tbl.get_upd_self _ _ _ _

@[simp] theorem Die.chan_updChan_self (d : Die) (ch : Nat) (f : Chan → Chan) : (d.updChan ch f).chan ch = f (d.chan ch) := Tbl.get_upd_self _ _ _ _

@[simp] theorem Die.granules_updChan (d : Die) (ch : Nat) (f : Chan → Chan) : (d.updChan ch f).dc.granules = d.dc.granules := rfl

@[simp] theorem Die.record_dc (d : Die) (code sev inst : Nat) (p : List Byte) : (d.record code sev inst p).dc = d.dc := by
  rw [Die.record_only_lb]

/-! ## What reads and writes change of a channel (R339, R344 to R348) -/

/-- What reads leave of a channel: its state and capacities, and the lines that wait to be written. -/
def Chan.kept (x : Chan) : (ChState × Nat × Nat) × List (Nat × BitVec 8) × List (Nat × BitVec 8 × Nat) :=
  ((x.st, x.cap0, x.cap1), x.wq, x.merge)

/-- An activation changes the trackers and counters of the refresh (R348). -/
@[simp] theorem Chan.activated_kept (x : Chan) (ch : Nat) (proofing chosen : Bool) (line : Nat) :
    (x.activated ch proofing chosen line).kept = x.kept := by
  unfold Chan.activated; dsimp only
  repeat' split
  all_goals rfl

/-- A write changes the flips stored and uses an injection up (R339, R351). -/
@[simp] theorem Chan.injected_kept (x : Chan) (line : Nat) (mask : BitVec 8) : (x.injected line mask).kept = x.kept := by
  unfold Chan.injected; dsimp only
  repeat' split
  all_goals rfl

/-! ## Work on channels keeps what is fitted and placed -/

/-- State and capacities of a channel. -/
def Chan.fitting (x : Chan) : ChState × Nat × Nat := x.kept.1

theorem Chan.granules_of_fitting {x y : Chan} (h : x.fitting = y.fitting) : x.granules = y.granules :=
  congrArg (fun f : ChState × Nat × Nat => (f.2.1 + f.2.2) * 4) h

/-- From c to e work was done on the channels of P: the granules lie where they lay, each channel keeps its state and capacities, and a
channel outside P is as it was. -/
structure Dc.WorksOn (P : Nat → Prop) (c e : Dc) : Prop where
  granules : e.granules = c.granules
  fitting : ∀ i, (e.chan i).fitting = (c.chan i).fitting
  others : ∀ i, ¬ P i → e.chan i = c.chan i

namespace Dc.WorksOn

variable {P Q : Nat → Prop} {c e f : Dc}

theorem refl (P : Nat → Prop) (c : Dc) : c.WorksOn P c := ⟨rfl, fun _ => rfl, fun _ _ => rfl⟩

theorem of_eq (h : e = c) : c.WorksOn P e := h ▸ refl P c

theorem trans (h : c.WorksOn P e) (k : e.WorksOn P f) : c.WorksOn P f :=
  ⟨k.granules.trans h.granules, fun i => (k.fitting i).trans (h.fitting i), fun i out => (k.others i out).trans (h.others i out)⟩

theorem mono (h : c.WorksOn P e) (sub : ∀ i, P i → Q i) : c.WorksOn Q e :=
  ⟨h.granules, h.fitting, fun i out => h.others i fun p => out (sub i p)⟩

/-- One channel changed but for its state and capacities. -/
theorem upd (c : Dc) (ch : Nat) (g : Chan → Chan) (keeps : ∀ x, (g x).fitting = x.fitting := by exact fun _ => rfl) :
    c.WorksOn (· = ch) (c.upd ch g) := by
  refine ⟨rfl, fun i => ?_, fun i out => (c.chan_upd ch i g).trans (if_neg out)⟩
  rw [Dc.chan_upd]; split
  · subst i; exact keeps _
  · rfl

/-- Work done in steps, each of which may count on the granules lying where they lay. -/
theorem foldl {α : Type} (g : Dc → α → Dc) (step : ∀ (e : Dc) a, e.granules = c.granules → e.WorksOn P (g e a))
    (l : List α) : c.WorksOn P (l.foldl g c) :=
  foldl_keeps (c.WorksOn P ·) g (fun e a h => h.trans (step e a h.granules)) l c (refl P c)

end Dc.WorksOn

/-! ## The operations of a channel (R344 to R347) -/

theorem Dc.serveRead_worksOn (c : Dc) (now ch : Nat) : c.WorksOn (· = ch) (c.serveRead now ch) := by
  unfold Dc.serveRead; split
  · exact .refl _ c
  · refine .upd c ch _ fun x => ?_
    dsimp only; split
    · rfl
    · exact congrArg Prod.fst (Chan.activated_kept _ _ _ _ _)

theorem Dc.serveReads_worksOn (now ch n : Nat) : ∀ c : Dc, c.WorksOn (· = ch) (c.serveReads now ch n) := by
  induction n with
  | zero => exact fun c => .refl _ c
  | succ n ih => exact fun c => (c.serveRead_worksOn now ch).trans (ih _)

/-- A channel whose oldest lines have left its write queue. -/
def Chan.drained (x : Chan) (n : Nat) : Chan := { x with wq := x.wq.drop n }

theorem Chan.drained_kept_congr {x y : Chan} (h : x.kept = y.kept) (n : Nat) : (x.drained n).kept = (y.drained n).kept := by
  injection h with fits rest
  injection rest with wq merge
  change (x.fitting, x.wq.drop n, x.merge) = (y.fitting, y.wq.drop n, y.merge)
  rw [show x.fitting = y.fitting from fits, wq, merge]

theorem Chan.drained_drained (x : Chan) (n m : Nat) : (x.drained n).drained m = x.drained (n + m) := by
  simp [Chan.drained, List.drop_drop]

/-- A line written out leaves the head of the queue. -/
theorem Dc.chan_writeOut (c : Dc) (now ch : Nat) (w : Nat × BitVec 8) : ((c.writeOut now ch w).chan ch).kept = ((c.chan ch).drained 1).kept := by
  have same := (Chan.activated_kept ((c.chan ch).injected w.1 w.2) ch (c.inProofing ch w.1) (Config.rowChosen now w.1) w.1).trans
    ((c.chan ch).injected_kept _ _)
  unfold Dc.writeOut
  rw [Dc.chan_upd_self]
  exact Chan.drained_kept_congr same 1

theorem Dc.writeOut_worksOn (c : Dc) (now ch : Nat) (w : Nat × BitVec 8) : c.WorksOn (· = ch) (c.writeOut now ch w) :=
  .upd c ch _ fun x => by
    have same := (Chan.activated_kept (x.injected w.1 w.2) ch (c.inProofing ch w.1) (Config.rowChosen now w.1) w.1).trans (x.injected_kept _ _)
    have fits := congrArg Prod.fst same
    exact fits

theorem Dc.drainTo_worksOn (c : Dc) (now ch keep : Nat) : c.WorksOn (· = ch) (c.drainTo now ch keep) :=
  (Dc.WorksOn.foldl _ (fun e l _ => e.writeOut_worksOn now ch l) _).trans (Dc.serveReads_worksOn now ch _ _)

theorem Dc.queueLine_worksOn (c : Dc) (now ch line : Nat) (mask : BitVec 8) : c.WorksOn (· = ch) (c.queueLine now ch line mask) := by
  unfold Dc.queueLine; dsimp only
  refine Dc.WorksOn.trans ?_ (.upd _ ch _)
  split
  · exact c.drainTo_worksOn now ch 16
  · exact .refl _ c

/-- The words of a line that the merge buffer holds; one that is not there is written whole. -/
def Dc.mergeMask (c : Dc) (ch line : Nat) : BitVec 8 :=
  match (c.chan ch).merge.find? (fun m => m.1 == line) with | some m => m.2.1 | none => 0xFF

/-- The read that completes a line of which some words are missing (R347). -/
def Dc.completed (c : Dc) (now ch line : Nat) (mask : BitVec 8) : Dc :=
  if mask = 0xFF then c else c.upd ch (fun x => x.activated ch (c.inProofing ch line) (Config.rowChosen now line) line)

theorem Dc.mergeOut_eq (c : Dc) (now ch line : Nat) :
    c.mergeOut now ch line = (c.completed now ch line (c.mergeMask ch line)).queueLine now ch line (c.mergeMask ch line) := rfl

theorem Dc.completed_worksOn (c : Dc) (now ch line : Nat) (mask : BitVec 8) : c.WorksOn (· = ch) (c.completed now ch line mask) := by
  unfold Dc.completed; split
  · exact .refl _ c
  · exact .upd c ch _ fun _ => congrArg Prod.fst (Chan.activated_kept _ _ _ _ _)

theorem Dc.chan_completed_kept (c : Dc) (now ch line : Nat) (mask : BitVec 8) : ((c.completed now ch line mask).chan ch).kept = (c.chan ch).kept := by
  unfold Dc.completed; split
  · rfl
  · rw [Dc.chan_upd_self, Chan.activated_kept]

theorem Dc.mergeOut_worksOn (c : Dc) (now ch line : Nat) : c.WorksOn (· = ch) (c.mergeOut now ch line) :=
  (c.completed_worksOn now ch line _).trans (Dc.queueLine_worksOn _ now ch line _)

theorem Dc.empty_worksOn (c : Dc) (now ch : Nat) : c.WorksOn (· = ch) (c.empty now ch) :=
  (Dc.WorksOn.foldl _ (fun e m _ => e.mergeOut_worksOn now ch m.1) _).trans (Dc.drainTo_worksOn _ now ch 0)

/-- The line of a byte lies where a granule does (R337). -/
theorem Dc.placed_of_lineOf {c : Dc} {r byte : Nat} {p : Nat × Nat} (h : c.lineOf r byte = some p) : ∃ e ∈ c.granules, e.2.1 = p.1 := by
  unfold Dc.lineOf at h
  dsimp only at h
  split at h
  · next e found =>
    injection h with h
    exact ⟨e, List.mem_of_find?_eq_some found, by rw [← h]⟩
  · cases h

/-- A narrow write works on a channel that holds a granule (R347). -/
theorem Dc.narrow_worksOn {P : Nat → Prop} {c : Dc} (placed : ∀ e ∈ c.granules, P e.2.1) (now r byte : Nat) : c.WorksOn P (c.narrow now r byte) := by
  unfold Dc.narrow; dsimp only; split
  · exact .refl P c
  · next p line =>
    obtain ⟨e, mem, onCh⟩ := Dc.placed_of_lineOf line
    refine Dc.WorksOn.mono (P := (· = p.1)) ?_ fun i h => by rw [h, ← onCh]; exact placed e mem
    split
    · split
      · exact (Dc.WorksOn.upd c p.1 _).trans (Dc.mergeOut_worksOn _ now p.1 p.2)
      · exact .upd c p.1 _
    · refine Dc.WorksOn.trans ?_ (.upd _ p.1 _)
      split
      · split
        · exact c.mergeOut_worksOn now p.1 _
        · exact .refl _ c
      · exact .refl _ c

/-! ## What drains and timeouts leave of the queues (R345, R347) -/

/-- Reads leave the queues of their channel. -/
theorem Dc.chan_serveRead_kept (c : Dc) (now ch : Nat) : ((c.serveRead now ch).chan ch).kept = (c.chan ch).kept := by
  unfold Dc.serveRead; split
  · rfl
  · rw [Dc.chan_upd_self]; dsimp only; split
    · rfl
    · exact Chan.activated_kept _ _ _ _ _

theorem Dc.chan_serveReads_kept (now ch n : Nat) : ∀ c : Dc, ((c.serveReads now ch n).chan ch).kept = (c.chan ch).kept := by
  induction n with
  | zero => exact fun _ => rfl
  | succ n ih => exact fun c => (ih _).trans (c.chan_serveRead_kept now ch)

/-- Lines written out one after another leave the head of the queue. -/
theorem Dc.chan_foldl_writeOut (now ch : Nat) (l : List (Nat × BitVec 8)) : ∀ c : Dc,
    ((l.foldl (fun y w => y.writeOut now ch w) c).chan ch).kept = ((c.chan ch).drained l.length).kept := by
  induction l with
  | nil => exact fun _ => rfl
  | cons w r ih =>
    intro c
    rw [List.foldl_cons, ih, Chan.drained_kept_congr (c.chan_writeOut now ch w), Chan.drained_drained, List.length_cons, Nat.add_comm]

/-- A drain takes the oldest lines off the queue until as many as it keeps are left (R345). -/
theorem Dc.chan_drainTo (c : Dc) (now ch keep : Nat) :
    ((c.drainTo now ch keep).chan ch).kept = ((c.chan ch).drained ((c.chan ch).wq.length - keep)).kept := by
  unfold Dc.drainTo; dsimp only
  rw [Dc.chan_serveReads_kept, Dc.chan_foldl_writeOut, List.length_take, Nat.min_eq_left (Nat.sub_le _ _)]

/-- All but the lines that follow the oldest leave a queue: the oldest one, if there is one. -/
theorem Chan.drained_to_rest (x : Chan) : x.drained (x.wq.length - (x.wq.length - 1)) = x.drained 1 := by
  unfold Chan.drained
  cases lines : x.wq with
  | nil => rfl
  | cons w r => rw [List.length_cons, Nat.add_sub_cancel, Nat.add_sub_cancel_left]

/-- The last read of a channel lies 1 µs back (R345). -/
def Chan.quiet (x : Chan) (now : Nat) : Bool := match x.readAt with | some a => decide (a + 1 ≤ now) | none => true

theorem Die.writeDrain_eq (d : Die) (ch : Nat) : d.writeDrain ch =
    if (d.chan ch).draining then { d with dc := d.dc.drainTo d.now ch 16 }
    else if (d.chan ch).rq.isEmpty && (d.chan ch).quiet d.now then { d with dc := d.dc.drainTo d.now ch ((d.chan ch).wq.length - 1) }
    else d := rfl

/-- DRAM_WRITE_DRAIN: from 48 lines on down to 16, below that one line (R345). -/
theorem Die.chan_writeDrain {d : Die} {ch : Nat} (due : (d.chan ch).draining = true ∨ (d.chan ch).rq = [] ∧ (d.chan ch).quiet d.now = true) :
    ((d.writeDrain ch).chan ch).kept = ((d.chan ch).drained (if 48 ≤ (d.chan ch).wq.length then (d.chan ch).wq.length - 16 else 1)).kept := by
  rw [Die.writeDrain_eq]
  by_cases full : 48 ≤ (d.chan ch).wq.length
  · rw [if_pos (by simp [Chan.draining, full]), if_pos full]
    exact d.dc.chan_drainTo d.now ch 16
  · have slow : ¬ (d.chan ch).draining = true := by simp [Chan.draining, full]
    obtain ⟨unread, quiet⟩ := due.resolve_left slow
    rw [if_neg slow, if_pos (by simp [unread, quiet]), if_neg full, ← Chan.drained_to_rest]
    exact d.dc.chan_drainTo d.now ch _

/-- A line that enters a queue with room for it leaves the merge buffer (R345, R347). -/
theorem Dc.chan_queueLine {c : Dc} {ch : Nat} (room : (c.chan ch).wq.length < 64) (now line : Nat) (mask : BitVec 8) :
    ((c.queueLine now ch line mask).chan ch).wq = (c.chan ch).wq ++ [(line, mask)]
      ∧ ((c.queueLine now ch line mask).chan ch).merge = (c.chan ch).merge.filter (fun m => m.1 != line) := by
  unfold Dc.queueLine
  rw [if_neg (Nat.not_le.mpr room)]
  simp

/-- MERGE_BUFFER_TIMEOUT: the line is queued with the words that the buffer held of it (R347). -/
theorem Die.chan_mergeTimeout {d : Die} {ch line a : Nat} {m : BitVec 8} (held : (d.chan ch).merge.find? (fun y => y.1 == line) = some (line, m, a))
    (old : a + 2 ≤ d.now) (room : (d.chan ch).wq.length < 64) :
    ((d.mergeTimeout ch line).chan ch).wq = (d.chan ch).wq ++ [(line, m)] ∧ ((d.mergeTimeout ch line).chan ch).merge.any (fun m => m.1 == line) = false := by
  have due : (d.chan ch).merge.any (fun m => m.1 == line && decide (m.2.2 + 2 ≤ d.now)) = true :=
    List.any_eq_true.mpr ⟨_, List.mem_of_find?_eq_some held, by simp [old]⟩
  have words : d.dc.mergeMask ch line = m := by
    unfold Dc.mergeMask
    rw [← Die.chan_eq, held]
  have read := d.dc.chan_completed_kept d.now ch line m
  injection read with _ queues
  injection queues with wq merge
  unfold Die.mergeTimeout
  rw [if_pos due, Die.chan_eq, Dc.mergeOut_eq, words]
  obtain ⟨queued, left⟩ := Dc.chan_queueLine (c := d.dc.completed d.now ch line m) (by rw [wq]; exact room) d.now line m
  dsimp only
  rw [queued, left, wq]
  exact ⟨rfl, by simp⟩

/-! ## What becomes of a code word that was read (R340 to R342, R349) -/

/-- A corrected word is counted on its channel, and its time noted for its DIMM (R349). -/
theorem Die.correctedWord_dc (d : Die) (ch line : Nat) : ∃ times : Chan → Tbl (List Nat), (d.correctedWord ch line).dc
    = d.dc.upd ch (fun y => { y with ce := satInc 0xFFFFFFFF y.ce, ceTimes := times y }) := by
  unfold Die.correctedWord
  extract_lets x dimm ts e
  refine ⟨fun y => Tbl.set y.ceTimes dimm (if 1000 < ts.length then [] else ts), ?_⟩
  have same (b : Prop) [Decidable b] (r : Die) (h : r.dc = e.dc) : (if b then r else e).dc = e.dc := by split <;> simp [h]
  exact same _ _ (Die.record_dc _ _ _ _ _)

/-- A word that is neither poisoned nor stored with flips is what the read found of it (R340). -/
theorem Die.foundWord_plain {d : Die} {ch line word : Nat} (unmarked : (d.chan ch).marked (line * 8 + word) = false)
    (unflipped : ∀ f ∈ (d.chan ch).flips, f.1 ≠ line * 8 + word) :
    d.foundWord ch line word .clean = d ∧ d.foundWord ch line word .corrected
      = (d.updChan ch (fun y => { y with flips := Tbl.del y.flips (line * 8 + word) })).correctedWord ch line := by
  have plain : Tbl.get none ((d.chan ch).flips.map (fun e => (e.1, some e.2))) (line * 8 + word) = none :=
    Tbl.get_of_unlisted _ _ _ fun e mem => by
      obtain ⟨f, flip, rfl⟩ := List.mem_map.mp mem
      exact unflipped f flip
  unfold Die.foundWord
  dsimp only
  rw [if_neg (by simp [unmarked]), if_neg (by simp [unmarked]), plain]
  exact ⟨rfl, rfl⟩

/-- The end of a patrol pass is noted with its last word (R349). -/
def Die.passNoted (d : Die) (ch line word : Nat) : Die :=
  if line + 1 = (d.chan ch).lines ∧ word = 7 then d.updChan ch (fun y => { y with patrolAt := d.now }) else d

theorem Die.passNoted_chan (d : Die) (ch line word : Nat) :
    ∃ t, (d.passNoted ch line word).chan ch = { d.chan ch with patrolAt := t } := by
  unfold Die.passNoted; split
  · exact ⟨d.now, d.chan_updChan_self ch _⟩
  · exact ⟨(d.chan ch).patrolAt, rfl⟩

@[simp] theorem Die.passNoted_granules (d : Die) (ch line word : Nat) : (d.passNoted ch line word).dc.granules = d.dc.granules := by
  unfold Die.passNoted; split <;> rfl

/-- The place of a word in its region is the granules' affair alone (R337). -/
theorem Dc.byteAt_congr {c e : Dc} (h : e.granules = c.granules) (ch line word : Nat) : e.byteAt ch line word = c.byteAt ch line word := by
  unfold Dc.byteAt Dc.stripeWidth Dc.placed
  rw [h]

/-- DRAM_PATROL of a word that a granule uses (R349). -/
theorem Die.dramPatrol_used {d : Die} {ch line word : Nat} (active : (d.chan ch).st = .active) (inside : line < (d.chan ch).lines) (real : word < 8)
    (unread : (d.chan ch).rq = []) (used : (d.dc.byteAt ch line word).isSome = true) (o : DramOutcome) :
    d.dramPatrol ch line word o = (d.passNoted ch line word).foundWord ch line word o := by
  have used' : ¬ ((d.passNoted ch line word).dc.byteAt ch line word).isNone = true := by
    rw [Dc.byteAt_congr (d.passNoted_granules ch line word)]
    simpa [Option.isSome_iff_ne_none] using used
  unfold Die.dramPatrol
  exact (if_pos ⟨active, inside, real, unread⟩).trans (if_neg used')

/-! ## Lost words (R341, R342) -/

@[simp] theorem Die.post_dc (d : Die) (n : Nat) (e : Aen) : (d.post n e).dc = d.dc := by rw [Die.post_only]

/-- The DRAM controller is no part of an answer. -/
theorem Die.sameButAnswer_dc {t d : Die} (h : t.sameButAnswer d) : t.dc = d.dc := by rw [← h]

@[simp] theorem Die.quayMgmtSend_dc (d : Die) (p : Nat) (m : QuayMgmtMsg) : (d.quayMgmtSend p m).dc = d.dc :=
  Die.sameButAnswer_dc (d.quayMgmtSend_sameButAnswer p m)

@[simp] theorem Die.smartEvent_dc (d : Die) (info i : Nat) : (d.smartEvent info i).dc = d.dc :=
  Die.smartEvent_keeps (·.dc) (fun _ _ _ => Die.post_dc _ _ _) (fun _ _ _ => Die.quayMgmtSend_dc _ _ _) d info i

@[simp] theorem Die.regionLoss_dc (d : Die) (sev ch line region : Nat) : (d.regionLoss sev ch line region).dc = d.dc := Die.record_dc _ _ _ _ _

@[simp] theorem Die.markLoaf_dc (d : Die) (nsid l : Nat) (bad : BitVec 16) : (d.markLoaf nsid l bad).dc = d.dc := by
  unfold Die.markLoaf; dsimp only
  split
  · rfl
  · split
    · rfl
    · simp [Die.poisonWhole]

section
variable {P : Nat → Prop} {d : Die}

/-- A record's update writes through to the granules of the map and the crumb table (R161, R347). -/
theorem Die.journalWith_worksOn (placed : ∀ e ∈ d.dc.granules, P e.2.1) (r : JWhat) (undo : List Undo) (loafs : List Nat) :
    d.dc.WorksOn P (d.journalWith r undo loafs).dc := by
  have narrow (now reg : Nat) (e : Dc) (byte : Nat) (h : e.granules = d.dc.granules) : e.WorksOn P (e.narrow now reg byte) :=
    Dc.narrow_worksOn (by rw [h]; exact placed) now reg byte
  have entries := Dc.WorksOn.foldl (c := d.dc) (P := P)
    (fun (dc : Dc) (e : Nat × Nat) => dc.narrow d.now 0 (Config.mapPage e.1 (e.2 / 512) * 4096 + e.2 % 512 * 8))
    (fun e _ h => narrow _ _ e _ h) (undo.flatMap fun u => (d.undoLines u).1)
  exact entries.trans (.foldl _ (fun e _ h => narrow _ _ e _ (h.trans entries.granules)) _)

theorem Die.poisonHere_worksOn (placed : ∀ e ∈ d.dc.granules, P e.2.1) (nsid x : Nat) : d.dc.WorksOn P (d.poisonHere nsid x).dc := by
  unfold Die.poisonHere Die.poison
  extract_lets n was crumb whole e j r
  have marked : e.dc = d.dc := by
    unfold e; split
    · rfl
    · exact Die.markLoaf_dc _ _ _ _
  have written : d.dc.WorksOn P j.dc := by
    have placed' : ∀ g ∈ e.dc.granules, P g.2.1 := by rw [marked]; exact placed
    exact (Dc.WorksOn.of_eq marked).trans (Die.journalWith_worksOn placed' _ _ _)
  have counted : (if whole = true then r else { r with rc := { r.rc with integrityErrs := r.rc.integrityErrs + 1 } }).dc = j.dc := by
    split <;> exact Die.record_dc _ _ _ _ _
  rw [Die.smartEvent_dc, counted]
  exact written

theorem Die.loseProof_worksOn (placed : ∀ e ∈ d.dc.granules, P e.2.1) (a : Nat) : d.dc.WorksOn P (d.loseProof a).dc := by
  unfold Die.loseProof; split
  · exact .refl P d.dc
  · refine foldl_keeps (fun x : Die => d.dc.WorksOn P x.dc) _ (fun x o h => ?_) _ d (.refl P d.dc)
    split
    · exact h
    · exact h.trans (Die.poisonHere_worksOn (by rw [h.granules]; exact placed) _ _)

theorem Die.foldl_loseProof_worksOn {α : Type} (placed : ∀ e ∈ d.dc.granules, P e.2.1) (f : α → Nat) (l : List α) :
    d.dc.WorksOn P (l.foldl (fun x a => x.loseProof (f a)) d).dc :=
  foldl_keeps (fun x : Die => d.dc.WorksOn P x.dc) _
    (fun _ _ h => h.trans (Die.loseProof_worksOn (by rw [h.granules]; exact placed) _)) l d (.refl P d.dc)

theorem Die.lostWord_worksOn (placed : ∀ e ∈ d.dc.granules, P e.2.1) (ch line word : Nat) : d.dc.WorksOn P (d.lostWord ch line word).dc := by
  unfold Die.lostWord; split
  · exact .refl P d.dc
  · split
    · rw [Die.regionLoss_dc]
      exact Die.foldl_loseProof_worksOn placed id _
    · exact .of_eq (Die.regionLoss_dc _ _ _ _ _)

end

/-- A word found leaves every granule where it lies and every channel's state and capacities. -/
theorem Die.foundWord_worksOn (d : Die) (ch line word : Nat) (o : DramOutcome) : d.dc.WorksOn (fun _ => True) (d.foundWord ch line word o).dc := by
  have noted (f : Chan → Chan) (keeps : ∀ x, (f x).fitting = x.fitting := by exact fun _ => rfl) : d.dc.WorksOn (fun _ => True) (d.updChan ch f).dc :=
    (Dc.WorksOn.upd d.dc ch f keeps).mono fun _ _ => trivial
  have lost (e : Die) : e.dc.WorksOn (fun _ => True) (e.lostWord ch line word).dc := Die.lostWord_worksOn (fun _ _ => trivial) ch line word
  have uncorrectable (addr : Bool) : d.dc.WorksOn (fun _ => True) (d.uncorrectable ch line word addr).dc :=
    (noted _).trans (lost _)
  unfold Die.foundWord
  extract_lets x w
  split
  · exact lost d
  · split
    · exact .refl _ d.dc
    · obtain ⟨times, counted⟩ := (d.updChan ch (fun y => { y with flips := Tbl.del y.flips w })).correctedWord_dc ch line
      rw [counted]
      exact (noted _).trans ((Dc.WorksOn.upd _ ch _).mono fun _ _ => trivial)
    · exact uncorrectable true
    · exact uncorrectable false
    · exact lost d

/-! ## A granule switched to another channel (R353, R355) -/

theorem Dc.freeSlot_congr {c e : Dc} {i : Nat} (granules : e.granules = c.granules) (fitting : (e.chan i).fitting = (c.chan i).fitting) :
    e.freeSlot i = c.freeSlot i := by
  unfold Dc.freeSlot
  rw [granules, Chan.granules_of_fitting fitting]

/-- A granule's copy done with every word of it read: its entry names the free slot of its new channel, and no channel's state or capacity
changes. -/
theorem Die.granuleTo_dc {d : Die} {dst h : Nat} (free : d.dc.freeSlot dst = some h) (g ch slot : Nat) :
    (d.granuleTo g ch slot dst []).dc.granules = Tbl.set d.dc.granules g (dst, h)
      ∧ ∀ i, ((d.granuleTo g ch slot dst []).chan i).fitting = (d.chan i).fitting := by
  unfold Die.granuleTo
  extract_lets found bad lost moved
  have work : d.dc.WorksOn (fun _ => True) moved.dc :=
    (foldl_keeps (fun x : Die => d.dc.WorksOn (fun _ => True) x.dc) _ (fun x e h => h.trans (x.foundWord_worksOn ch _ _ _)) _ d (.refl _ _)).trans
      ((Dc.WorksOn.upd _ ch _).mono fun _ _ => trivial)
  rw [Dc.freeSlot_congr work.granules (work.fitting dst), free]
  dsimp only
  refine ⟨by rw [Die.granules_updChan, work.granules], fun i => ?_⟩
  refine ((Dc.WorksOn.upd { moved.dc with granules := _ } dst _ fun x => ?_).fitting i).trans (work.fitting i)
  split
  · split
    · exact congrArg Prod.fst (x.injected_kept _ _)
    · rfl
  · rfl

theorem Die.kanexEndOf_sameButAnswer (d : Die) (n op st detail : Nat) (payload : List Byte) :
    (d.kanexEndOf n op st detail payload).sameButAnswer d := by
  unfold Die.kanexEndOf; split
  · exact d.kanexEnd_sameButAnswer _ _ _ _
  · exact d.sameButAnswer_refl

theorem Die.kanexProgress_sameButAnswer (d : Die) (n k : Nat) : (d.kanexProgress n k).sameButAnswer d := by
  unfold Die.kanexProgress; extract_lets old e due; split
  · exact Die.sameButAnswer_trans (Die.mbxEvent_sameButAnswer _ n 1 _)
      (Die.sameButAnswer_trans (e.updMbx_sameButAnswer n _) (d.updMbx_sameButAnswer n _))
  · exact d.updMbx_sameButAnswer n _

@[simp] theorem Die.kanexEndOf_dc (d : Die) (n op st detail : Nat) (payload : List Byte) : (d.kanexEndOf n op st detail payload).dc = d.dc :=
  Die.sameButAnswer_dc (d.kanexEndOf_sameButAnswer n op st detail payload)

@[simp] theorem Die.kanexProgress_dc (d : Die) (n k : Nat) : (d.kanexProgress n k).dc = d.dc :=
  Die.sameButAnswer_dc (d.kanexProgress_sameButAnswer n k)

/-- A channel switched off leaves the granules and the other channels' states as they are (R353). -/
theorem Die.vacated_dc (d : Die) (ch : Nat) : (d.vacated ch).dc.granules = d.dc.granules
    ∧ ∀ i, i ≠ ch → ((d.vacated ch).chan i).fitting = (d.chan i).fitting := by
  have work := d.dc.empty_worksOn d.now ch
  unfold Die.vacated
  extract_lets e f life g
  have off : g.dc = f.dc := Die.record_dc _ _ _ _ _
  simp only [Die.chan_eq, Die.kanexEndOf_dc, off]
  refine ⟨work.granules, fun i other => ?_⟩
  exact (congrArg Chan.fitting ((e.chan_updChan ch i _).trans (if_neg other))).trans (work.fitting i)

/-- GRANULE_COPY_DONE of a vacating channel with every word read (R353). -/
theorem Die.granuleCopied_dc {d : Die} {g ch slot dst h : Nat} (entry : d.dc.granules.find? (fun e => e.1 == g) = some (g, ch, slot))
    (vacating : (d.chan ch).st = .vacating) (roomiest : d.dc.roomiest = some dst) (other : dst ≠ ch) (free : d.dc.freeSlot dst = some h) :
    (d.granuleCopied g []).dc.granules = Tbl.set d.dc.granules g (dst, h) ∧ ((d.granuleCopied g []).chan dst).fitting = (d.chan dst).fitting := by
  obtain ⟨granules, fitting⟩ := Die.granuleTo_dc free g ch slot
  unfold Die.granuleCopied
  rw [entry]
  dsimp only
  rw [if_pos vacating, roomiest]
  dsimp only
  split
  · obtain ⟨kept, off⟩ := ((d.granuleTo g ch slot dst []).kanexProgress 0 ((d.fn 0).mbx.progress + 1)).vacated_dc ch
    rw [kept, off dst other, Die.kanexProgress_dc, Die.chan_eq, Die.kanexProgress_dc]
    exact ⟨granules, fitting dst⟩
  · rw [Die.chan_eq, Die.kanexProgress_dc]
    exact ⟨granules, fitting dst⟩

/-! ## A channel that fails (R356) -/

/-- A channel is FAILED with nothing queued, and no granule lies on it. -/
structure Dc.Gone (c : Dc) (ch : Nat) : Prop where
  failed : (c.chan ch).st = .failed
  unqueued : (c.chan ch).wq = []
  unmerged : (c.chan ch).merge = []
  unplaced : ∀ e ∈ c.granules, e.2.1 ≠ ch

/-- The channel that takes a granule is ACTIVE (R353). -/
theorem Dc.roomiest_active {c : Dc} {ch : Nat} (h : c.roomiest = some ch) : (c.chan ch).st = .active := by
  refine List.foldlRecOn (motive := fun a : Option Nat => ∀ x, a = some x → (c.chan x).st = .active) _ _ ?_ ?_ ch h
  · exact fun _ none => nomatch none
  · intro a before x mem y found
    have active : (c.chan x).st = .active := by simpa using (Bool.and_eq_true_iff.mp (List.mem_filter.mp mem).2).1
    split at found
    · injection found with same
      exact same ▸ active
    · split at found
      · injection found with same
        exact same ▸ active
      · exact before y found

@[simp] theorem Dc.place_chans (c : Dc) (g ch : Nat) : (c.place g ch).chans = c.chans := by
  unfold Dc.place; split <;> rfl

theorem Dc.Gone.place {c : Dc} {ch dst : Nat} (gone : c.Gone ch) (other : dst ≠ ch) (g : Nat) : (c.place g dst).Gone ch := by
  unfold Dc.place; split
  · refine ⟨gone.failed, gone.unqueued, gone.unmerged, fun e mem => ?_⟩
    rcases Tbl.mem_set mem with rfl | old
    · exact other
    · exact gone.unplaced e old
  · exact gone

/-- A granule placed on the roomiest channel, which is another one than the failed. -/
theorem Dc.Gone.place_roomiest {c : Dc} {ch dst : Nat} (gone : c.Gone ch) (roomiest : c.roomiest = some dst) (g : Nat) : (c.place g dst).Gone ch := by
  refine gone.place (fun same => ?_) g
  have active := Dc.roomiest_active roomiest
  rw [same, gone.failed] at active
  cases active

theorem Dc.Gone.worksOn {c e : Dc} {ch : Nat} (gone : c.Gone ch) (work : c.WorksOn (· ≠ ch) e) : e.Gone ch := by
  have same := work.others ch fun other => other rfl
  exact ⟨by rw [same, gone.failed], by rw [same, gone.unqueued], by rw [same, gone.unmerged], by rw [work.granules]; exact gone.unplaced⟩

@[simp] theorem Die.ladderTake_dc (d : Die) (level inst sub step : Nat) (spare : Bool) : (d.ladderTake level inst sub step spare).dc = d.dc :=
  Die.record_dc _ _ _ _ _

/-- CHANNEL_FAILURE of an active channel (R356). -/
theorem Die.channelFailed_gone {d : Die} {ch : Nat} (active : (d.chan ch).st = .active) : (d.channelFailed ch).dc.Gone ch := by
  unfold Die.channelFailed
  rw [if_pos (.inl active)]
  extract_lets taken failed noted mine lost dc cleared placed proofLost reclaimLost mapLost te held
  have same : noted.dc = failed.dc := failed.record_dc _ _ _ _
  have off : cleared.dc.chan ch = _ := (congrArg (Dc.chan · ch) same).trans (taken.chan_updChan_self ch _)
  have h : cleared.dc.Gone ch :=
    ⟨by rw [off], by rw [off], by rw [off], fun e mem => by simpa using (List.mem_filter.mp mem).2⟩
  have h : placed.dc.Gone ch := by
    refine foldl_keeps (Dc.Gone · ch) _ (fun c e gone => ?_) mine _ h
    split
    · exact gone.place_roomiest ‹_› e.1
    · exact gone
  have h : proofLost.dc.Gone ch := by
    unfold proofLost; split
    · exact h
    · rw [Die.regionLoss_dc]
      exact h.worksOn (Die.foldl_loseProof_worksOn h.unplaced _ _)
  have h : reclaimLost.dc.Gone ch := by
    unfold reclaimLost; split
    · rwa [Die.regionLoss_dc]
    · exact h
  have h : mapLost.dc.Gone ch := by
    unfold mapLost; split
    · rwa [Die.regionLoss_dc]
    · exact h
  have h : held.dc.Gone ch := by
    unfold held; split
    · exact h
    · rwa [Die.regionLoss_dc, Die.ladderTake_dc]
  split <;> rwa [Die.kanexEndOf_dc]

theorem Die.refreshWindow_chan (d : Die) (i : Nat) : d.refreshWindow.chan i = { d.chan i with acts := [] } :=
  Tbl.get_mapVals (fun _ (x : Chan) => ({ x with acts := [] } : Chan)) {} {} d.dc.chans i rfl

/-- Settles O40: a drain and a timeout read their queues back, patrol finds what it was told of a plain word, a copied granule's entry is
written where no work on a word has moved anything, and a channel that failed holds no granule through which later work could reach it. -/
theorem dramChannelsWork : Obligations.DramChannelsWork := by
  intro s c l w awake x
  refine ⟨fun due => ?_, fun m a held old room => ?_, fun active inside real unread used unmarked unflipped => ?_, ?_,
    fun g k d h entry vacating roomiest other free => ?_, fun active => ?_⟩
  · refine completes_of_run (f := (·.writeDrain c)) rfl awake ?_
    have queues := Die.chan_writeDrain (d := s.die) (ch := c) due
    injection queues with fits rest
    injection rest with wq merge
    exact ⟨wq, merge, congrArg Prod.fst fits⟩
  · exact completes_of_run (f := (·.mergeTimeout c l)) rfl awake (Die.chan_mergeTimeout held old room)
  · obtain ⟨t, patrolled⟩ := s.die.passNoted_chan c l w
    obtain ⟨clean, corrected⟩ := Die.foundWord_plain (d := s.die.passNoted c l w) (ch := c) (line := l) (word := w)
      (by rw [patrolled]; exact unmarked) (by rw [patrolled]; exact unflipped)
    refine ⟨completes_of_run (f := (·.dramPatrol c l w .clean)) rfl awake ?_, completes_of_run (f := (·.dramPatrol c l w .corrected)) rfl awake ?_⟩
    · rw [Die.dramPatrol_used active inside real unread used, clean]
      rfl
    · obtain ⟨times, counted⟩ := ((s.die.passNoted c l w).updChan c fun y => { y with flips := Tbl.del y.flips (l * 8 + w) }).correctedWord_dc c l
      rw [Die.dramPatrol_used active inside real unread used, corrected, Die.chan_eq, counted, Dc.chan_upd_self, ← Die.chan_eq,
        Die.chan_updChan_self, patrolled]
      exact ⟨rfl, rfl, rfl⟩
  · refine completes_of_run (f := (·.refreshWindow)) rfl awake fun i => ?_
    rw [Die.refreshWindow_chan]
    exact ⟨rfl, rfl⟩
  · obtain ⟨granules, fitting⟩ := Die.granuleCopied_dc entry vacating roomiest other free
    refine completes_of_run (f := (·.granuleCopied g [])) rfl awake ⟨?_, congrArg Prod.fst fitting⟩
    rw [granules, Tbl.get_set_self]
  · have gone := Die.channelFailed_gone active
    exact completes_of_run (f := (·.channelFailed c)) rfl awake ⟨gone.failed, gone.unqueued, gone.unmerged⟩

end Sys2Proof.Machine

/-! SUPPORT. The tray pools (R358 to R363): TRAY_ALLOC of a tray that its free list names again. -/

namespace Sys2Proof.Machine

/-- The head of a list taken off it and quarantined, with its record (R360, R363). -/
def Die.quarantined (d : Die) (size n : Nat) : Die :=
  let e := { d with tp := (d.tp.pop size n).setTray size n { st := .quarantined } }
  e.record 0x0A02 sevError noInst (le 3 (e.tp.selfOf size n) ++ le 1 (Config.openCode 0x0A02 0))

/-- The record of a quarantine goes to the logbook alone. -/
theorem Die.quarantined_only (d : Die) (size n : Nat) : d.quarantined size n
    = { d with tp := (d.tp.pop size n).setTray size n { st := .quarantined }, lb := (d.quarantined size n).lb } := by
  unfold Die.quarantined
  exact Die.record_only_lb _ _ _ _ _

theorem Die.takeTray_tray (d : Die) (unit inst size use n : Nat) (h : Option (Nat × BitVec 8)) :
    (d.takeTray unit inst size use n h).tp.tray size n = { st := .held, mask := holderBit unit, inst := inst, use := use, handle := h } :=
  Tbl.get_set_self _ _ _ _

/-- A head whose link word does not agree is quarantined, and the next head taken in its place where the reserves still allow it (R360). -/
theorem Die.trayAlloc_mismatch {d : Die} {unit inst bytes use link size n m : Nat} (fits : sizeFor bytes = some size) (real : 1 ≤ unit ∧ unit ≤ 14)
    (serves : d.tp.fenced.contains (unitKeyOf unit inst) = false) (may : d.mayTake size (d.tp.useOf use inst) inst = true)
    (head : d.trayHead size = some n) (differs : link ≠ d.linkWord size n)
    (again : (d.quarantined size n).mayTake size (d.tp.useOf use inst) inst = true) (next : (d.quarantined size n).trayHead size = some m) :
    d.trayAlloc unit inst bytes use link = (d.quarantined size n).takeTray unit inst size (d.tp.useOf use inst) m none := by
  have admitted : ¬ (unit = 0 ∨ 14 < unit ∨ d.tp.fenced.contains (unitKeyOf unit inst) = true
      ∨ d.mayTake size (d.tp.useOf use inst) inst = false) := by
    rw [serves, may]
    simp
    omega
  unfold Die.trayAlloc
  rw [fits]
  dsimp only
  rw [if_neg admitted, head]
  dsimp only
  rw [if_neg differs]
  refine (if_pos again).trans ?_
  exact congrArg (fun h : Option Nat => match h with
    | some m => (d.quarantined size n).takeTray unit inst size (d.tp.useOf use inst) m none
    | none => d.quarantined size n) next

/-- Tray 0 of 512 bytes given back twice. A tray comes to be listed twice when TRAY_FREE frees one that a write still has as its own and the write
is then abandoned: the trays of a command go back to their lists without a look at their holders. -/
def Die.twiceFreed : Die := (State.reset.die.trayBack 0 0).trayBack 0 0

theorem Die.twiceFreed_head : Die.twiceFreed.trayHead 0 = some 0 := rfl

theorem Die.twiceFreed_mayTake : Die.twiceFreed.mayTake 0 0 3 = true := by decide +kernel

theorem Die.twiceFreed_quarantined_head : (Die.twiceFreed.quarantined 0 0).trayHead 0 = some 0 := by
  rw [Die.quarantined_only]
  rfl

theorem Die.twiceFreed_quarantined_mayTake : (Die.twiceFreed.quarantined 0 0).mayTake 0 0 3 = true := by
  rw [Die.quarantined_only]
  have allowed : ({ Die.twiceFreed with tp := (Die.twiceFreed.tp.pop 0 0).setTray 0 0 { st := .quarantined } } : Die).mayTake 0 0 3 = true := by
    decide +kernel
  exact allowed

/-- The link word carries its mark, so 0 is none (R360). -/
theorem Die.linkWord_ne_zero (d : Die) (size n : Nat) : 0 ≠ d.linkWord size n := by
  have marked : 0 < 2 ^ 48 * 0x5A3C := by decide
  exact Nat.ne_of_lt (Nat.lt_of_lt_of_le marked (Nat.le_add_left _ _))

/-- Refutes O41: where a free list names a tray twice, TRAY_ALLOC quarantines its head for a wrong link word and then takes the same tray, which
the list names next, so that it is
HELD. -/
theorem not_traysAreShared : ¬ Obligations.TraysAreShared := by
  intro h
  obtain ⟨-, quarantine, -⟩ := h { die := Die.twiceFreed } 1 3 0 0 rfl (by omega) (by omega) rfl
  obtain ⟨t, ran, -, quarantined⟩ := quarantine 1 0 0 rfl Die.twiceFreed_mayTake Die.twiceFreed_head (Die.linkWord_ne_zero _ _ _)
  have relisted : Die.twiceFreed.trayAlloc 1 3 1 0 0 = (Die.twiceFreed.quarantined 0 0).takeTray 1 3 0 0 0 none :=
    Die.trayAlloc_mismatch rfl (by omega) rfl Die.twiceFreed_mayTake Die.twiceFreed_head (Die.linkWord_ne_zero _ _ _)
      Die.twiceFreed_quarantined_mayTake Die.twiceFreed_quarantined_head
  have taken : exec (.trayAlloc 1 3 1 0 0) { die := Die.twiceFreed } = .next { die := Die.twiceFreed.trayAlloc 1 3 1 0 0 } :=
    State.run_awake _ (·.trayAlloc 1 3 1 0 0) rfl
  rw [taken, relisted] at ran
  injection ran with ran
  subst ran
  rw [Die.takeTray_tray] at quarantined
  cases quarantined

end Sys2Proof.Machine

/-! SUPPORT. The DRAM commands of the mailbox (R338, R351, R353 to R355). -/

namespace Sys2Proof.Machine

/-! ## How a command's own part ends (R373, R375, R383) -/

theorem Die.accepted_mbx (d : Die) (q : KReq) (op : Nat) :
    ((d.accepted q op).fn q.fn).mbx = (d.fn q.fn).mbx.taken q op d.now (d.freeVal % 17) :=
  (d.mbx_updMbx q.fn q.fn (·.taken q op d.now (d.freeVal % 17))).trans (if_pos rfl)

@[simp] theorem Die.accepted_dc (d : Die) (q : KReq) (op : Nat) : (d.accepted q op).dc = d.dc := rfl

@[simp] theorem Die.accepted_chan (d : Die) (q : KReq) (op i : Nat) : (d.accepted q op).chan i = d.chan i := rfl

section
variable {d e : Die} {q : KReq} {c : KCmd} {total : Nat} {payload : List Byte}

/-- A command done as requested answers OK, and the answer changes nothing of what the command did. -/
theorem Die.kanex_of_ok (taken : d.takes q c.op c.acts c.need c.used = true) (good : c.bad (d.accepted q c.op) = none)
    (body : c.body (d.accepted q c.op) = .ok e payload) (funcs : e.funcs = (d.accepted q c.op).funcs) :
    (d.kanex q c).answered q.fn kOk ∧ (d.kanex q c).sameButAnswer e := by
  have mbx : (e.fn q.fn).mbx = _ := (congrArg (fun t => (Tbl.get {} t q.fn : Func).mbx) funcs).trans (d.accepted_mbx q c.op)
  have ran : d.kanex q c = e.respondFull q.fn kOk false false 0 0 payload := by
    rw [Die.kanex_runs taken good, body]
    exact if_pos (by rw [mbx]; rfl)
  rw [ran]
  obtain ⟨done, resp⟩ := e.respondFull_mbx q.fn kOk false false 0 0 payload
  exact ⟨⟨done, by rw [resp]; rfl⟩, e.respondFull_sameButAnswer _ _ _ _ _ _ _⟩

/-- A command that goes on leaves its mailbox RUNNING with the units of work it has. -/
theorem Die.kanex_of_go (taken : d.takes q c.op c.acts c.need c.used = true) (good : c.bad (d.accepted q c.op) = none)
    (body : c.body (d.accepted q c.op) = .go e total) (funcs : e.funcs = (d.accepted q c.op).funcs) :
    (d.kanex q c).stillRuns q.fn c.op ∧ ((d.kanex q c).fn q.fn).mbx.progTotal = total ∧ (d.kanex q c).sameButAnswer e := by
  have mbx : (e.fn q.fn).mbx = _ := (congrArg (fun t => (Tbl.get {} t q.fn : Func).mbx) funcs).trans (d.accepted_mbx q c.op)
  have ran : d.kanex q c = e.updMbx q.fn (fun m => { m with progTotal := total }) := by
    rw [Die.kanex_runs taken good, body]
    rfl
  rw [ran]
  refine ⟨?_, ?_, e.updMbx_sameButAnswer q.fn _⟩ <;> simp [Die.stillRuns, Die.mbx_updMbx, mbx, Mbx.taken]

end

section
variable {i : Instr} {s : State} {q : KReq} {c : KCmd} {e : Die} {P : Die → Prop} (run : exec i s = s.run (·.kanex q c))
  (taken : s.die.takes q c.op c.acts c.need c.used = true) (good : c.bad (s.die.accepted q c.op) = none)
include run taken good

theorem completes_of_ok {payload : List Byte} (body : c.body (s.die.accepted q c.op) = .ok e payload) (funcs : e.funcs = (s.die.accepted q c.op).funcs)
    (h : ∀ t : Die, t.answered q.fn kOk → t.sameButAnswer e → P t) : Completes i s P := by
  obtain ⟨ok, same⟩ := Die.kanex_of_ok taken good body funcs
  exact completes_of_run run (Die.awake_of_takes taken) (h _ ok same)

theorem completes_of_go {total : Nat} (body : c.body (s.die.accepted q c.op) = .go e total) (funcs : e.funcs = (s.die.accepted q c.op).funcs)
    (h : ∀ t : Die, t.stillRuns q.fn c.op → (t.fn q.fn).mbx.progTotal = total → t.sameButAnswer e → P t) : Completes i s P := by
  obtain ⟨runs, work, same⟩ := Die.kanex_of_go taken good body funcs
  exact completes_of_run run (Die.awake_of_takes taken) (h _ runs work same)

end

theorem Die.sameButAnswer_chan {t d : Die} (h : t.sameButAnswer d) (i : Nat) : t.chan i = d.chan i := by
  rw [Die.chan_eq, Die.sameButAnswer_dc h, Die.chan_eq]

/-- An answer leaves the attention output of the die. -/
theorem Die.sameButAnswer_alert {t d : Die} (h : t.sameButAnswer d) : t.life.alert = d.life.alert := by rw [← h]

/-! ## The commands' own parts -/

theorem badChannel_none {q : KReq} (real : q.get 0 1 < 12) : badChannel q = none := if_neg (Nat.not_le.mpr real)

/-- No channel but one is vacating or rejoining. -/
def Die.movesOnly (d : Die) (ch : Nat) : Prop := ∀ i, i < 12 → i ≠ ch → (d.chan i).st ≠ .vacating ∧ (d.chan i).st ≠ .rejoining

/-- The free granules of the other ACTIVE channels (R353). -/
def Die.roomBeside (d : Die) (ch : Nat) : Nat :=
  sumBy (fun i => if i != ch && (d.chan i).st == .active then d.dc.freeOn i else 0) (List.range 12)

section
variable {d : Die} {ch : Nat}

/-- No movement of another channel stands in the way of a vacate (R353). -/
theorem Die.dramVacate_free (active : (d.chan ch).st = .active) (alone : d.movesOnly ch) :
    ¬ ((d.chan ch).st ≠ .active
      ∨ (List.range 12).any (fun c => c != ch && ((d.chan c).st == .vacating || (d.chan c).st == .rejoining)) = true) := by
  rintro (moved | other)
  · exact moved active
  · obtain ⟨i, real, moving⟩ := List.any_eq_true.mp other
    obtain ⟨beside, moving⟩ := Bool.and_eq_true_iff.mp moving
    obtain ⟨still, stays⟩ := alone i (List.mem_range.mp real) (bne_iff_ne.mp beside)
    simp [still, stays] at moving

/-- A channel that holds nothing is drained and switched off in the command's step, with the alert (R353). -/
theorem Die.dramVacate_of_unused (active : (d.chan ch).st = .active) (alone : d.movesOnly ch) (unused : d.dc.used ch = 0) :
    ∃ e, d.dramVacate ch = .ok e [] ∧ e.funcs = d.funcs ∧ (e.chan ch).st = .vacated ∧ e.life.alert = true := by
  unfold Die.dramVacate
  extract_lets others vacating drained off life
  have unused' : vacating.dc.used ch = 0 := unused
  rw [if_neg (Die.dramVacate_free active alone), if_neg (by omega), if_pos unused']
  refine ⟨_, rfl, ?_, ?_, ?_⟩
  · rw [Die.record_only_lb]
    rfl
  · rw [Die.chan_eq, Die.record_dc]
    exact congrArg Chan.st (drained.chan_updChan_self ch _)
  · rw [Die.record_only_lb]

/-- A channel whose granules fit elsewhere vacates (R353). -/
theorem Die.dramVacate_of_used (active : (d.chan ch).st = .active) (alone : d.movesOnly ch) (used : 0 < d.dc.used ch)
    (room : d.dc.used ch ≤ d.roomBeside ch) :
    d.dramVacate ch = .go (d.updChan ch (fun x => { x with st := .vacating })) (d.dc.used ch) := by
  unfold Die.dramVacate
  rw [if_neg (Die.dramVacate_free active alone)]
  exact (if_neg (Nat.not_lt.mpr room)).trans (if_neg (Nat.ne_of_gt used))

/-- All channels level their rate: nothing else of a channel changes (R335). -/
theorem Die.levelRates_chan (d : Die) (i : Nat) : ∃ r, d.levelRates.chan i = { d.chan i with rate := r } := by
  unfold Die.levelRates
  extract_lets on low
  refine foldl_keeps (fun x : Die => ∃ r, x.chan i = { d.chan i with rate := r }) _ (fun x c ⟨r, h⟩ => ?_) on d ⟨(d.chan i).rate, rfl⟩
  rw [Die.chan_updChan]; split
  · subst i
    exact ⟨low, by rw [h]⟩
  · exact ⟨r, h⟩

theorem Die.levelRates_funcs (d : Die) : d.levelRates.funcs = d.funcs := by
  refine foldl_same Die.funcs _ ?_ _ d
  exact fun _ _ => rfl

/-- Granules placed change no channel (R337). -/
theorem Die.placeGranules_chan (d : Die) (i : Nat) : d.placeGranules.chan i = d.chan i := by
  refine congrArg (fun t : Tbl Chan => Tbl.get {} t i) (foldl_same (·.dc.chans) _ (fun x r => ?_) _ d)
  refine foldl_same (·.chans) _ (fun c k => ?_) _ x.dc
  dsimp only
  split
  · rfl
  · split
    · exact c.place_chans _ _
    · split
      · exact c.place_chans _ _
      · rfl

theorem Die.placeGranules_funcs (d : Die) : d.placeGranules.funcs = d.funcs := by
  refine foldl_same Die.funcs _ ?_ _ d
  exact fun _ _ => rfl

/-- The last part of a rejoin, its granules placed: the training kept, the hold of R356 ended where every region is whole, and granules moved
back while another channel holds more than an even share (R355). -/
def Die.rejoined (d : Die) (ch : Nat) : KAns :=
  let d := { d with dc := { d.dc with trained := ch :: d.dc.trained.filter (· != ch) } }
  let whole := (List.range 4).all (fun r => decide (ceilDiv (d.regionBytes r) Config.limitUnit ≤ d.dc.placed r))
  let d := { d with te := { d.te with heldDram := d.te.heldDram && !whole } }
  if d.dc.uneven ch then
    .go { d with dc := { d.dc with back := some ch } } (d.dc.granules.length / ((List.range 12).filter (fun c => (d.chan c).st == .active)).length)
  else .ok d []

theorem Die.dramRejoin_eq {f : ChanFind} (off : (d.chan ch).st = .vacated) (good : chanGood f = true) (trains : f.trainOk = true) :
    d.dramRejoin ch f = (d.updChan ch (fun x => x.fitted f .active)).levelRates.placeGranules.rejoined ch := by
  unfold Die.dramRejoin
  exact (if_neg (by simp [off])).trans ((if_neg (by simp [good])).trans (if_neg (by simp [trains])))

theorem Die.rejoined_ends (d : Die) (ch : Nat) : ∃ e, (d.rejoined ch = .ok e [] ∨ ∃ total, d.rejoined ch = .go e total)
    ∧ e.funcs = d.funcs ∧ e.dc.chans = d.dc.chans := by
  unfold Die.rejoined
  extract_lets dc trained whole te e
  split
  · exact ⟨{ e with dc := { e.dc with back := some ch } }, .inr ⟨_, rfl⟩, rfl, rfl⟩
  · exact ⟨e, .inl rfl, rfl, rfl⟩

/-- A rejoined channel is ACTIVE, swept, with what was found on it; where others hold more than an even share the command goes on (R355). -/
theorem Die.dramRejoin_of_good {f : ChanFind} (off : (d.chan ch).st = .vacated) (good : chanGood f = true) (trains : f.trainOk = true) :
    ∃ e, (d.dramRejoin ch f = .ok e [] ∨ ∃ total, d.dramRejoin ch f = .go e total) ∧ e.funcs = d.funcs
      ∧ ∃ r, e.chan ch = { (d.chan ch).fitted f .active with rate := r } := by
  obtain ⟨r, level⟩ := (d.updChan ch (fun x => x.fitted f .active)).levelRates_chan ch
  obtain ⟨e, ends, funcs, chans⟩ := (d.updChan ch (fun x => x.fitted f .active)).levelRates.placeGranules.rejoined_ends ch
  rw [Die.dramRejoin_eq off good trains]
  refine ⟨e, ends, ?_, r, ?_⟩
  · rw [funcs, Die.placeGranules_funcs, Die.levelRates_funcs, Die.updChan_funcs]
  · rw [Die.chan, chans, ← Die.chan, Die.placeGranules_chan, level, Die.chan_updChan_self]

end

/-- Settles O42: each command's own part on the die that took the request, whose DRAM controller and mailbox the answer reads back. -/
theorem dramCommandsAct : Obligations.DramCommandsAct := by
  intro s q c alone
  refine ⟨fun taken real active alone unused => ?_, fun taken real active alone used room => ?_, fun taken real vacating => ?_,
    fun f taken real off good trains => ?_, fun taken least most fits => ?_, fun taken good unlocked counted unarmed => ?_⟩
  · obtain ⟨e, body, funcs, off, alert⟩ := Die.dramVacate_of_unused (d := s.die.accepted q 0x0C02) active alone unused
    refine completes_of_ok rfl taken (badChannel_none real) body funcs fun t ok same => ⟨ok, ?_, ?_⟩
    · rw [Die.sameButAnswer_chan same, off]
    · rw [Die.sameButAnswer_alert same, alert]
  · have body := Die.dramVacate_of_used (d := s.die.accepted q 0x0C02) active alone used room
    refine completes_of_go rfl taken (badChannel_none real) body rfl fun t runs work same => ⟨runs, ?_, work⟩
    rw [Die.sameButAnswer_chan same, Die.chan_updChan_self]
  · have body : (s.die.accepted q 0x0C03).dramCancel c = .ok _ [] := if_pos vacating
    refine completes_of_ok rfl taken (badChannel_none real) body rfl fun t ok same => ⟨ok, ?_, ?_⟩
    · rw [Die.sameButAnswer_chan same, Die.chan_updChan_self]
    · rw [Die.sameButAnswer_dc same, Die.granules_updChan, Die.accepted_dc]
  · obtain ⟨e, body, funcs, r, chan⟩ := Die.dramRejoin_of_good (d := s.die.accepted q 0x0C04) off good trains
    have fitted {t : Die} (same : t.sameButAnswer e) : (t.chan c).st = .active ∧ (t.chan c).cap0 = f.cap0 ∧ (t.chan c).cap1 = f.cap1
        ∧ (t.chan c).pbits = [] := by
      rw [Die.sameButAnswer_chan same, chan]
      exact ⟨rfl, rfl, rfl, rfl⟩
    obtain body | ⟨total, body⟩ := body
    · exact completes_of_ok rfl taken (badChannel_none real) body funcs fun t ok same => ⟨.inl ok, fitted same⟩
    · exact completes_of_go rfl taken (badChannel_none real) body funcs fun t runs _ same => ⟨.inr runs, fitted same⟩
  · have body : (s.die.accepted q 0x0C05).proofSizeSet q = .ok _ [] := if_neg (Nat.not_lt.mpr fits)
    refine completes_of_ok rfl taken (if_neg (by omega)) body rfl fun t ok same => ⟨ok, ?_⟩
    rw [Die.sameButAnswer_dc same, Die.accepted_dc]
  · have unarmed' : ¬ ((s.die.accepted q 0x0D01).chan c).inject.isSome = true := by rw [Die.accepted_chan, unarmed]; decide
    have body : (s.die.accepted q 0x0D01).dramInject q = .ok _ [] :=
      (if_neg (Bool.eq_false_iff.mp unlocked)).trans ((if_neg counted).trans (if_neg unarmed'))
    refine completes_of_ok rfl taken good body rfl fun t ok same => ⟨ok, ?_⟩
    rw [Die.sameButAnswer_chan same, Die.chan_updChan_self]
    exact ⟨_, rfl, rfl, rfl⟩

end Sys2Proof.Machine
